-- ==== Sys2Proof/Word.lean ====
section
/-!
DEFINITION. The words of Tabyon 3: bytes, 32-bit lanes and 64-bit words, and their plainest arithmetic.

A register, an address and an instruction word are bits (R150, R152); a count, an index or a key is a `Nat`.
-/

namespace Sys2Proof

/-- One byte of memory. -/
abbrev Byte := BitVec 8

/-- One lane of a vector register. -/
abbrev Lane := BitVec 32

/-- A scalar register, an address, a lane mask or an instruction word. -/
abbrev Word := BitVec 64

/-- One bit as a truth value. -/
abbrev bit1 (b : BitVec 1) : Bool := b == 1#1

/-- A truth value as one bit. -/
abbrev ofBool1 (b : Bool) : BitVec 1 := if b then 1#1 else 0#1

/-- A lane index paired with a register number: the key of one lane of one vector register (64 lanes at most). -/
abbrev laneKey (r l : Nat) : Nat := r * 64 + l

end Sys2Proof
end

