-- ==== Sys2Proof/Machine/Num.lean ====
section
/-!
DEFINITION. The number formats of "Numbers to the last bit": the value of a code, rounding an exact value to a format,
and the arithmetic of FP32, LNS6, the matrix accumulator and the exact accumulator.

A finite value is exact: a sign, a natural number and a power of two.
-/

namespace Sys2Proof.Machine

/-- The number a code denotes (R135 to R137): NaN or NaR, an infinity, or (-1)^neg × mant × 2^exp. -/
inductive FVal where
  | nan
  | inf (neg : Bool)
  | fin (neg : Bool) (mant : Nat) (exp : Int)
  deriving DecidableEq, Repr, Inhabited

/-- A binary floating-point format (R135): exponent bits, fraction bits, bias, the largest finite magnitude code, and
whether it has infinities. -/
structure FFmt where
  eb : Nat
  fb : Nat
  bias : Nat
  maxCode : Nat
  hasInf : Bool
  deriving DecidableEq, Repr

/-- FP32. -/
def fp32 : FFmt := { eb := 8, fb := 23, bias := 127, maxCode := 0x7F7FFFFF, hasInf := true }
/-- FP16. -/
def fp16 : FFmt := { eb := 5, fb := 10, bias := 15, maxCode := 0x7BFF, hasInf := true }
/-- BF16. -/
def bf16 : FFmt := { eb := 8, fb := 7, bias := 127, maxCode := 0x7F7F, hasInf := true }
/-- E4M3, which has no infinity: codes 0x7F and 0xFF are NaN. -/
def e4m3 : FFmt := { eb := 4, fb := 3, bias := 7, maxCode := 0x7E, hasInf := false }
/-- E5M2. -/
def e5m2 : FFmt := { eb := 5, fb := 2, bias := 15, maxCode := 0x7B, hasInf := true }

/-- The float format of a format code (R154). -/
def ffmtOf (f : Nat) : FFmt :=
  match f with
  | 8 => fp32
  | 9 => fp16
  | 10 => bf16
  | 11 => e4m3
  | _ => e5m2

/-- The sign bit of a format. -/
def FFmt.sign (f : FFmt) : Nat := 2 ^ (f.eb + f.fb)

/-- The canonical NaN (R136). -/
def FFmt.canonical (f : FFmt) : Nat :=
  if f.hasInf then (2 ^ f.eb - 1) * 2 ^ f.fb + 2 ^ (f.fb - 1) else f.maxCode + 1

/-- The magnitude code of infinity, or of the NaN that stands for it in E4M3 (R139). -/
def FFmt.infCode (f : FFmt) : Nat := f.maxCode + 1

/-- The value of a float code (R135). -/
def floatValue (f : FFmt) (x : Nat) : FVal :=
  let neg := x / f.sign % 2 == 1
  let mag := x % f.sign
  let e := mag / 2 ^ f.fb
  let m := mag % 2 ^ f.fb
  if mag > f.maxCode then
    if f.hasInf && mag == f.infCode then .inf neg else .nan
  else if e = 0 then .fin neg m (1 - (f.bias : Int) - f.fb)
  else .fin neg (m + 2 ^ f.fb) ((e : Int) - f.bias - f.fb)

/-- Significands of LNS6 (R137). -/
def lnsT (f : Nat) : Nat :=
  match f with
  | 0 => 32768
  | 1 => 38968
  | 2 => 46341
  | _ => 55109

/-- The value of an LNS6 code; bits [7:6] are ignored (R137). -/
def lnsValue (x : Nat) : FVal :=
  let neg := x / 32 % 2 == 1
  let e := x % 32
  if e = 0 then (if neg then .nan else .fin false 0 0)
  else
    let d : Int := (e : Int) - 16
    .fin neg (lnsT (d % 4).toNat) (d / 4 - 15)

/-- The width in bits of a format code (R154). -/
def fmtBits (f : Nat) : Nat :=
  match f with
  | 0 => 8
  | 1 => 8
  | 2 => 16
  | 3 => 16
  | 4 => 32
  | 5 => 32
  | 6 => 64
  | 7 => 64
  | 8 => 32
  | 9 => 16
  | 10 => 16
  | _ => 8

/-- The format code is an integer format. -/
def fmtInt (f : Nat) : Bool := f < 8

/-- The format code is a signed integer format. -/
def fmtSigned (f : Nat) : Bool := f < 8 && f % 2 == 0

/-- The number an integer code denotes (R134). -/
def intValue (f x : Nat) : Int :=
  let n := fmtBits f
  let y := x % 2 ^ n
  if fmtSigned f && 2 ^ (n - 1) ≤ y then (y : Int) - 2 ^ n else y

/-- An integer as an exact value. -/
def ofInt (i : Int) : FVal := .fin (i < 0) i.natAbs 0

/-- value(x, f) of R171. -/
def fmtValue (f x : Nat) : FVal :=
  if fmtInt f then ofInt (intValue f x)
  else if f = 13 then lnsValue x
  else floatValue (ffmtOf f) (x % 2 ^ fmtBits f)

/-- The exact value multiplied by 2^k. -/
def FVal.scale (v : FVal) (k : Int) : FVal :=
  match v with
  | .fin s m e => .fin s m (e + k)
  | v => v

/-- The exact value with its sign flipped. -/
def FVal.neg (v : FVal) : FVal :=
  match v with
  | .nan => .nan
  | .inf s => .inf (!s)
  | .fin s m e => .fin (!s) m e

/-- Whether rounding goes away from zero, given the quotient's parity and the remainder doubled against the divisor
(R138): `half` is the ordering of twice the remainder and the divisor. -/
def roundUp (rm : Nat) (neg odd inexact : Bool) (half : Ordering) : Bool :=
  match rm with
  | 0 => half == .gt || (half == .eq && odd)
  | 1 => false
  | 2 => inexact && !neg
  | _ => inexact && neg

/-- m × 2^e as a whole number of units 2^q, rounded by a mode (R138). -/
def roundUnits (rm : Nat) (neg : Bool) (m : Nat) (e q : Int) : Nat :=
  if q ≤ e then m * 2 ^ (e - q).toNat
  else
    let d := 2 ^ (q - e).toNat
    let n := m / d
    let r := m % d
    if roundUp rm neg (n % 2 == 1) (r != 0) (compare (2 * r) d) then n + 1 else n

/-- What an overflowing finite result, or an infinite one in a format without infinities, becomes (R139): true for the
"infinite" column. -/
def overflowsToInf (rm : Nat) (neg : Bool) : Bool :=
  match rm with
  | 0 => true
  | 1 => false
  | 2 => !neg
  | _ => neg

/-- Put a sign on a magnitude code. -/
def FFmt.withSign (f : FFmt) (neg : Bool) (c : Nat) : Nat := if neg then f.sign + c else c

/-- Round an exact value to a float format (R138, R139). -/
def toFloat (f : FFmt) (rm : Nat) (sat : Bool) (v : FVal) : Nat :=
  match v with
  | .nan => f.canonical
  | .inf neg =>
    if sat then f.withSign neg f.maxCode
    else if f.hasInf || overflowsToInf rm neg then f.withSign neg f.infCode
    else f.withSign neg f.maxCode
  | .fin neg m e =>
    if m = 0 then f.withSign neg 0
    else
      let top : Int := (Nat.log2 m : Int) + e
      let q : Int := max top (1 - (f.bias : Int)) - f.fb
      let n := roundUnits rm neg m e q
      let c :=
        if n < 2 ^ f.fb then n
        else if n = 2 ^ (f.fb + 1) then (q + 1 + f.fb + f.bias).toNat * 2 ^ f.fb
        else (q + f.fb + f.bias).toNat * 2 ^ f.fb + (n - 2 ^ f.fb)
      if c ≤ f.maxCode then f.withSign neg c
      else if sat then f.withSign neg f.maxCode
      else if overflowsToInf rm neg then f.withSign neg f.infCode
      else f.withSign neg f.maxCode

/-- Round a value to LNS6 (R141). For a finite x = m × 2^e, floor(4 log2 |x|) is log2(m^4) + 4e exactly, and the
nearest integer comes from log2(m^8) + 8e in the same way. -/
def toLns (rm : Nat) (sat : Bool) (v : FVal) : Nat :=
  let sgn (neg : Bool) (c : Nat) : Nat := if neg then 32 + c else c
  let tooBig (neg : Bool) : Nat :=
    if sat then sgn neg 31 else if overflowsToInf rm neg then 32 else sgn neg 31
  match v with
  | .nan => 32
  | .inf neg => tooBig neg
  | .fin neg m e =>
    if m = 0 then 0
    else
      let lo : Int := (Nat.log2 (m ^ 4) : Int) + 4 * e
      let exact := m ^ 4 == 2 ^ Nat.log2 (m ^ 4)
      let near : Int := ((Nat.log2 (m ^ 8) : Int) + 8 * e + 1) / 2
      let up := (rm == 2 && !neg) || (rm == 3 && neg)
      let l : Int := (if rm == 0 then near else if up && !exact then lo + 1 else lo) + 16
      if 32 ≤ l then tooBig neg
      else if 1 ≤ l then sgn neg l.toNat
      else if up then sgn neg 1
      else 0

/-- The least and greatest value of an integer format (R134). -/
def intMin (f : Nat) : Int := if fmtSigned f then -(2 ^ (fmtBits f - 1) : Int) else 0
/-- The greatest value of an integer format (R134). -/
def intMax (f : Nat) : Int := if fmtSigned f then 2 ^ (fmtBits f - 1) - 1 else 2 ^ fmtBits f - 1

/-- sat(y, f) of R171. -/
def satInt (f : Nat) (y : Int) : Int := max (intMin f) (min (intMax f) y)

/-- The low bits of an integer in a format. -/
def intBits (f : Nat) (y : Int) : Nat := (y % (2 ^ fmtBits f : Int)).toNat

/-- Round a value to an integer by a mode. -/
def roundInt (rm : Nat) (neg : Bool) (m : Nat) (e : Int) : Int :=
  let n : Int := roundUnits rm neg m e 0
  if neg then -n else n

/-- Convert to an integer format (R140); `fromInt` says that the source is an integer. -/
def toInt (f rm : Nat) (sat fromInt : Bool) (v : FVal) : Nat :=
  let bad : Nat := if fmtSigned f then 2 ^ (fmtBits f - 1) else 2 ^ fmtBits f - 1
  match v with
  | .nan => if sat then 0 else bad
  | .inf neg => if sat then intBits f (if neg then intMin f else intMax f) else bad
  | .fin neg m e =>
    let i := roundInt rm neg m e
    if sat then intBits f (satInt f i)
    else if fromInt then intBits f i
    else if intMin f ≤ i && i ≤ intMax f then intBits f i
    else bad

/-- round_to(y, f, rm, s) of R171. -/
def roundTo (f rm : Nat) (sat fromInt : Bool) (v : FVal) : Nat :=
  if fmtInt f then toInt f rm sat fromInt v
  else if f = 13 then toLns rm sat v
  else toFloat (ffmtOf f) rm sat v

/-- An integer goes into a wider integer format, which extends it and clamps nothing (R140). -/
def widens (dst src : Nat) : Bool := fmtInt dst && fmtInt src && decide (fmtBits src < fmtBits dst)

/-- Convert a code between formats (R140, R220): equal formats pass the code through, a NaN becoming canonical. -/
def convert (dst src rm : Nat) (sat : Bool) (x : Nat) : Nat :=
  if dst = src then
    (if fmtInt src then x % 2 ^ fmtBits src
     else if fmtValue src x == .nan then roundTo dst rm sat false .nan
     else if src = 13 then (if x % 64 = 32 then 32 else x % 64)
     else x % 2 ^ fmtBits src)
  else roundTo dst rm (sat && !widens dst src) (fmtInt src) (fmtValue src x)

/-- The exponent of a block scale, none for NaN (R142). -/
def scaleExp (b : Byte) : Option Int := if b == 0xFF#8 then none else some ((b.toNat : Int) - 127)

/-- A value multiplied (`mul`) or divided by a block's factor (R142). -/
def applyScale (v : FVal) (b : Byte) (mul : Bool) : FVal :=
  match scaleExp b with
  | none => .nan
  | some k => v.scale (if mul then k else -k)

/-! ### FP32 arithmetic -/

/-- The value of an FP32 lane. -/
def f32 (x : Lane) : FVal := floatValue fp32 x.toNat

/-- An exact value rounded to FP32. -/
def toF32 (rm : Nat) (sat : Bool) (v : FVal) : Lane := BitVec.ofNat 32 (toFloat fp32 rm sat v)

/-- The exact sum of two values; an exact zero takes its sign as IEEE 754 says for the mode (R136). -/
def addExact (rm : Nat) (a b : FVal) : FVal :=
  match a, b with
  | .nan, _ => .nan
  | _, .nan => .nan
  | .inf s, .inf t => if s = t then .inf s else .nan
  | .inf s, _ => .inf s
  | _, .inf t => .inf t
  | .fin s m e, .fin t n d =>
    let q := min e d
    let x : Int := (if s then -1 else 1) * (m * 2 ^ (e - q).toNat : Nat)
    let y : Int := (if t then -1 else 1) * (n * 2 ^ (d - q).toNat : Nat)
    let z := x + y
    if z = 0 then (if m = 0 && n = 0 && s = t then .fin s 0 0 else .fin (rm == 3) 0 0)
    else .fin (z < 0) z.natAbs q

/-- The exact product of two values. -/
def mulExact (a b : FVal) : FVal :=
  match a, b with
  | .nan, _ => .nan
  | _, .nan => .nan
  | .inf s, .inf t => .inf (s != t)
  | .inf s, .fin t n _ => if n = 0 then .nan else .inf (s != t)
  | .fin s m _, .inf t => if m = 0 then .nan else .inf (s != t)
  | .fin s m e, .fin t n d => .fin (s != t) (m * n) (e + d)

/-- The order of two values as real numbers; −0 and +0 are equal; none with a NaN (R217). -/
def cmpVal (a b : FVal) : Option Ordering :=
  match a, b with
  | .nan, _ => none
  | _, .nan => none
  | .inf s, .inf t => some (if s = t then .eq else if s then .lt else .gt)
  | .inf s, _ => some (if s then .lt else .gt)
  | _, .inf t => some (if t then .gt else .lt)
  | .fin s m e, .fin t n d =>
    let q := min e d
    let x : Int := (if s then -1 else 1) * (m * 2 ^ (e - q).toNat : Nat)
    let y : Int := (if t then -1 else 1) * (n * 2 ^ (d - q).toNat : Nat)
    some (compare x y)

/-- The sign of a value that is not NaN. -/
def FVal.isNeg (v : FVal) : Bool :=
  match v with
  | .nan => false
  | .inf s => s
  | .fin s _ _ => s

/-- FMIN and FMAX on codes of a format (R215): −0 below +0, one NaN gives the other operand unchanged. -/
def minMax (f : FFmt) (wantMax : Bool) (a b : Nat) : Nat :=
  match floatValue f a, floatValue f b with
  | .nan, .nan => f.canonical
  | .nan, _ => b
  | _, .nan => a
  | va, vb =>
    let aLess : Bool :=
      match cmpVal va vb with
      | some .lt => true
      | some .gt => false
      | _ => va.isNeg || !vb.isNeg
    if aLess != wantMax then a else b

/-- FADD, FSUB and FMUL (R214). -/
def fadd32 (rm : Nat) (sat : Bool) (a b : Lane) : Lane := toF32 rm sat (addExact rm (f32 a) (f32 b))
/-- FSUB (R214). -/
def fsub32 (rm : Nat) (sat : Bool) (a b : Lane) : Lane := toF32 rm sat (addExact rm (f32 a) (f32 b).neg)
/-- FMUL (R214). -/
def fmul32 (rm : Nat) (sat : Bool) (a b : Lane) : Lane := toF32 rm sat (mulExact (f32 a) (f32 b))
/-- FFMA, rounded once (R214). -/
def ffma32 (rm : Nat) (sat : Bool) (a b c : Lane) : Lane :=
  toF32 rm sat (addExact rm (mulExact (f32 a) (f32 b)) (f32 c))
/-- FMIN (R215). -/
def fmin32 (a b : Lane) : Lane := BitVec.ofNat 32 (minMax fp32 false a.toNat b.toNat)
/-- FMAX (R215). -/
def fmax32 (a b : Lane) : Lane := BitVec.ofNat 32 (minMax fp32 true a.toNat b.toNat)

/-- The integer square root, one bit at a time from bit `k` down. -/
def isqrtFrom (n : Nat) : Nat → Nat → Nat
  | 0, r => r
  | k + 1, r =>
    let t := r + 2 ^ k
    isqrtFrom n k (if t * t ≤ n then t else r)

/-- FSQRT, rounded once (R216). The root is computed to more than 60 bits with a sticky bit below. -/
def fsqrt32 (rm : Nat) (a : Lane) : Lane :=
  match f32 a with
  | .nan => BitVec.ofNat 32 fp32.canonical
  | .inf true => BitVec.ofNat 32 fp32.canonical
  | .inf false => a
  | .fin neg m e =>
    if m = 0 then a
    else if neg then BitVec.ofNat 32 fp32.canonical
    else
      let k : Nat := if (e % 2) == 0 then 80 else 81
      let x := m * 2 ^ k
      let r := isqrtFrom x 56 0
      let sticky := if r * r = x then 0 else 1
      toF32 rm false (.fin false (2 * r + sticky) ((e - k) / 2 - 1))

/-! ### Approximations (R216)

A real value is enclosed by a fixed-point number with 128 fraction bits, or by an exact ratio. The device's own value
is a free function of the input, kept where it lies within the bound of R216; elsewhere the model takes the enclosure
rounded to nearest, which does (log 5). -/

/-- Fraction bits of the enclosures. -/
def fixBits : Nat := 128

/-- One in fixed point. -/
def fixOne : Nat := 2 ^ fixBits

/-- π with 256 fraction bits. -/
def piFix : Nat := 0x3243f6a8885a308d313198a2e03707344a4093822299f31d0082efa98ec4e6c89

/-- The natural logarithm of 2 with 128 fraction bits. -/
def ln2Fix : Nat := 0xb17217f7d1cf79abc9e3b39803f2f6af

/-- The sum of x^k ÷ k! for a fixed-point x, by `n` terms. -/
def expSeries : Nat → Nat → Nat → Nat → Nat
  | 0, _, _, _ => 0
  | n + 1, x, k, term => term + expSeries n x (k + 1) (term * x / fixOne / k)

/-- 2^x for a fixed-point fraction 0 ≤ x < 1. -/
def exp2Fix (x : Nat) : Nat := expSeries 40 (x * ln2Fix / fixOne) 1 fixOne

/-- The first `n` fraction bits of log2 of a fixed-point number 1 ≤ y < 2, by repeated squaring. -/
def log2Bits : Nat → Nat → Nat → Nat
  | 0, _, acc => acc
  | n + 1, y, acc =>
    let z := y * y / fixOne
    if 2 * fixOne ≤ z then log2Bits n (z / 2) (2 * acc + 1) else log2Bits n z (2 * acc)

/-- The alternating series of sine (k = 2) or cosine (k = 1) terms, for a fixed-point x with x² = `x2`. -/
def trigSeries : Nat → Nat → Nat → Int → Int
  | 0, _, _, _ => 0
  | n + 1, x2, k, term => term + trigSeries n x2 (k + 2) (-(term * x2 / fixOne / (k * (k + 1))))

/-- An argument m × 2^e reduced modulo 2π, with 128 fraction bits. -/
def reduceAngle (m : Nat) (e : Int) : Nat :=
  let x := if 0 ≤ e + 256 then m * 2 ^ (e + 256).toNat else m / 2 ^ (-(e + 256)).toNat
  x % (2 * piFix) / 2 ^ 128

/-- sin or cos of an angle 0 ≤ x < 2π in fixed point, folded into 0 ≤ x ≤ π ÷ 2 first. -/
def trigFix (cosine : Bool) (x : Nat) : Int :=
  let pi := piFix / 2 ^ 128
  let y := if cosine then (x + pi / 2) % (2 * pi) else x
  let neg := decide (pi ≤ y)
  let z := if neg then y - pi else y
  let t := if pi / 2 < z then pi - z else z
  let v := trigSeries 24 (t * t / fixOne) 2 t
  if neg then -v else v

/-- A real number m × 2^e known with an error below 2^-80 of its size, or of 2^-80 where that is larger. -/
structure Enclosed where
  neg : Bool
  mant : Nat
  exp : Int
  deriving Repr

/-- The exponent of the ulp of a real value's FP32 binade, at least that of a subnormal (R216). -/
def ulpExp (x : Enclosed) : Int := max ((Nat.log2 x.mant : Int) + x.exp - 23) (-149)

/-- |v - x| is at most `n` × 2^q, with a margin of 2^-60 of the enclosure's size for its own error. -/
def within (v : FVal) (x : Enclosed) (n : Nat) (q : Int) : Bool :=
  match v with
  | .fin s m e =>
    let b := min (min e x.exp) q
    let y : Int := (if s then -1 else 1) * (m * 2 ^ (e - b).toNat : Nat)
    let z : Int := (if x.neg then -1 else 1) * (x.mant * 2 ^ (x.exp - b).toNat : Nat)
    decide ((y - z).natAbs ≤ n * 2 ^ (q - b).toNat + z.natAbs / 2 ^ 60 + 1)
  | _ => false

/-- Keep the device's value where it lies within the bound, else the enclosure rounded to nearest (log 5). -/
def chooseApprox (given : Lane) (x : Enclosed) (n : Nat) (q : Int) : Lane :=
  if within (f32 given) x n q then given else toF32 0 false (.fin x.neg x.mant x.exp)

/-- 2^k for an integer k, as FP32, where it is representable. -/
def pow2Lane (k : Int) : Lane := toF32 0 false (.fin false 1 k)

/-- Whether a magnitude is a power of two. -/
def isPow2 (m : Nat) : Bool := m == 2 ^ Nat.log2 m

/-- The canonical NaN and the infinities of FP32. -/
def nan32 : Lane := 0x7FC00000#32
/-- ±∞ of FP32. -/
def inf32 (neg : Bool) : Lane := if neg then 0xFF800000#32 else 0x7F800000#32
/-- ±0 of FP32. -/
def zero32 (neg : Bool) : Lane := if neg then 0x80000000#32 else 0#32

/-- FRCP (R216). -/
def frcp32 (dev : Lane → Lane) (a : Lane) : Lane :=
  match f32 a with
  | .nan => nan32
  | .inf s => zero32 s
  | .fin s m e =>
    if m = 0 then inf32 s
    else if isPow2 m then toF32 0 false (.fin s 1 (-(Nat.log2 m : Int) - e))
    else
      let x : Enclosed := { neg := s, mant := 2 ^ 160 / m, exp := -e - 160 }
      chooseApprox (dev a) x 1 (ulpExp x)

/-- FRSQ (R216): the root of 2^k ÷ m for an even scale. -/
def frsq32 (dev : Lane → Lane) (a : Lane) : Lane :=
  match f32 a with
  | .nan => nan32
  | .inf s => if s then nan32 else zero32 false
  | .fin s m e =>
    if m = 0 then inf32 s
    else if s then nan32
    else
      let l : Int := (Nat.log2 m : Int) + e
      if isPow2 m && l % 2 == 0 then pow2Lane (-l / 2)
      else
        let k : Nat := if e % 2 == 0 then 260 else 261
        let r := isqrtFrom (2 ^ k / m) 132 0
        let x : Enclosed := { neg := false, mant := r, exp := (-e - k) / 2 }
        chooseApprox (dev a) x 2 (ulpExp x)

/-- FEXP2 (R216). -/
def fexp32 (dev : Lane → Lane) (a : Lane) : Lane :=
  match f32 a with
  | .nan => nan32
  | .inf s => if s then zero32 false else inf32 false
  | .fin s m e =>
    let d : Nat := 2 ^ (-(e + 128)).toNat
    let mag : Nat := if 0 ≤ e + 128 then m * 2 ^ (min (e + 128) 300).toNat else m / d
    let fx : Int := if s then -(mag : Int) - (if m % d = 0 then 0 else 1) else mag
    let whole : Int := fx / (fixOne : Int)
    let frac : Nat := (fx % (fixOne : Int)).toNat
    if m = 0 then pow2Lane 0
    else if 128 ≤ whole then inf32 false
    else if fx < -150 * (fixOne : Int) then zero32 false
    else if frac = 0 && e + 128 ≥ 0 && -149 ≤ whole then pow2Lane whole
    else
      let x : Enclosed := { neg := false, mant := exp2Fix frac, exp := whole - 128 }
      chooseApprox (dev a) x 2 (ulpExp x)

/-- FLOG2 (R216). -/
def flog32 (dev : Lane → Lane) (a : Lane) : Lane :=
  match f32 a with
  | .nan => nan32
  | .inf s => if s then nan32 else inf32 false
  | .fin s m e =>
    if m = 0 then inf32 true
    else if s then nan32
    else
      let l := Nat.log2 m
      let whole : Int := (l : Int) + e
      if isPow2 m then toF32 0 false (ofInt whole)
      else
        let y := m * 2 ^ (128 - l)
        let fx : Int := whole * (2 ^ 100 : Nat) + log2Bits 100 y 0
        let x : Enclosed := { neg := fx < 0, mant := fx.natAbs, exp := -100 }
        if whole = -1 || whole = 0 then chooseApprox (dev a) x 1 (-22) else chooseApprox (dev a) x 2 (ulpExp x)

/-- FSIN and FCOS (R216). -/
def ftrig32 (cosine : Bool) (dev : Lane → Lane) (a : Lane) : Lane :=
  match f32 a with
  | .nan => nan32
  | .inf _ => nan32
  | .fin s m e =>
    if m = 0 then (if cosine then 0x3F800000#32 else a)
    else
      let v := trigFix cosine (reduceAngle m e)
      let v := if s && !cosine then -v else v
      chooseApprox (dev a) { neg := v < 0, mant := v.natAbs, exp := -128 } 1 (-21)

/-! ### The matrix accumulator -/

/-- The value of an accumulator word of float kind (R145). -/
def accValue (w : Word) : FVal :=
  let neg := w.getLsbD 33
  let e := (w.extractLsb' 23 10).toNat
  let f := (w.extractLsb' 0 23).toNat
  if e = 1023 then (if f = 0 then .inf neg else .nan)
  else if e = 0 then .fin neg 0 0
  else .fin neg (f + 2 ^ 23) ((e : Int) - 511 - 23)

/-- Round to the accumulator's format, to nearest even (R145, R146). -/
def toAcc (v : FVal) : Word :=
  let sgn (neg : Bool) : Nat := if neg then 2 ^ 33 else 0
  match v with
  | .nan => BitVec.ofNat 64 (1023 * 2 ^ 23 + 0x400000)
  | .inf neg => BitVec.ofNat 64 (sgn neg + 1023 * 2 ^ 23)
  | .fin neg m e =>
    if m = 0 then BitVec.ofNat 64 (sgn neg)
    else
      let q : Int := (Nat.log2 m : Int) + e - 23
      let n := roundUnits 0 neg m e q
      let n' := if n = 2 ^ 24 then 2 ^ 23 else n
      let q' := if n = 2 ^ 24 then q + 1 else q
      let x := q' + 23 + 511
      if 1023 ≤ x then BitVec.ofNat 64 (sgn neg + 1023 * 2 ^ 23)
      else BitVec.ofNat 64 (sgn neg + x.toNat * 2 ^ 23 + (n' - 2 ^ 23))

/-- An LNS6 product (R144), unscaled. -/
def lnsProduct (a b : Nat) : FVal :=
  match lnsValue a, lnsValue b with
  | .nan, _ => .nan
  | _, .nan => .nan
  | .fin s m _, .fin t n _ =>
    if m = 0 || n = 0 then .fin false 0 0
    else
      let l : Int := ((a % 32 : Nat) : Int) - 16 + (((b % 32 : Nat) : Int) - 16)
      .fin (s != t) (lnsT (l % 4).toNat) (l / 4 - 15)
  | _, _ => .nan

/-- The exact sum of a chunk's products; only a chunk of −0 sums to −0 (R146). -/
def chunkSum (l : List FVal) : FVal :=
  match l with
  | [] => .fin false 0 0
  | a :: r => r.foldl (addExact 0) a

/-- One chunk of R146 added to an accumulator value. -/
def accAdd (acc : Word) (chunk : List FVal) : Word :=
  toAcc (addExact 0 (accValue acc) (accValue (toAcc (chunkSum chunk))))

/-! ### The exact accumulator -/

/-- An XA object's VAL as an integer (R148). -/
def xaVal (x : BitVec 512) : Int := (x.extractLsb' 0 384).toInt

/-- XADD of an FP32 value (R149). -/
def xaAdd (x : BitVec 512) (v : Lane) : BitVec 512 :=
  match f32 v with
  | .nan => x ||| (1#512 <<< 384)
  | .inf false => x ||| (1#512 <<< 385)
  | .inf true => x ||| (1#512 <<< 386)
  | .fin s m e =>
    let t : Int := (if s then -1 else 1) * (m * 2 ^ (e + 160).toNat : Nat)
    let sum := xaVal x + t
    let val : BitVec 384 := BitVec.ofInt 384 sum
    let y : BitVec 512 := (x.extractLsb' 384 128) ++ val
    if sum < -(2 ^ 383 : Int) || (2 ^ 383 : Int) ≤ sum then y ||| (1#512 <<< 387) else y

/-- XCVT (R149). -/
def xaRead (x : BitVec 512) : Lane :=
  if x.getLsbD 384 || x.getLsbD 387 || (x.getLsbD 385 && x.getLsbD 386) then nan32
  else if x.getLsbD 385 then inf32 false
  else if x.getLsbD 386 then inf32 true
  else
    let v := xaVal x
    toF32 0 false (if v = 0 then .fin false 0 0 else .fin (v < 0) v.natAbs (-160))

end Sys2Proof.Machine
end

