-- ==== Sys2Proof/Syntax.lean ====
section
/-!
DEFINITION. The syntax of Tabyon 3: one operand structure per layout of "Instruction words and the opcode map", and
the one inductive of instructions and device steps, a constructor per row of the opcode table.

Every operand field is the bits the word holds, under the spec's field names: `gn`, `gp` the guard (R152, R167),
`fa`, `fb`, `fc` the full/empty mode bits of the first, second and third source (R165; 1 reads in trap mode).
-/

namespace Sys2Proof

/-- S format, register form (R158): destination, two sources and their mode bits. -/
structure SRegs where
  sd : BitVec 7
  sa : BitVec 7
  sb : BitVec 7
  fa : BitVec 1
  fb : BitVec 1
  deriving DecidableEq, Repr, Inhabited

/-- S format, immediate form (R158): destination, one source and imm32. -/
structure SImm where
  sd : BitVec 7
  sa : BitVec 7
  fa : BitVec 1
  imm : BitVec 32
  deriving DecidableEq, Repr, Inhabited

/-- S format with one scalar source (SMOV, SCLZ, SPOPC). -/
structure SOne where
  sd : BitVec 7
  sa : BitVec 7
  fa : BitVec 1
  deriving DecidableEq, Repr, Inhabited

/-- SMOVI and SMOVH (R181). -/
structure SConst where
  sd : BitVec 7
  imm : BitVec 32
  deriving DecidableEq, Repr, Inhabited

/-- SLEA, register form (R182). -/
structure SLeaRegs where
  sd : BitVec 7
  sa : BitVec 7
  sb : BitVec 7
  fa : BitVec 1
  fb : BitVec 1
  sh : BitVec 3
  deriving DecidableEq, Repr, Inhabited

/-- SLEA, immediate form (R182). -/
structure SLeaImm where
  sd : BitVec 7
  sa : BitVec 7
  fa : BitVec 1
  disp : BitVec 29
  sh : BitVec 3
  deriving DecidableEq, Repr, Inhabited

/-- SSEL, register form (R184). -/
structure SSelRegs where
  sd : BitVec 7
  sa : BitVec 7
  sb : BitVec 7
  fa : BitVec 1
  fb : BitVec 1
  q : BitVec 3
  deriving DecidableEq, Repr, Inhabited

/-- SSEL, immediate form (R184). -/
structure SSelImm where
  sd : BitVec 7
  sa : BitVec 7
  fa : BitVec 1
  imm : BitVec 29
  q : BitVec 3
  deriving DecidableEq, Repr, Inhabited

/-- SEXT (R185): U and n - 1. -/
structure SExt where
  sd : BitVec 7
  sa : BitVec 7
  fa : BitVec 1
  u : BitVec 1
  n1 : BitVec 6
  deriving DecidableEq, Repr, Inhabited

/-- SBFX (R185): S, n - 1 and lo. -/
structure SBfx where
  sd : BitVec 7
  sa : BitVec 7
  fa : BitVec 1
  s : BitVec 1
  n1 : BitVec 6
  lo : BitVec 6
  deriving DecidableEq, Repr, Inhabited

/-- SBFI (R185): n - 1 and lo. -/
structure SBfi where
  sd : BitVec 7
  sa : BitVec 7
  fa : BitVec 1
  n1 : BitVec 6
  lo : BitVec 6
  deriving DecidableEq, Repr, Inhabited

/-- SCMP, register form (R186). -/
structure SCmpRegs where
  qd : BitVec 3
  sa : BitVec 7
  sb : BitVec 7
  fa : BitVec 1
  fb : BitVec 1
  rel : BitVec 4
  deriving DecidableEq, Repr, Inhabited

/-- SCMP, immediate form (R186). -/
structure SCmpImm where
  qd : BitVec 3
  sa : BitVec 7
  fa : BitVec 1
  rel : BitVec 4
  imm : BitVec 28
  deriving DecidableEq, Repr, Inhabited

/-- QAND, QOR and QXOR (R187). -/
structure QOp where
  qd : BitVec 3
  qa : BitVec 3
  qb : BitVec 3
  deriving DecidableEq, Repr, Inhabited

/-- VOTE (R188). -/
structure VoteOp where
  qd : BitVec 3
  pa : BitVec 3
  mode : BitVec 2
  deriving DecidableEq, Repr, Inhabited

/-- PCOUNT (R189) and PMOV direction 0 (R190). -/
structure PCountOp where
  sd : BitVec 7
  pa : BitVec 3
  deriving DecidableEq, Repr, Inhabited

/-- PMOV direction 1 (R190). -/
structure PMovToPred where
  pd : BitVec 3
  sa : BitVec 7
  fa : BitVec 1
  deriving DecidableEq, Repr, Inhabited

/-- GSPLIT and GFUSE (R203, R204): destination and split code. -/
structure WidthOp where
  sd : BitVec 7
  code : BitVec 2
  deriving DecidableEq, Repr, Inhabited

/-- BRQ (R159, R191). -/
structure BrqOp where
  q : BitVec 3
  neg : BitVec 1
  off : BitVec 32
  deriving DecidableEq, Repr, Inhabited

/-- BRV (R159, R192). -/
structure BrvOp where
  gn : BitVec 1
  gp : BitVec 3
  rcv : BitVec 16
  off : BitVec 32
  deriving DecidableEq, Repr, Inhabited

/-- JMP to an offset (R193). -/
structure JmpOp where
  off : BitVec 32
  deriving DecidableEq, Repr, Inhabited

/-- JMP to a register (R193). -/
structure JmpRegOp where
  sa : BitVec 7
  fa : BitVec 1
  deriving DecidableEq, Repr, Inhabited

/-- CALL to an offset (R196). -/
structure CallOp where
  sl : BitVec 7
  off : BitVec 32
  deriving DecidableEq, Repr, Inhabited

/-- CALL to a register (R196). -/
structure CallRegOp where
  sl : BitVec 7
  sa : BitVec 7
  fa : BitVec 1
  deriving DecidableEq, Repr, Inhabited

/-- RET (R197). -/
structure RetOp where
  sl : BitVec 7
  fl : BitVec 1
  deriving DecidableEq, Repr, Inhabited

/-- LOOP (R201). -/
structure LoopOp where
  sl : BitVec 7
  fl : BitVec 1
  off : BitVec 32
  deriving DecidableEq, Repr, Inhabited

/-- JMPV (R199). -/
structure JmpvOp where
  gn : BitVec 1
  gp : BitVec 3
  va : BitVec 8
  fa : BitVec 1
  rcv : BitVec 12
  deriving DecidableEq, Repr, Inhabited

/-- CALLV (R199). -/
structure CallvOp where
  gn : BitVec 1
  gp : BitVec 3
  vd : BitVec 8
  va : BitVec 8
  fa : BitVec 1
  deriving DecidableEq, Repr, Inhabited

/-- RETV (R199). -/
structure RetvOp where
  gn : BitVec 1
  gp : BitVec 3
  va : BitVec 8
  fa : BitVec 1
  deriving DecidableEq, Repr, Inhabited

/-- EXIT (R202). -/
structure ExitOp where
  gn : BitVec 1
  gp : BitVec 3
  deriving DecidableEq, Repr, Inhabited

/-- PBLK (R161, R205). -/
structure PblkOp where
  q : BitVec 3
  cnt : BitVec 3
  pat : BitVec 8
  deriving DecidableEq, Repr, Inhabited

/-- LD (R157, R237, R240). -/
structure LdOp where
  gn : BitVec 1
  gp : BitVec 3
  size : BitVec 3
  vd : BitVec 8
  va : BitVec 8
  sb : BitVec 7
  scope : BitVec 3
  ord : BitVec 2
  eb : BitVec 8
  ec : BitVec 4
  pk : BitVec 1
  fea : BitVec 1
  osc : BitVec 2
  hint : BitVec 3
  deriving DecidableEq, Repr, Inhabited

/-- ST (R237). -/
structure StOp where
  gn : BitVec 1
  gp : BitVec 3
  size : BitVec 3
  vd : BitVec 8
  va : BitVec 8
  sb : BitVec 7
  scope : BitVec 3
  ord : BitVec 2
  fea : BitVec 1
  fed : BitVec 1
  osc : BitVec 2
  hint : BitVec 3
  deriving DecidableEq, Repr, Inhabited

/-- LDS and LDV (R237). -/
structure LdsOp where
  gn : BitVec 1
  gp : BitVec 3
  size : BitVec 3
  vd : BitVec 8
  va : BitVec 8
  sb : BitVec 7
  scope : BitVec 3
  ord : BitVec 2
  fea : BitVec 1
  osc : BitVec 2
  deriving DecidableEq, Repr, Inhabited

/-- STS and STV (R237). -/
structure StsOp where
  gn : BitVec 1
  gp : BitVec 3
  size : BitVec 3
  vd : BitVec 8
  va : BitVec 8
  sb : BitVec 7
  scope : BitVec 3
  ord : BitVec 2
  fea : BitVec 1
  fed : BitVec 1
  osc : BitVec 2
  deriving DecidableEq, Repr, Inhabited

/-- SLD (R157, R238). -/
structure SldOp where
  size : BitVec 3
  vd : BitVec 7
  disp : BitVec 8
  sb : BitVec 7
  scope : BitVec 3
  ord : BitVec 2
  fea : BitVec 1
  osc : BitVec 2
  deriving DecidableEq, Repr, Inhabited

/-- SST (R157, R238). -/
structure SstOp where
  size : BitVec 3
  vd : BitVec 7
  disp : BitVec 8
  sb : BitVec 7
  scope : BitVec 3
  ord : BitVec 2
  fea : BitVec 1
  fed : BitVec 1
  osc : BitVec 2
  deriving DecidableEq, Repr, Inhabited

/-- PREFETCH (R239). -/
structure PrefetchOp where
  gn : BitVec 1
  gp : BitVec 3
  va : BitVec 8
  sb : BitVec 7
  fea : BitVec 1
  osc : BitVec 2
  hint : BitVec 3
  deriving DecidableEq, Repr, Inhabited

/-- XADD (R245). -/
structure XaddOp where
  gn : BitVec 1
  gp : BitVec 3
  vd : BitVec 8
  va : BitVec 8
  sb : BitVec 7
  scope : BitVec 3
  ord : BitVec 2
  fea : BitVec 1
  fed : BitVec 1
  osc : BitVec 2
  deriving DecidableEq, Repr, Inhabited

/-- XCVT (R246). -/
structure XcvtOp where
  gn : BitVec 1
  gp : BitVec 3
  vd : BitVec 8
  va : BitVec 8
  sb : BitVec 7
  scope : BitVec 3
  ord : BitVec 2
  fea : BitVec 1
  osc : BitVec 2
  deriving DecidableEq, Repr, Inhabited

/-- ATOM (R242). -/
structure AtomOp where
  gn : BitVec 1
  gp : BitVec 3
  size : BitVec 3
  vd : BitVec 8
  va : BitVec 8
  sb : BitVec 7
  scope : BitVec 3
  ord : BitVec 2
  eb : BitVec 8
  ec : BitVec 4
  pk : BitVec 1
  fea : BitVec 1
  fed : BitVec 1
  osc : BitVec 2
  space : BitVec 3
  deriving DecidableEq, Repr, Inhabited

/-- V format, two sources, mod 0 (R152, R208). -/
structure VTwo where
  gn : BitVec 1
  gp : BitVec 3
  vd : BitVec 8
  va : BitVec 8
  vb : BitVec 8
  vbs : BitVec 1
  fa : BitVec 1
  fb : BitVec 1
  deriving DecidableEq, Repr, Inhabited

/-- V format, two sources and U (R153). -/
structure VTwoU where
  gn : BitVec 1
  gp : BitVec 3
  u : BitVec 1
  vd : BitVec 8
  va : BitVec 8
  vb : BitVec 8
  vbs : BitVec 1
  fa : BitVec 1
  fb : BitVec 1
  deriving DecidableEq, Repr, Inhabited

/-- V format, three sources, mod 0. -/
structure VThree where
  gn : BitVec 1
  gp : BitVec 3
  vd : BitVec 8
  va : BitVec 8
  vb : BitVec 8
  vc : BitVec 8
  vbs : BitVec 1
  fa : BitVec 1
  fb : BitVec 1
  fc : BitVec 1
  deriving DecidableEq, Repr, Inhabited

/-- V format, three sources and U. -/
structure VThreeU where
  gn : BitVec 1
  gp : BitVec 3
  u : BitVec 1
  vd : BitVec 8
  va : BitVec 8
  vb : BitVec 8
  vc : BitVec 8
  vbs : BitVec 1
  fa : BitVec 1
  fb : BitVec 1
  fc : BitVec 1
  deriving DecidableEq, Repr, Inhabited

/-- VSHL, VSHR and VSRA (R209). -/
structure VShift where
  gn : BitVec 1
  gp : BitVec 3
  vd : BitVec 8
  va : BitVec 8
  vb : BitVec 8
  vbs : BitVec 1
  fa : BitVec 1
  fb : BitVec 1
  imm : BitVec 1
  cnt : BitVec 5
  deriving DecidableEq, Repr, Inhabited

/-- VSEL (R212). -/
structure VSelOp where
  gn : BitVec 1
  gp : BitVec 3
  vd : BitVec 8
  va : BitVec 8
  vb : BitVec 8
  vbs : BitVec 1
  fa : BitVec 1
  fb : BitVec 1
  neg : BitVec 1
  ps : BitVec 3
  deriving DecidableEq, Repr, Inhabited

/-- VMOV (R211); the va field repeats vd. -/
structure VMovOp where
  gn : BitVec 1
  gp : BitVec 3
  vd : BitVec 8
  vb : BitVec 8
  vbs : BitVec 1
  fb : BitVec 1
  deriving DecidableEq, Repr, Inhabited

/-- VMOVI (R211); the va field repeats vd. -/
structure VMoviOp where
  gn : BitVec 1
  gp : BitVec 3
  vd : BitVec 8
  imm : BitVec 32
  deriving DecidableEq, Repr, Inhabited

/-- V format, one source, mod 0 (VCLZ, VPOPC, the approximations). -/
structure VOne where
  gn : BitVec 1
  gp : BitVec 3
  vd : BitVec 8
  va : BitVec 8
  fa : BitVec 1
  deriving DecidableEq, Repr, Inhabited

/-- FSQRT (R216): one source and a rounding code. -/
structure VOneRm where
  gn : BitVec 1
  gp : BitVec 3
  rm : BitVec 2
  vd : BitVec 8
  va : BitVec 8
  fa : BitVec 1
  deriving DecidableEq, Repr, Inhabited

/-- VBFX (R212). -/
structure VBfxOp where
  gn : BitVec 1
  gp : BitVec 3
  u : BitVec 1
  vd : BitVec 8
  va : BitVec 8
  fa : BitVec 1
  n1 : BitVec 5
  lo : BitVec 5
  deriving DecidableEq, Repr, Inhabited

/-- VBFI (R212). -/
structure VBfiOp where
  gn : BitVec 1
  gp : BitVec 3
  vd : BitVec 8
  va : BitVec 8
  fa : BitVec 1
  n1 : BitVec 5
  lo : BitVec 5
  deriving DecidableEq, Repr, Inhabited

/-- VPRMT (R212), register (i = 0) and immediate (i = 1) control. -/
structure VPrmtOp where
  gn : BitVec 1
  gp : BitVec 3
  i : BitVec 1
  vd : BitVec 8
  va : BitVec 8
  vb : BitVec 8
  vc : BitVec 8
  vbs : BitVec 1
  fa : BitVec 1
  fb : BitVec 1
  fc : BitVec 1
  ctl : BitVec 12
  deriving DecidableEq, Repr, Inhabited

/-- VIDX (R212). -/
structure VIdxOp where
  gn : BitVec 1
  gp : BitVec 3
  vd : BitVec 8
  vb : BitVec 8
  vbs : BitVec 1
  fb : BitVec 1
  step : BitVec 12
  deriving DecidableEq, Repr, Inhabited

/-- VC format, VCMP and FCMP (R155, R213, R217). -/
structure VCmpOp where
  gn : BitVec 1
  gp : BitVec 3
  ct : BitVec 3
  pd1 : BitVec 3
  pd2 : BitVec 3
  va : BitVec 8
  vb : BitVec 8
  vbs : BitVec 1
  fa : BitVec 1
  fb : BitVec 1
  rel : BitVec 4
  ctyp : BitVec 3
  deriving DecidableEq, Repr, Inhabited

/-- FCLASS (R218). -/
structure FClassOp where
  gn : BitVec 1
  gp : BitVec 3
  ct : BitVec 3
  pd1 : BitVec 3
  pd2 : BitVec 3
  va : BitVec 8
  fa : BitVec 1
  ty : BitVec 2
  mask : BitVec 10
  deriving DecidableEq, Repr, Inhabited

/-- FP32 arithmetic, two sources (R214). -/
structure FTwo where
  gn : BitVec 1
  gp : BitVec 3
  rm : BitVec 2
  sat : BitVec 1
  vd : BitVec 8
  va : BitVec 8
  vb : BitVec 8
  vbs : BitVec 1
  fa : BitVec 1
  fb : BitVec 1
  deriving DecidableEq, Repr, Inhabited

/-- FFMA (R214). -/
structure FThree where
  gn : BitVec 1
  gp : BitVec 3
  rm : BitVec 2
  sat : BitVec 1
  vd : BitVec 8
  va : BitVec 8
  vb : BitVec 8
  vc : BitVec 8
  vbs : BitVec 1
  fa : BitVec 1
  fb : BitVec 1
  fc : BitVec 1
  deriving DecidableEq, Repr, Inhabited

/-- CVT (R220); vb is the scale register. -/
structure CvtOp where
  gn : BitVec 1
  gp : BitVec 3
  rm : BitVec 2
  sat : BitVec 1
  vd : BitVec 8
  va : BitVec 8
  vb : BitVec 8
  fa : BitVec 1
  fb : BitVec 1
  dst : BitVec 4
  src : BitVec 4
  s : BitVec 1
  sel : BitVec 2
  deriving DecidableEq, Repr, Inhabited

/-- PACK (R221); vc is the scale register. -/
structure PackOp where
  gn : BitVec 1
  gp : BitVec 3
  rm : BitVec 2
  sat : BitVec 1
  vd : BitVec 8
  va : BitVec 8
  vb : BitVec 8
  vc : BitVec 8
  vbs : BitVec 1
  fa : BitVec 1
  fb : BitVec 1
  fc : BitVec 1
  dst : BitVec 4
  src : BitVec 4
  s : BitVec 1
  k : BitVec 1
  sel : BitVec 2
  deriving DecidableEq, Repr, Inhabited

/-- VSHUF (R224). -/
structure VShufOp where
  gn : BitVec 1
  gp : BitVec 3
  vd : BitVec 8
  va : BitVec 8
  vb : BitVec 8
  vbs : BitVec 1
  fa : BitVec 1
  fb : BitVec 1
  wrap : BitVec 1
  deriving DecidableEq, Repr, Inhabited

/-- VLSH (R225). -/
structure VLshOp where
  gn : BitVec 1
  gp : BitVec 3
  vd : BitVec 8
  va : BitVec 8
  vb : BitVec 8
  vc : BitVec 8
  vbs : BitVec 1
  fa : BitVec 1
  fb : BitVec 1
  fc : BitVec 1
  rot : BitVec 1
  f : BitVec 1
  k : BitVec 8
  deriving DecidableEq, Repr, Inhabited

/-- VBCAST (R226). -/
structure VBcastOp where
  gn : BitVec 1
  gp : BitVec 3
  vd : BitVec 8
  va : BitVec 8
  vb : BitVec 8
  vbs : BitVec 1
  fa : BitVec 1
  fb : BitVec 1
  j : BitVec 6
  deriving DecidableEq, Repr, Inhabited

/-- VRED (R228). -/
structure VRedOp where
  gn : BitVec 1
  gp : BitVec 3
  rm : BitVec 2
  sat : BitVec 1
  vd : BitVec 8
  va : BitVec 8
  fa : BitVec 1
  d : BitVec 1
  op : BitVec 4
  deriving DecidableEq, Repr, Inhabited

/-- VSCAN (R229). -/
structure VScanOp where
  gn : BitVec 1
  gp : BitVec 3
  rm : BitVec 2
  sat : BitVec 1
  vd : BitVec 8
  va : BitVec 8
  fa : BitVec 1
  excl : BitVec 1
  op : BitVec 4
  deriving DecidableEq, Repr, Inhabited

/-- NPUSH (R231). -/
structure NPushOp where
  gn : BitVec 1
  gp : BitVec 3
  va : BitVec 8
  fa : BitVec 1
  d : BitVec 2
  deriving DecidableEq, Repr, Inhabited

/-- NPOP (R231). -/
structure NPopOp where
  gn : BitVec 1
  gp : BitVec 3
  vd : BitVec 8
  d : BitVec 2
  deriving DecidableEq, Repr, Inhabited

/-- SPAWN (R259); vb names s(E). -/
structure SpawnOp where
  gn : BitVec 1
  gp : BitVec 3
  va : BitVec 8
  vb : BitVec 8
  fa : BitVec 1
  fb : BitVec 1
  deriving DecidableEq, Repr, Inhabited

/-- MLDW (R265, R266). -/
structure MldwOp where
  sa : BitVec 7
  sb : BitVec 7
  fa : BitVec 1
  fb : BitVec 1
  t : BitVec 6
  vS : BitVec 8
  s : BitVec 1
  fmt : BitVec 4
  deriving DecidableEq, Repr, Inhabited

/-- MSTREAM (R265, R268). -/
structure MstreamOp where
  sa : BitVec 7
  sb : BitVec 7
  fa : BitVec 1
  fb : BitVec 1
  t : BitVec 6
  a : BitVec 2
  vS : BitVec 8
  s : BitVec 1
  fmt : BitVec 4
  deriving DecidableEq, Repr, Inhabited

/-- MDRAIN (R269). -/
structure MdrainOp where
  sa : BitVec 7
  sb : BitVec 7
  fa : BitVec 1
  fb : BitVec 1
  t : BitVec 6
  a : BitVec 2
  sat : BitVec 1
  rm : BitVec 2
  fmt : BitVec 4
  deriving DecidableEq, Repr, Inhabited

/-- MZERO (R270). -/
structure MzeroOp where
  a : BitVec 2
  i : BitVec 1
  deriving DecidableEq, Repr, Inhabited

/-- A scalar destination alone (MBATCH, MSTAT). -/
structure SdOp where
  sd : BitVec 7
  deriving DecidableEq, Repr, Inhabited

/-- MWAIT (R271), immediate (imm = 1) or register form. -/
structure MwaitOp where
  sa : BitVec 7
  fa : BitVec 1
  imm : BitVec 1
  n : BitVec 8
  deriving DecidableEq, Repr, Inhabited

/-- TDEF (R248). -/
structure TdefOp where
  sd : BitVec 7
  sa : BitVec 7
  sb : BitVec 7
  fa : BitVec 1
  fb : BitVec 1
  t : BitVec 6
  deriving DecidableEq, Repr, Inhabited

/-- TLOAD (R249). -/
structure TloadOp where
  sa : BitVec 7
  sb : BitVec 7
  fa : BitVec 1
  fb : BitVec 1
  t : BitVec 6
  tr : BitVec 2
  deriving DecidableEq, Repr, Inhabited

/-- TSTORE (R250). -/
structure TstoreOp where
  sa : BitVec 7
  sb : BitVec 7
  fa : BitVec 1
  fb : BitVec 1
  t : BitVec 6
  deriving DecidableEq, Repr, Inhabited

/-- TREL (R251). -/
structure TileOp where
  t : BitVec 6
  deriving DecidableEq, Repr, Inhabited

/-- TSTAT (R251). -/
structure TstatOp where
  sd : BitVec 7
  t : BitVec 6
  deriving DecidableEq, Repr, Inhabited

/-- Two scalar sources (FINIT, FEXPECT, QINIT, QPUSH, QPOP, XPOST). -/
structure SaSbOp where
  sa : BitVec 7
  sb : BitVec 7
  fa : BitVec 1
  fb : BitVec 1
  deriving DecidableEq, Repr, Inhabited

/-- FWAIT (R253): the phase is ph, or bit 0 of s(sb) when reg = 1. -/
structure FwaitOp where
  sa : BitVec 7
  sb : BitVec 7
  fa : BitVec 1
  fb : BitVec 1
  reg : BitVec 1
  ph : BitVec 1
  deriving DecidableEq, Repr, Inhabited

/-- BINIT (R254). -/
structure BinitOp where
  sa : BitVec 7
  fa : BitVec 1
  b : BitVec 5
  scope : BitVec 3
  deriving DecidableEq, Repr, Inhabited

/-- BARV, BWAIT and BSYNC (R254). -/
structure PointOp where
  b : BitVec 5
  deriving DecidableEq, Repr, Inhabited

/-- A scalar destination and a scalar source (QWAIT, CPROTO). -/
structure SdSaOp where
  sd : BitVec 7
  sa : BitVec 7
  fa : BitVec 1
  deriving DecidableEq, Repr, Inhabited

/-- QPUSH.res (R257); imm14 is 1. -/
structure QResOp where
  sd : BitVec 7
  sa : BitVec 7
  fa : BitVec 1
  deriving DecidableEq, Repr, Inhabited

/-- QPUSH.cmt (R257); imm14 is 2. -/
structure QCmtOp where
  sa : BitVec 7
  fa : BitVec 1
  deriving DecidableEq, Repr, Inhabited

/-- One scalar source (QREL, CCLOSE). -/
structure SaOp where
  sa : BitVec 7
  fa : BitVec 1
  deriving DecidableEq, Repr, Inhabited

/-- FENCE (R247). -/
structure FenceOp where
  scope : BitVec 3
  ord : BitVec 2
  deriving DecidableEq, Repr, Inhabited

/-- XTPL (R276). -/
structure XtplOp where
  sa : BitVec 7
  fa : BitVec 1
  i : BitVec 5
  deriving DecidableEq, Repr, Inhabited

/-- XQUERY (R278). -/
structure XqueryOp where
  sd : BitVec 7
  i : BitVec 5
  deriving DecidableEq, Repr, Inhabited

/-- COPEN (R281). -/
structure CopenOp where
  sd : BitVec 7
  sa : BitVec 7
  fa : BitVec 1
  span : BitVec 1
  deriving DecidableEq, Repr, Inhabited

/-- CBIND (R282). -/
structure CbindOp where
  sd : BitVec 7
  sa : BitVec 7
  fa : BitVec 1
  role : BitVec 3
  deriving DecidableEq, Repr, Inhabited

/-- CSEND (R283). -/
structure CsendOp where
  sa : BitVec 7
  sb : BitVec 7
  fa : BitVec 1
  fb : BitVec 1
  n : BitVec 4
  kind : BitVec 4
  role : BitVec 3
  deriving DecidableEq, Repr, Inhabited

/-- CRECV (R284). -/
structure CrecvOp where
  sd : BitVec 7
  sa : BitVec 7
  sb : BitVec 7
  fa : BitVec 1
  role : BitVec 3
  deriving DecidableEq, Repr, Inhabited

/-- CDELEG (R285). -/
structure CdelegOp where
  sa : BitVec 7
  fa : BitVec 1
  role : BitVec 3
  deriving DecidableEq, Repr, Inhabited

/-- SRD (R288). -/
structure SrdOp where
  sd : BitVec 7
  sa : BitVec 7
  fa : BitVec 1
  v : BitVec 1
  cls : BitVec 5
  idx : BitVec 8
  deriving DecidableEq, Repr, Inhabited

/-- SWR (R288). -/
structure SwrOp where
  sd : BitVec 7
  sa : BitVec 7
  fa : BitVec 1
  cls : BitVec 5
  idx : BitVec 8
  deriving DecidableEq, Repr, Inhabited

/-- TRAP and BRK (R290). -/
structure ImmOp where
  imm : BitVec 8
  deriving DecidableEq, Repr, Inhabited

/-- IINV (R291). -/
structure IinvOp where
  sa : BitVec 7
  sb : BitVec 7
  fa : BitVec 1
  fb : BitVec 1
  scope : BitVec 3
  deriving DecidableEq, Repr, Inhabited

/-- CHKERR (R293). -/
structure ChkerrOp where
  sd : BitVec 7
  clr : BitVec 1
  deriving DecidableEq, Repr, Inhabited

/-- LAUNCH (R293). -/
structure LaunchOp where
  sd : BitVec 7
  sa : BitVec 7
  sb : BitVec 7
  fa : BitVec 1
  fb : BitVec 1
  deriving DecidableEq, Repr, Inhabited

/-- A conversation request of a party of another device (R326): the operation (0 send, 1 receive, 2 bind, 3 delegate,
4 close, 6 withdraw what its tag asked; 5 means none, and the step is for a request of this device), the device, its
party, the request tag its BTE
gave it, and the fields of the instruction. -/
structure ConvMsg where
  op : Nat := 5
  dev : Nat := 0
  party : Nat := 0
  tag : Nat := 0
  home : Nat := 0
  obj : Nat := 0
  gen : Nat := 0
  role : Nat := 0
  kind : Nat := 0
  payload : List Word := []
  deriving DecidableEq, Repr, Inhabited

/-- A collective packet (R312, R320, R321): sender, instance, view, what must match, the bytes from `off` on of a
payload of
`size` bytes, and whether it carries the final result of the member of rank 0 (R430). -/
structure CollMsg where
  dev : Nat := 0
  ctx : Nat := 0
  inst : Nat := 0
  view : Nat := 0
  kind : Nat := 0
  op : Nat := 0
  fmt : Nat := 0
  rowBytes : Nat := 0
  rows : Nat := 0
  named : Nat := 0
  off : Nat := 0
  size : Nat := 0
  data : List Byte := []
  result : Bool := false
  deriving DecidableEq, Repr, Inhabited

/-- A view proposal or commit (R428): its coordinator, number and membership bitmap, and whether it admits a joiner. -/
structure ViewMsg where
  dev : Nat := 0
  num : Nat := 0
  map : BitVec 256 := 0#256
  joining : Bool := false
  deriving DecidableEq, Repr, Inhabited

/-- What a peer asks of firmware (R59, R343, R367, R401, R420, R434): the kind of request, its numbers and a value.
Kinds: 0 a port command `a`; 1 a debug register of core `a` at offset `b`; 2 an injection for core `a`, slot `b`,
register `c` (256 and up: scalar), lane and bit `d` (64 × lane + bit), count and mode `e` (4 × count + mode); 3 the abort
of launch `a`; 4 the pre-emption of team `a`; 5 a port configuration, register `a`; 6 a JOIN to coordinator `a`; 7 the
arming of alarm level 3. -/
structure PeerRequest where
  kind : Nat := 0
  a : Nat := 0
  b : Nat := 0
  c : Nat := 0
  d : Nat := 0
  e : Nat := 0
  v : Word := 0#64
  deriving DecidableEq, Repr, Inhabited

/-- How a host access reaches this device (R334, R345): from the peer of the port; over the fabric, from the host on a
port of another device; or it is the answer of another device, with its status, for the host on a port of this one. -/
inductive HostMove where
  | direct
  | relayed (dev port : Nat)
  | answered (port status : Nat)
  deriving DecidableEq, Repr, Inhabited

/-- How a host access comes (R334, R345): the port, from where, the device it is for, and its size in bytes. -/
structure HostRoute where
  port : Nat := 0
  move : HostMove := .direct
  dev : Nat := 0
  size : Nat := 8
  deriving DecidableEq, Repr, Inhabited

/-- What a peer offers in NEGOTIATE_ALGORITHMS (R342): its port, LMS with SHA-256 as an extended asymmetric algorithm, and
the hash, key exchange and AEAD algorithms as the bits of SPDM 1.2. -/
structure SpdmOffer where
  port : Nat := 0
  lms : Bool := true
  hash : Nat := 0x1
  dhe : Nat := 0x10
  aead : Nat := 0x2
  deriving DecidableEq, Repr, Inhabited

/-- One half of a pair word (R162): half opcode, destination and first source, second source, guard, immediate. -/
structure HalfOp where
  hop : BitVec 7
  vd : BitVec 6
  vs : BitVec 6
  gp : BitVec 3
  imm : BitVec 9
  deriving DecidableEq, Repr, Inhabited

/-- A pair word (R150): half A and half B. -/
structure PairOp where
  a : HalfOp
  b : HalfOp
  deriving DecidableEq, Repr, Inhabited

/-- The instructions of the opcode maps (R172, R174) and, after them, the steps a device takes without one
("What each step holds"): replies that land, engines that finish, the distributor's turns, packets, host requests.
The arguments of a step are what the machine does not decide itself: which record it is for, and what comes from
outside. -/
inductive Instr where
  | sadd (o : SRegs)
  | saddImm (o : SImm)
  | ssub (o : SRegs)
  | ssubImm (o : SImm)
  | smul (o : SRegs)
  | smulImm (o : SImm)
  | smulh (o : SRegs)
  | smulhImm (o : SImm)
  | sdiv (o : SRegs)
  | sdivImm (o : SImm)
  | sdivu (o : SRegs)
  | sdivuImm (o : SImm)
  | srem (o : SRegs)
  | sremImm (o : SImm)
  | sremu (o : SRegs)
  | sremuImm (o : SImm)
  | sand (o : SRegs)
  | sandImm (o : SImm)
  | sor (o : SRegs)
  | sorImm (o : SImm)
  | sxor (o : SRegs)
  | sxorImm (o : SImm)
  | sshl (o : SRegs)
  | sshlImm (o : SImm)
  | sshr (o : SRegs)
  | sshrImm (o : SImm)
  | ssra (o : SRegs)
  | ssraImm (o : SImm)
  | smin (o : SRegs)
  | sminImm (o : SImm)
  | sminu (o : SRegs)
  | sminuImm (o : SImm)
  | smax (o : SRegs)
  | smaxImm (o : SImm)
  | smaxu (o : SRegs)
  | smaxuImm (o : SImm)
  | smov (o : SOne)
  | smovi (o : SConst)
  | smovh (o : SConst)
  | slea (o : SLeaRegs)
  | sleaImm (o : SLeaImm)
  | sclz (o : SOne)
  | spopc (o : SOne)
  | ssel (o : SSelRegs)
  | sselImm (o : SSelImm)
  | sext (o : SExt)
  | sbfx (o : SBfx)
  | sbfi (o : SBfi)
  | scmp (o : SCmpRegs)
  | scmpImm (o : SCmpImm)
  | qand (o : QOp)
  | qor (o : QOp)
  | qxor (o : QOp)
  | vote (o : VoteOp)
  | pcount (o : PCountOp)
  | pmovToScalar (o : PCountOp)
  | pmovToPredicate (o : PMovToPred)
  | gsplit (o : WidthOp)
  | gfuse (o : WidthOp)
  | brq (o : BrqOp)
  | brv (o : BrvOp)
  | jmp (o : JmpOp)
  | jmpReg (o : JmpRegOp)
  | call (o : CallOp)
  | callReg (o : CallRegOp)
  | ret (o : RetOp)
  | loop (o : LoopOp)
  | jmpv (o : JmpvOp)
  | callv (o : CallvOp)
  | retv (o : RetvOp)
  | exit (o : ExitOp)
  | pblk (o : PblkOp)
  | ld (o : LdOp)
  | st (o : StOp)
  | lds (o : LdsOp)
  | sts (o : StsOp)
  | ldv (o : LdsOp)
  | stv (o : StsOp)
  | sld (o : SldOp)
  | sst (o : SstOp)
  | prefetch (o : PrefetchOp)
  | xadd (o : XaddOp)
  | xcvt (o : XcvtOp)
  | atomAdd (o : AtomOp)
  | atomSub (o : AtomOp)
  | atomMin (o : AtomOp)
  | atomMinu (o : AtomOp)
  | atomMax (o : AtomOp)
  | atomMaxu (o : AtomOp)
  | atomAnd (o : AtomOp)
  | atomOr (o : AtomOp)
  | atomXor (o : AtomOp)
  | atomExch (o : AtomOp)
  | atomCas (o : AtomOp)
  | atomInc (o : AtomOp)
  | atomDec (o : AtomOp)
  | atomFadd (o : AtomOp)
  | atomFmin (o : AtomOp)
  | atomFmax (o : AtomOp)
  | vadd (o : VTwo)
  | vsub (o : VTwo)
  | vmul (o : VTwo)
  | vmulh (o : VTwoU)
  | vmad (o : VThree)
  | vaddsat (o : VTwoU)
  | vsubsat (o : VTwoU)
  | vand (o : VTwo)
  | vor (o : VTwo)
  | vxor (o : VTwo)
  | vshl (o : VShift)
  | vshr (o : VShift)
  | vsra (o : VShift)
  | vmin (o : VTwoU)
  | vmax (o : VTwoU)
  | vabsd (o : VTwoU)
  | vaddmin (o : VThreeU)
  | vaddmax (o : VThreeU)
  | vsel (o : VSelOp)
  | vmov (o : VMovOp)
  | vmovi (o : VMoviOp)
  | vclz (o : VOne)
  | vpopc (o : VOne)
  | vbfx (o : VBfxOp)
  | vbfi (o : VBfiOp)
  | vprmt (o : VPrmtOp)
  | vidx (o : VIdxOp)
  | vcmp (o : VCmpOp)
  | fadd (o : FTwo)
  | fsub (o : FTwo)
  | fmul (o : FTwo)
  | ffma (o : FThree)
  | fmin (o : VTwo)
  | fmax (o : VTwo)
  | frcp (o : VOne)
  | frsq (o : VOne)
  | fsqrt (o : VOneRm)
  | fexp2 (o : VOne)
  | flog2 (o : VOne)
  | fsin (o : VOne)
  | fcos (o : VOne)
  | fcmp (o : VCmpOp)
  | fclass (o : FClassOp)
  | cvt (o : CvtOp)
  | pack (o : PackOp)
  | unpack (o : CvtOp)
  | vshuf (o : VShufOp)
  | vlsh (o : VLshOp)
  | vbcast (o : VBcastOp)
  | vred (o : VRedOp)
  | vscan (o : VScanOp)
  | npush (o : NPushOp)
  | npop (o : NPopOp)
  | spawn (o : SpawnOp)
  | mldw (o : MldwOp)
  | mswap
  | mstream (o : MstreamOp)
  | mdrain (o : MdrainOp)
  | mzero (o : MzeroOp)
  | mbatch (o : SdOp)
  | mwait (o : MwaitOp)
  | mstat (o : SdOp)
  | tdef (o : TdefOp)
  | tload (o : TloadOp)
  | tstore (o : TstoreOp)
  | trel (o : TileOp)
  | tstat (o : TstatOp)
  | finit (o : SaSbOp)
  | fexpect (o : SaSbOp)
  | fwait (o : FwaitOp)
  | binit (o : BinitOp)
  | barv (o : PointOp)
  | bwait (o : PointOp)
  | bsync (o : PointOp)
  | qinit (o : SaSbOp)
  | qpush (o : SaSbOp)
  | qpushRes (o : QResOp)
  | qpushCmt (o : QCmtOp)
  | qpop (o : SaSbOp)
  | qwait (o : SdSaOp)
  | qrel (o : SaOp)
  | fence (o : FenceOp)
  | xtpl (o : XtplOp)
  | xpost (o : SaSbOp)
  | xquery (o : XqueryOp)
  | cproto (o : SdSaOp)
  | copen (o : CopenOp)
  | cbind (o : CbindOp)
  | csend (o : CsendOp)
  | crecv (o : CrecvOp)
  | cdeleg (o : CdelegOp)
  | cclose (o : SaOp)
  | srd (o : SrdOp)
  | swr (o : SwrOp)
  | trap (o : ImmOp)
  | rett
  | brk (o : ImmOp)
  | nop
  | isync
  | iinv (o : IinvOp)
  | pnopre
  | ppre
  | chkerr (o : ChkerrOp)
  | launch (o : LaunchOp)
  | yield
  /-- A pair word (R162, R163). -/
  | pairWord (p : PairOp)
  /-- A word that holds no instruction (R175). -/
  | undefinedInstruction (w : Word)
  /-- The engine of a core takes up the matrix state of the team at the head of its queue (R263). -/
  | matrixTeamSwitch (core : Nat)
  /-- An MLDW finishes loading the shadow plane (R271). -/
  | mldwLoaded (core : Nat) (op : Nat)
  /-- The planes are exchanged (R267). -/
  | mswapTakesEffect (core : Nat) (op : Nat)
  /-- An MSTREAM has passed the array (R268). -/
  | mstreamPassed (core : Nat) (op : Nat)
  /-- A drain has written its last byte (R269). -/
  | mdrainDone (core : Nat) (op : Nat)
  /-- An accumulator is cleared in the engine (R271). -/
  | mzeroDone (core : Nat) (op : Nat)
  /-- A TLOAD delivers its last byte (R90); bit k of `early` set means that the k-th 16-byte piece was read at issue
  and not now (R128). -/
  | tloadCopyDone (id : Nat) (early : Nat)
  /-- Every byte of a TSTORE is performed (R250). -/
  | tstoreDone (id : Nat)
  /-- A deferred arrival is counted at its point (R45). -/
  | barvArrivalCounted (id : Nat)
  /-- A message reaches the home of its object, from a party of this device (`id`) or of another (`m`) (R283, R327). -/
  | convMessageAtHome (id : Nat) (m : ConvMsg)
  /-- The reply of an ordinary load or atomic arrives (R236); `evicted` means that the L1 no longer held the clean
  copies it touches. -/
  | loadReply (id : Nat) (evicted : Bool)
  /-- A store, fence or atomic of a team is performed and acknowledged (R56). -/
  | storeAcknowledged (id : Nat)
  /-- A coach arrives at the store of its anchor slice (R99). -/
  | coachAtAnchor (id : Nat)
  /-- The anchor slice has gathered every reply of a coach (R95). -/
  | coachAccessDone (id : Nat)
  /-- A returning coach lands (R241). -/
  | coachLanding (id : Nat)
  /-- A reflected coach lands (R99). -/
  | coachBounceLanding (id : Nat)
  /-- A coach returns with a fault status (R46). -/
  | coachFaultReturn (id : Nat)
  /-- A slice returns a coach with an uncorrectable header as a lost notice (R394). -/
  | coachLost (id : Nat)
  /-- A router finds an uncorrectable guard field (R394). -/
  | coachGuardFailure (id : Nat)
  /-- A landing-area image of a core is reseated (R100). -/
  | landingAreaReseat (core : Nat)
  /-- A group has waited 4,096 cycles for rows (R101). -/
  | reseatWaitExpiry (gid : Nat)
  /-- A source injects a train (R96). -/
  | odnTrainInject (src : Nat)
  /-- A train is delivered at its destination (R96). -/
  | odnTrainDelivered (id : Nat)
  /-- A home slice receives an owner notice (R80). -/
  | ownerNotice (id : Nat)
  /-- A write-back is performed at its home slice (R80). -/
  | writebackAtSlice (id : Nat)
  /-- A core is asked to write back a line, or evicts it (R80, R118). -/
  | writebackRequest (core : Nat) (line : Nat)
  /-- A core receives a promotion request (R119). -/
  | promotionRequest (id : Nat)
  /-- A slice receives a promotion acknowledgement (R119). -/
  | promotionAck (id : Nat)
  /-- A core receives the acknowledgement of a write-back (R118). -/
  | writebackAck (id : Nat)
  /-- A page walk ends (R85). -/
  | translationWalkDone (id : Nat)
  /-- A bin timer expires (R67). -/
  | spawnBinTimerExpiry (core : Nat) (bin : Nat)
  /-- A waiting bin launches its group (R68). -/
  | spawnBinLaunch (core : Nat) (bin : Nat)
  /-- A spawned group ends (R260). -/
  | spawnedGroupEnd (id : Nat)
  /-- The host writes LQTAIL of a queue (R54). -/
  | lqtailWrite (n : Nat) (v : Word)
  /-- LQCTL is written with EN = 1 (R52). -/
  | lqEnable (n : Nat) (v : Word)
  /-- LQCTL is written with EN = 0 (R52). -/
  | lqDisable (n : Nat) (v : Word)
  /-- LQCTL is written with RESUME = 1 (R51). -/
  | lqResume (n : Nat)
  /-- LQCTL is written with SKIP = 1 (R51). -/
  | lqSkip (n : Nat)
  /-- 1 is written to LQSTAT.CODE[0] (R53). -/
  | lqstatClear (n : Nat)
  /-- The record at the head of a queue is activated or rejected (R55). -/
  | launchActivation (n : Nat)
  /-- The distributor re-reads the dependences at the head of a queue (R55). -/
  | dependenceRecheck (n : Nat)
  /-- The distributor takes one placement turn (R57). -/
  | distributorTurn
  /-- A team retires (R56). -/
  | teamRetire (t : Nat)
  /-- The wait of the next team of a queue reaches 65,536 cycles (R59). -/
  | preemptionWaitExpiry (n : Nat)
  /-- A team is to be pre-empted (R71). -/
  | preemptionRequest (t : Nat)
  /-- A strand is still in its region 2^20 cycles after the request (R71). -/
  | preemptionHoldOverrun (gid : Nat) (strand : Nat)
  /-- The save of a team completes (R71). -/
  | saveComplete (t : Nat)
  /-- TCINV of a context is written (R87). -/
  | tcinvWrite (n : Nat) (v : Word)
  /-- The running invalidation of a context completes (R87). -/
  | tcinvComplete (n : Nat)
  /-- A BTE accepts a waiting post (R277). -/
  | btePostAccept (id : Nat)
  /-- A BTE serves its virtual queues and sends a cart (R316). -/
  | bteCartSend (g : Nat)
  /-- A post finishes (R277). -/
  | postFinish (id : Nat)
  /-- A confirmed write packet of another device is performed (R313). -/
  | remoteWritePacket (dev : Nat) (tag : Nat) (ctx : Nat) (runs : List (Word × Nat)) (data : List Byte) (rel : Bool)
  /-- An acknowledgement reaches a BTE (R313). -/
  | remoteWriteAck (g : Nat) (tag : Nat) (gen : Nat)
  /-- A read request of another device is served (R317). -/
  | remoteReadRequest (dev : Nat) (tag : Nat) (ctx : Nat) (runs : List (Word × Nat))
  /-- The data of a remote read, or the old value of a remote atomic, reaches a BTE (R317). -/
  | remoteReadReply (g : Nat) (tag : Nat) (gen : Nat) (data : List Byte)
  /-- An atomic of another device (`tag` above 0) or of this one is executed at its port (R319). -/
  | remoteAtomic (dev : Nat) (tag : Nat) (ctx : Nat) (va : Word) (op : Nat) (fmt : Nat) (opr : Word) (swap : Word)
  /-- A remote request times out (R425). -/
  | requestTimeout (g : Nat) (tag : Nat)
  /-- An answer of a stale generation arrives (R426). -/
  | lateAnswer (g : Nat) (tag : Nat) (gen : Nat)
  /-- A collective packet arrives at a port (R321). -/
  | collectivePacket (port : Nat) (m : CollMsg)
  /-- A collective instance completes on this member (R324). -/
  | collectiveInstanceComplete (ctx : Nat) (k : Nat)
  /-- A port receives a block of flits with its tag (R422). -/
  | flitBlockReceive (port : Nat) (vc : Nat) (flits : Nat) (pkts : Nat) (good : Bool)
  /-- A positive acknowledgement of the oldest block of a channel (R422). -/
  | blockAck (port : Nat) (vc : Nat)
  /-- A negative acknowledgement of the oldest block of a channel (R422). -/
  | blockNak (port : Nat) (vc : Nat)
  /-- No flit of a channel has waited for 128 cycles (R422). -/
  | blockCloseTimer (port : Nat) (vc : Nat)
  /-- A RUN port has sent nothing for 4,096 cycles (R422). -/
  | idleFlitTimer (port : Nat)
  /-- A tentative packet is confirmed on a hop (R423). -/
  | confirmMarker (port : Nat) (pkt : Nat)
  /-- A tentative packet is cancelled (R423). -/
  | cancelMarker (port : Nat) (pkt : Nat)
  /-- A port has seen no flit for 65,536 cycles (R424). -/
  | linkSilenceTimeout (port : Nat)
  /-- A discard notice of a packet reaches its BTE (R424). -/
  | discardNotice (g : Nat) (tag : Nat)
  /-- A member reports a fatal error (R427). -/
  | fatalReport (dev : Nat)
  /-- A view proposal arrives (R428). -/
  | propose (m : ViewMsg)
  /-- A member accepts the proposal of this coordinator (R428). -/
  | accept (dev : Nat)
  /-- A member rejects the proposal and names a lost device (R428). -/
  | reject (dev : Nat) (lost : Nat)
  /-- A member answers WAIT to a join proposal (R435). -/
  | wait (dev : Nat)
  /-- A member has not answered a proposal after 2^20 cycles (R428). -/
  | proposeAnswerTimeout (dev : Nat)
  /-- A view is committed (R428). -/
  | commit (m : ViewMsg)
  /-- A restarted device asks to join (R434). -/
  | join (dev : Nat)
  /-- VIEWNUM is written (R309). -/
  | viewnumWrite (v : Word)
  /-- FRPOS is written (R309). -/
  | frposWrite (v : Word)
  /-- A control register without a row of its own is written, by its offset in the control window (R12) or, from
  0x1000_0000 up, in the debug space (R367). -/
  | registerWrite (off : Nat) (v : Word)
  /-- Power is applied (R331); `seed` is the random seed of the boot (R340). -/
  | powerUp (seed : Word)
  /-- Power is removed (R331). -/
  | powerOff
  /-- Ports write CLAIM, all in one cycle (R336, R348). -/
  | claim (ports : List Nat)
  /-- The owner of the boot writes GO (R336). -/
  | go (port : Nat)
  /-- The verification of the staged image ends (R337). -/
  | bootVerifyDone
  /-- A host access (R334): to DRAM or to the control window, its address or offset, and the value written or, of an answer,
  read. -/
  | hostControlAccess (via : HostRoute) (dram write : Bool) (addr : Nat) (v : Word)
  /-- SPDM GET_VERSION (R342). -/
  | getVersion (port : Nat)
  /-- SPDM GET_CAPABILITIES (R342). -/
  | getCapabilities (port : Nat)
  /-- SPDM NEGOTIATE_ALGORITHMS (R342). -/
  | negotiateAlgorithms (offer : SpdmOffer)
  /-- SPDM GET_DIGESTS (R342). -/
  | getDigests (port : Nat)
  /-- SPDM GET_CERTIFICATE (R342). -/
  | getCertificate (port : Nat) (slot : Nat)
  /-- SPDM CHALLENGE (R342). -/
  | challenge (port : Nat) (slot : Nat) (nonce : List Byte)
  /-- SPDM GET_MEASUREMENTS (R342). -/
  | getMeasurements (port : Nat) (index : Nat) (nonce : List Byte)
  /-- SPDM KEY_EXCHANGE (R342). -/
  | keyExchange (port : Nat) (share : List Byte)
  /-- SPDM FINISH (R342); `good` is whether its verify data is right. -/
  | finish (port : Nat) (good : Bool)
  /-- SPDM END_SESSION (R344). -/
  | endSession (port : Nat)
  /-- A request of a peer to firmware in its session (R343, R367, R401, R420). -/
  | vendorDefinedRequest (port : Nat) (r : PeerRequest)
  /-- Firmware extends a measurement register (R339). -/
  | mrExtend (k : Nat) (x : List Byte)
  /-- PLCMD CONFIG (R344). -/
  | config (port : Nat)
  /-- PLCMD LOCK (R344). -/
  | lock (port : Nat)
  /-- PLCMD START (R344). -/
  | start (port : Nat)
  /-- PLCMD STOP (R344). -/
  | stop (port : Nat)
  /-- PLCMD RESET (R344). -/
  | reset (port : Nat)
  /-- PLCFG (reg 0) or PLQMASK (reg 1) of a port is written (R344). -/
  | portConfigWrite (port : Nat) (reg : Nat) (v : Word)
  /-- The security block meets a condition of a level (R437). -/
  | securityAlarm (level : Nat)
  /-- The junction reaches 100 degrees (R347). -/
  | junction100C
  /-- The junction reaches 110 degrees (R347). -/
  | junction110C
  /-- Firmware starts the test of a cluster (R365). -/
  | inFieldTest (g : Nat)
  /-- A forced check point of a team is taken (R412). -/
  | checkPoint (t : Nat)
  /-- An armed injection fires (R420). -/
  | injectionFire (k : Nat)
  /-- A member reports its link to a device down (R427). -/
  | linkDownReport (dev : Nat) (peer : Nat)
  /-- A collective packet comes back refused (R321). -/
  | refusedCollectivePacket (g : Nat) (pkt : Nat)
  /-- The test of a cluster ends (R365). -/
  | inFieldTestEnd (g : Nat)
  deriving DecidableEq, Repr, Inhabited

end Sys2Proof
end

