-- ==== Sys2Proof/WellFormed.lean ====
section
/-!
DEFINITION. Which operand values the encodings admit: the field values that R175 calls reserved, one check each.

A register beyond the group's declaration (R164) depends on the group and is checked when the word issues.
-/

namespace Sys2Proof

/-- A scalar second source of a V-format word is s0 to s127: vb[7] is 0 when vbs is 1 (R152). -/
def vbsOk (vbs : BitVec 1) (vb : BitVec 8) : Bool := vbs == 0#1 || vb.toNat < 128

/-- Scope code 7 is reserved (R107). -/
def scopeOk (s : BitVec 3) : Bool := s != 7#3

/-- Sizes 5 to 7 are reserved (R157). -/
def sizeOk (n : BitVec 3) : Bool := n.toNat < 5

/-- A scalar access has no 128-bit form (R157). -/
def scalarSizeOk (n : BitVec 3) : Bool := n.toNat < 4

/-- An atomic takes 32 or 64 bits (R242). -/
def atomSizeOk (n : BitVec 3) : Bool := n == 2#3 || n == 3#3

/-- A load is relaxed (0) or acquire (1) (R108). -/
def loadOrdOk (o : BitVec 2) : Bool := o.toNat < 2

/-- A store is relaxed (0) or release (2) (R108). -/
def storeOrdOk (o : BitVec 2) : Bool := o == 0#2 || o == 2#2

/-- Cache hints 4 to 7 are reserved (R157). -/
def hintOk (h : BitVec 3) : Bool := h.toNat < 4

/-- Address spaces 3 to 7 of an atomic are reserved (R157). -/
def spaceOk (h : BitVec 3) : Bool := h.toNat < 3

/-- The registers that hold one lane's data, by size (R234). -/
def dataRegs (size : BitVec 3) : Nat :=
  match size.toNat with
  | 3 => 2
  | 4 => 4
  | _ => 1

/-- Parking needs an escort (R157), and an escort range stays within v255 and clear of the `k` registers from vd
that the word reads as data or writes (R240). -/
def escortOk (eb : BitVec 8) (ec : BitVec 4) (pk : BitVec 1) (vd : BitVec 8) (k : Nat) : Bool :=
  if ec == 0#4 then pk == 0#1
  else decide (eb.toNat + ec.toNat ≤ 256) &&
    (decide (vd.toNat + k ≤ eb.toNat) || decide (eb.toNat + ec.toNat ≤ vd.toNat))

/-- SCMP relations 12 to 15 are reserved (R186). -/
def srelOk (r : BitVec 4) : Bool := r.toNat < 12

/-- VCMP and FCMP relations 8 to 15 are reserved (R156). -/
def relOk (r : BitVec 4) : Bool := r.toNat < 8

/-- A compare's two destinations differ unless both are p0 (R168). -/
def predsOk (a b : BitVec 3) : Bool := a != b || a == 0#3

/-- GSPLIT and GFUSE take split code 1 or 2 (R203). -/
def splitOk (c : BitVec 2) : Bool := c == 1#2 || c == 2#2

/-- A PBLK pattern has no bit at or above the count (R161). -/
def patOk (cnt : BitVec 3) (pat : BitVec 8) : Bool := decide (pat.toNat < 2 ^ (cnt.toNat + 1))

/-- A shift's count is an immediate (with no second source) or a source (with no immediate) (R209). -/
def shiftOk (imm : BitVec 1) (cnt : BitVec 5) (vb : BitVec 8) (vbs fb : BitVec 1) : Bool :=
  if imm == 1#1 then vb == 0#8 && vbs == 0#1 && fb == 0#1 else cnt == 0#5 && vbsOk vbs vb

/-- VPRMT has a control register or a control immediate (R212). -/
def prmtOk (i : BitVec 1) (ctl : BitVec 12) (vc : BitVec 8) (fc : BitVec 1) : Bool :=
  if i == 1#1 then vc == 0#8 && fc == 0#1 else ctl == 0#12

/-- Element format codes 14 and 15 are reserved (R154). -/
def fmtOk (f : BitVec 4) : Bool := f.toNat < 14

/-- The formats a block scale applies to: E4M3, E5M2 and LNS6 (R142). -/
def fmtScaled (f : BitVec 4) : Bool := f == 11#4 || f == 12#4 || f == 13#4

/-- The formats of 8 bits (R219). -/
def fmtByte (f : BitVec 4) : Bool := f.toNat < 2 || fmtScaled f

/-- The formats of 16 bits. -/
def fmtHalf (f : BitVec 4) : Bool := f == 2#4 || f == 3#4 || f == 9#4 || f == 10#4

/-- FP32, INT32 or UINT32. -/
def fmtFull (f : BitVec 4) : Bool := f == 4#4 || f == 5#4 || f == 8#4

/-- An unscaled conversion names no scale register and no byte of it (R220). -/
def unscaledOk (s : BitVec 1) (sel : BitVec 2) (r : BitVec 8) (m : BitVec 1) : Bool :=
  s == 1#1 || (sel == 0#2 && r == 0#8 && m == 0#1)

/-- CVT: known formats, and with S = 1 exactly one scaled side (R220). -/
def cvtOk (dst src : BitVec 4) (s : BitVec 1) (sel : BitVec 2) (r : BitVec 8) (m : BitVec 1) : Bool :=
  fmtOk dst && fmtOk src && unscaledOk s sel r m && (s == 0#1 || (fmtScaled dst != fmtScaled src))

/-- PACK: a full-width source, a narrow destination, `k` only for a byte destination (R221). -/
def packOk (dst src : BitVec 4) (s k : BitVec 1) (sel : BitVec 2) (r : BitVec 8) (m : BitVec 1) : Bool :=
  fmtFull src && (fmtByte dst || fmtHalf dst) && (k == 0#1 || fmtByte dst) && unscaledOk s sel r m &&
    (s == 0#1 || fmtScaled dst)

/-- UNPACK: a narrow source and a full-width destination (R222). -/
def unpackOk (dst src : BitVec 4) (s : BitVec 1) (sel : BitVec 2) (r : BitVec 8) (m : BitVec 1) : Bool :=
  fmtFull dst && (fmtByte src || fmtHalf src) && unscaledOk s sel r m && (s == 0#1 || fmtScaled src)

/-- VLSH: fill and rotation exclude each other, and each operand is present once (R225). -/
def lshOk (rot f : BitVec 1) (k vb : BitVec 8) (vbs fb : BitVec 1) (vc : BitVec 8) (fc : BitVec 1) : Bool :=
  !(rot == 1#1 && f == 1#1) &&
  (if vbs == 1#1 then k == 0#8 else vb == 0#8 && fb == 0#1) &&
  (if f == 1#1 then vc.toNat < 128 else vc == 0#8 && fc == 0#1)

/-- VBCAST: the lane is an immediate or a scalar (R226). -/
def bcastOk (j : BitVec 6) (vb : BitVec 8) (vbs fb : BitVec 1) : Bool :=
  if vbs == 1#1 then j == 0#6 else vb == 0#8 && fb == 0#1

/-- VRED and VSCAN: operators 11 to 15 are reserved, and only fadd takes mod bits (R227). -/
def redOk (op : BitVec 4) (rm : BitVec 2) (sat : BitVec 1) : Bool :=
  op.toNat < 11 && (op == 8#4 || (rm == 0#2 && sat == 0#1))

/-- The formats of a rate group (R265). -/
def rateOk (f : BitVec 4) : Bool := f.toNat < 2 || f == 9#4 || f == 10#4 || fmtScaled f

/-- A scale run is only for a scaled format (R265). -/
def scaleOk (s : BitVec 1) (f : BitVec 4) : Bool := s == 0#1 || fmtScaled f

/-- MDRAIN takes codes 0 to 5 and 8 to 13 (R269). -/
def drainFmtOk (f : BitVec 4) : Bool := f.toNat < 6 || (8 ≤ f.toNat && f.toNat < 14)

/-- Rendezvous points are b0 to b23 (R160). -/
def pointOk (b : BitVec 5) : Bool := b.toNat < 24

/-- CSEND carries at most 8 payload words, and reads no payload register when n is 0 (R283, R165). -/
def sendOk (n : BitVec 4) (fb : BitVec 1) : Bool := n.toNat < 9 && (n != 0#4 || fb == 0#1)

/-- The index range of a class of machine state (R288). -/
def srIndexOk (cls : BitVec 5) (idx : BitVec 8) : Bool :=
  match cls.toNat with
  | 0 => idx.toNat < 21
  | 1 => true
  | 2 => idx.toNat < 128
  | 3 => idx.toNat < 6
  | 4 => idx.toNat < 16
  | 5 => idx.toNat < 5
  | 6 => idx.toNat < 24
  | 7 => idx.toNat < 64
  | 8 => idx.toNat < 4
  | 9 => idx.toNat < 32
  | _ => false

/-- Classes 0, 2, 3 and 4 use no s(sa) (R288). -/
def srSourceOk (cls : BitVec 5) (sa : BitVec 7) (fa : BitVec 1) : Bool :=
  !(cls == 0#5 || cls == 2#5 || cls == 3#5 || cls == 4#5) || (sa == 0#7 && fa == 0#1)

/-- SRD: the vector form reads class 0 only, and sr.laneid and sr.teamlane have only the vector form (R286, R288). -/
def srdOk (v : BitVec 1) (cls : BitVec 5) (idx : BitVec 8) (sa : BitVec 7) (fa : BitVec 1) : Bool :=
  srIndexOk cls idx && srSourceOk cls sa fa &&
    (if v == 1#1 then cls == 0#5 else !(cls == 0#5 && idx.toNat < 2))

/-- SWR: a class, an index and a source within range (R288). -/
def swrOk (cls : BitVec 5) (idx : BitVec 8) (sa : BitVec 7) (fa : BitVec 1) : Bool :=
  srIndexOk cls idx && srSourceOk cls sa fa

/-- The half opcodes that R174 assigns. -/
def halfAssigned (h : BitVec 7) : Bool :=
  let n := h.toNat
  n < 14 || n == 0x11 || (0x13 ≤ n && n < 0x1A) || n == 0x1B || n == 0x1D || (0x20 ≤ n && n < 0x24)

/-- The immediate-form half opcodes (R174). -/
def halfImm (h : BitVec 7) : Bool := 0x10 ≤ h.toNat && h.toNat < 0x20

/-- The field rules of one half (R162, R377). -/
def halfOk (h : HalfOp) : Bool :=
  if h.hop == 0#7 then h.vd == 0#6 && h.vs == 0#6 && h.gp == 0#3 && h.imm == 0#9
  else if halfImm h.hop then
    h.vs == 0#6 && (!(0x16 ≤ h.hop.toNat && h.hop.toNat < 0x19) || h.imm.toNat < 32)
  else h.imm == 0#9

/-- The banks a half names (R163). -/
def halfBanks (h : HalfOp) : List Nat :=
  if h.hop == 0#7 then []
  else if halfImm h.hop then [h.vd.toNat % 4]
  else [h.vd.toNat % 4, h.vs.toNat % 4]

/-- The bank rule: the banks of the two halves are disjoint (R163). -/
def banksDisjoint (p : PairOp) : Bool := (halfBanks p.a).all fun x => !(halfBanks p.b).contains x

/-- A pair word that issues: assigned halves, the field rules of each, disjoint banks. -/
def pairOk (p : PairOp) : Bool :=
  halfAssigned p.a.hop && halfAssigned p.b.hop && halfOk p.a && halfOk p.b && banksDisjoint p

/-- Every operand of the instruction is at a value its encoding admits. -/
def Instr.wf (i : Instr) : Bool :=
  match i with
  | .sadd _ => true
  | .saddImm _ => true
  | .ssub _ => true
  | .ssubImm _ => true
  | .smul _ => true
  | .smulImm _ => true
  | .smulh _ => true
  | .smulhImm _ => true
  | .sdiv _ => true
  | .sdivImm _ => true
  | .sdivu _ => true
  | .sdivuImm _ => true
  | .srem _ => true
  | .sremImm _ => true
  | .sremu _ => true
  | .sremuImm _ => true
  | .sand _ => true
  | .sandImm _ => true
  | .sor _ => true
  | .sorImm _ => true
  | .sxor _ => true
  | .sxorImm _ => true
  | .sshl _ => true
  | .sshlImm _ => true
  | .sshr _ => true
  | .sshrImm _ => true
  | .ssra _ => true
  | .ssraImm _ => true
  | .smin _ => true
  | .sminImm _ => true
  | .sminu _ => true
  | .sminuImm _ => true
  | .smax _ => true
  | .smaxImm _ => true
  | .smaxu _ => true
  | .smaxuImm _ => true
  | .smov _ => true
  | .smovi _ => true
  | .smovh _ => true
  | .slea _ => true
  | .sleaImm _ => true
  | .sclz _ => true
  | .spopc _ => true
  | .ssel _ => true
  | .sselImm _ => true
  | .sext _ => true
  | .sbfx _ => true
  | .sbfi _ => true
  | .scmp o => srelOk o.rel
  | .scmpImm o => srelOk o.rel
  | .qand _ => true
  | .qor _ => true
  | .qxor _ => true
  | .vote o => o.mode != 3#2
  | .pcount _ => true
  | .pmovToScalar _ => true
  | .pmovToPredicate _ => true
  | .gsplit o => splitOk o.code
  | .gfuse o => splitOk o.code
  | .brq _ => true
  | .brv o => o.rcv != 0#16
  | .jmp _ => true
  | .jmpReg _ => true
  | .call _ => true
  | .callReg _ => true
  | .ret _ => true
  | .loop _ => true
  | .jmpv o => o.rcv != 0#12
  | .callv _ => true
  | .retv _ => true
  | .exit _ => true
  | .pblk o => patOk o.cnt o.pat
  | .ld o => sizeOk o.size && scopeOk o.scope && loadOrdOk o.ord && hintOk o.hint && escortOk o.eb o.ec o.pk o.vd (dataRegs o.size)
  | .st o => sizeOk o.size && scopeOk o.scope && storeOrdOk o.ord && hintOk o.hint
  | .lds o => sizeOk o.size && scopeOk o.scope && loadOrdOk o.ord
  | .sts o => sizeOk o.size && scopeOk o.scope && storeOrdOk o.ord
  | .ldv o => sizeOk o.size && scopeOk o.scope && loadOrdOk o.ord
  | .stv o => sizeOk o.size && scopeOk o.scope && storeOrdOk o.ord
  | .sld o => scalarSizeOk o.size && scopeOk o.scope && loadOrdOk o.ord
  | .sst o => scalarSizeOk o.size && scopeOk o.scope && storeOrdOk o.ord
  | .prefetch o => hintOk o.hint
  | .xadd o => scopeOk o.scope
  | .xcvt o => scopeOk o.scope && loadOrdOk o.ord
  | .atomAdd o => atomSizeOk o.size && scopeOk o.scope && spaceOk o.space && escortOk o.eb o.ec o.pk o.vd (dataRegs o.size)
  | .atomSub o => atomSizeOk o.size && scopeOk o.scope && spaceOk o.space && escortOk o.eb o.ec o.pk o.vd (dataRegs o.size)
  | .atomMin o => atomSizeOk o.size && scopeOk o.scope && spaceOk o.space && escortOk o.eb o.ec o.pk o.vd (dataRegs o.size)
  | .atomMinu o => atomSizeOk o.size && scopeOk o.scope && spaceOk o.space && escortOk o.eb o.ec o.pk o.vd (dataRegs o.size)
  | .atomMax o => atomSizeOk o.size && scopeOk o.scope && spaceOk o.space && escortOk o.eb o.ec o.pk o.vd (dataRegs o.size)
  | .atomMaxu o => atomSizeOk o.size && scopeOk o.scope && spaceOk o.space && escortOk o.eb o.ec o.pk o.vd (dataRegs o.size)
  | .atomAnd o => atomSizeOk o.size && scopeOk o.scope && spaceOk o.space && escortOk o.eb o.ec o.pk o.vd (dataRegs o.size)
  | .atomOr o => atomSizeOk o.size && scopeOk o.scope && spaceOk o.space && escortOk o.eb o.ec o.pk o.vd (dataRegs o.size)
  | .atomXor o => atomSizeOk o.size && scopeOk o.scope && spaceOk o.space && escortOk o.eb o.ec o.pk o.vd (dataRegs o.size)
  | .atomExch o => atomSizeOk o.size && scopeOk o.scope && spaceOk o.space && escortOk o.eb o.ec o.pk o.vd (dataRegs o.size)
  | .atomCas o => atomSizeOk o.size && scopeOk o.scope && spaceOk o.space && escortOk o.eb o.ec o.pk o.vd (2 * dataRegs o.size)
  | .atomInc o => atomSizeOk o.size && scopeOk o.scope && spaceOk o.space && escortOk o.eb o.ec o.pk o.vd (dataRegs o.size)
  | .atomDec o => atomSizeOk o.size && scopeOk o.scope && spaceOk o.space && escortOk o.eb o.ec o.pk o.vd (dataRegs o.size)
  | .atomFadd o => o.size == 2#3 && scopeOk o.scope && spaceOk o.space && escortOk o.eb o.ec o.pk o.vd (dataRegs o.size)
  | .atomFmin o => o.size == 2#3 && scopeOk o.scope && spaceOk o.space && escortOk o.eb o.ec o.pk o.vd (dataRegs o.size)
  | .atomFmax o => o.size == 2#3 && scopeOk o.scope && spaceOk o.space && escortOk o.eb o.ec o.pk o.vd (dataRegs o.size)
  | .vadd o => vbsOk o.vbs o.vb
  | .vsub o => vbsOk o.vbs o.vb
  | .vmul o => vbsOk o.vbs o.vb
  | .vmulh o => vbsOk o.vbs o.vb
  | .vmad o => vbsOk o.vbs o.vb
  | .vaddsat o => vbsOk o.vbs o.vb
  | .vsubsat o => vbsOk o.vbs o.vb
  | .vand o => vbsOk o.vbs o.vb
  | .vor o => vbsOk o.vbs o.vb
  | .vxor o => vbsOk o.vbs o.vb
  | .vshl o => shiftOk o.imm o.cnt o.vb o.vbs o.fb
  | .vshr o => shiftOk o.imm o.cnt o.vb o.vbs o.fb
  | .vsra o => shiftOk o.imm o.cnt o.vb o.vbs o.fb
  | .vmin o => vbsOk o.vbs o.vb
  | .vmax o => vbsOk o.vbs o.vb
  | .vabsd o => vbsOk o.vbs o.vb
  | .vaddmin o => vbsOk o.vbs o.vb
  | .vaddmax o => vbsOk o.vbs o.vb
  | .vsel o => vbsOk o.vbs o.vb
  | .vmov o => vbsOk o.vbs o.vb
  | .vmovi _ => true
  | .vclz _ => true
  | .vpopc _ => true
  | .vbfx _ => true
  | .vbfi _ => true
  | .vprmt o => vbsOk o.vbs o.vb && prmtOk o.i o.ctl o.vc o.fc
  | .vidx o => vbsOk o.vbs o.vb
  | .vcmp o => vbsOk o.vbs o.vb && predsOk o.pd1 o.pd2 && relOk o.rel && o.ctyp.toNat < 2
  | .fadd o => vbsOk o.vbs o.vb
  | .fsub o => vbsOk o.vbs o.vb
  | .fmul o => vbsOk o.vbs o.vb
  | .ffma o => vbsOk o.vbs o.vb
  | .fmin o => vbsOk o.vbs o.vb
  | .fmax o => vbsOk o.vbs o.vb
  | .frcp _ => true
  | .frsq _ => true
  | .fsqrt _ => true
  | .fexp2 _ => true
  | .flog2 _ => true
  | .fsin _ => true
  | .fcos _ => true
  | .fcmp o => vbsOk o.vbs o.vb && predsOk o.pd1 o.pd2 && relOk o.rel && o.ctyp.toNat < 3
  | .fclass o => predsOk o.pd1 o.pd2 && o.ty != 3#2
  | .cvt o => cvtOk o.dst o.src o.s o.sel o.vb o.fb
  | .pack o => vbsOk o.vbs o.vb && packOk o.dst o.src o.s o.k o.sel o.vc o.fc
  | .unpack o => unpackOk o.dst o.src o.s o.sel o.vb o.fb
  | .vshuf o => vbsOk o.vbs o.vb
  | .vlsh o => vbsOk o.vbs o.vb && lshOk o.rot o.f o.k o.vb o.vbs o.fb o.vc o.fc
  | .vbcast o => vbsOk o.vbs o.vb && bcastOk o.j o.vb o.vbs o.fb
  | .vred o => redOk o.op o.rm o.sat && (o.d == 0#1 || o.vd.toNat < 128)
  | .vscan o => redOk o.op o.rm o.sat
  | .npush _ => true
  | .npop _ => true
  | .spawn o => o.vb.toNat < 127
  | .mldw o => rateOk o.fmt && scaleOk o.s o.fmt
  | .mswap => true
  | .mstream o => rateOk o.fmt && scaleOk o.s o.fmt
  | .mdrain o => drainFmtOk o.fmt
  | .mzero _ => true
  | .mbatch _ => true
  | .mwait o => if o.imm == 1#1 then o.sa == 0#7 && o.fa == 0#1 else o.n == 0#8
  | .mstat _ => true
  | .tdef _ => true
  | .tload o => o.tr != 3#2
  | .tstore _ => true
  | .trel _ => true
  | .tstat _ => true
  | .finit _ => true
  | .fexpect _ => true
  | .fwait o => if o.reg == 1#1 then o.ph == 0#1 else o.sb == 0#7 && o.fb == 0#1
  | .binit o => pointOk o.b && scopeOk o.scope
  | .barv o => pointOk o.b
  | .bwait o => pointOk o.b
  | .bsync o => pointOk o.b
  | .qinit _ => true
  | .qpush _ => true
  | .qpushRes _ => true
  | .qpushCmt _ => true
  | .qpop _ => true
  | .qwait _ => true
  | .qrel _ => true
  | .fence o => o.ord != 0#2 && scopeOk o.scope
  | .xtpl _ => true
  | .xpost _ => true
  | .xquery _ => true
  | .cproto _ => true
  | .copen _ => true
  | .cbind _ => true
  | .csend o => sendOk o.n o.fb
  | .crecv _ => true
  | .cdeleg _ => true
  | .cclose _ => true
  | .srd o => srdOk o.v o.cls o.idx o.sa o.fa
  | .swr o => swrOk o.cls o.idx o.sa o.fa
  | .trap _ => true
  | .rett => true
  | .brk _ => true
  | .nop => true
  | .isync => true
  | .iinv o => scopeOk o.scope
  | .pnopre => true
  | .ppre => true
  | .chkerr _ => true
  | .launch _ => true
  | .yield => true
  | .pairWord p => pairOk p
  | .undefinedInstruction _ => true
  | .matrixTeamSwitch _ => true
  | .mldwLoaded _ _ => true
  | .mswapTakesEffect _ _ => true
  | .mstreamPassed _ _ => true
  | .mdrainDone _ _ => true
  | .mzeroDone _ _ => true
  | .tloadCopyDone _ _ => true
  | .tstoreDone _ => true
  | .barvArrivalCounted _ => true
  | .convMessageAtHome _ _ => true
  | .loadReply _ _ => true
  | .storeAcknowledged _ => true
  | .coachAtAnchor _ => true
  | .coachAccessDone _ => true
  | .coachLanding _ => true
  | .coachBounceLanding _ => true
  | .coachFaultReturn _ => true
  | .coachLost _ => true
  | .coachGuardFailure _ => true
  | .landingAreaReseat _ => true
  | .reseatWaitExpiry _ => true
  | .odnTrainInject _ => true
  | .odnTrainDelivered _ => true
  | .ownerNotice _ => true
  | .writebackAtSlice _ => true
  | .writebackRequest _ _ => true
  | .promotionRequest _ => true
  | .promotionAck _ => true
  | .writebackAck _ => true
  | .translationWalkDone _ => true
  | .spawnBinTimerExpiry _ _ => true
  | .spawnBinLaunch _ _ => true
  | .spawnedGroupEnd _ => true
  | .lqtailWrite _ _ => true
  | .lqEnable _ _ => true
  | .lqDisable _ _ => true
  | .lqResume _ => true
  | .lqSkip _ => true
  | .lqstatClear _ => true
  | .launchActivation _ => true
  | .dependenceRecheck _ => true
  | .distributorTurn => true
  | .teamRetire _ => true
  | .preemptionWaitExpiry _ => true
  | .preemptionRequest _ => true
  | .preemptionHoldOverrun _ _ => true
  | .saveComplete _ => true
  | .tcinvWrite _ _ => true
  | .tcinvComplete _ => true
  | .btePostAccept _ => true
  | .bteCartSend _ => true
  | .postFinish _ => true
  | .remoteWritePacket _ _ _ _ _ _ => true
  | .remoteWriteAck _ _ _ => true
  | .remoteReadRequest _ _ _ _ => true
  | .remoteReadReply _ _ _ _ => true
  | .remoteAtomic _ _ _ _ _ _ _ _ => true
  | .requestTimeout _ _ => true
  | .lateAnswer _ _ _ => true
  | .collectivePacket _ _ => true
  | .collectiveInstanceComplete _ _ => true
  | .flitBlockReceive _ _ _ _ _ => true
  | .blockAck _ _ => true
  | .blockNak _ _ => true
  | .blockCloseTimer _ _ => true
  | .idleFlitTimer _ => true
  | .confirmMarker _ _ => true
  | .cancelMarker _ _ => true
  | .linkSilenceTimeout _ => true
  | .discardNotice _ _ => true
  | .fatalReport _ => true
  | .propose _ => true
  | .accept _ => true
  | .reject _ _ => true
  | .wait _ => true
  | .proposeAnswerTimeout _ => true
  | .commit _ => true
  | .join _ => true
  | .viewnumWrite _ => true
  | .frposWrite _ => true
  | .registerWrite _ _ => true
  | .powerUp _ => true
  | .powerOff => true
  | .claim _ => true
  | .go _ => true
  | .bootVerifyDone => true
  | .hostControlAccess _ _ _ _ _ => true
  | .getVersion _ => true
  | .getCapabilities _ => true
  | .negotiateAlgorithms _ => true
  | .getDigests _ => true
  | .getCertificate _ _ => true
  | .challenge _ _ _ => true
  | .getMeasurements _ _ _ => true
  | .keyExchange _ _ => true
  | .finish _ _ => true
  | .endSession _ => true
  | .vendorDefinedRequest _ _ => true
  | .mrExtend _ _ => true
  | .config _ => true
  | .lock _ => true
  | .start _ => true
  | .stop _ => true
  | .reset _ => true
  | .portConfigWrite _ _ _ => true
  | .securityAlarm _ => true
  | .junction100C => true
  | .junction110C => true
  | .inFieldTest _ => true
  | .checkPoint _ => true
  | .injectionFire _ => true
  | .linkDownReport _ _ => true
  | .refusedCollectivePacket _ _ => true
  | .inFieldTestEnd _ => true

end Sys2Proof
end

