-- ==== Sys2Proof/Decode.lean ====
section
/-!
DEFINITION. Decoding and encoding instruction words (R150 to R176).

`decode` reads any 64-bit word. A word whose opcode is unassigned reads as the undefined instruction (R175); a word
with a reserved or unused field set is rejected, and so is a pair word that breaks the bank rule.
-/

namespace Sys2Proof

/-- Why a word is not an instruction (R175): a reserved field, or the bank rule of a pair word. The pair is kept,
because its registers are checked against the declaration before the bank rule (R176). -/
inductive Reject where
  | reservedField
  | illegalPairing (p : PairOp)
  deriving DecidableEq, Repr

/-- Bits [lo + n - 1 : lo] of a word. -/
def fld (w : Word) (lo n : Nat) : BitVec n := w.extractLsb' lo n

/-- The fields at (lo, width) hold the stated values: 0 for reserved and unused fields (R175). -/
def fieldsAre (w : Word) (l : List (Nat × Nat × Nat)) : Bool :=
  l.all fun p => (w.extractLsb' p.1 p.2.1).toNat == p.2.2

/-- Accept a candidate when the word's other fields are as required and every operand is admitted. -/
def accept (ok : Bool) (i : Instr) : Except Reject Instr :=
  if ok && i.wf then .ok i else .error .reservedField

/-- The fields of SRegs. -/
def readSRegs (w : Word) : SRegs :=
  { sd := fld w 48 7, sa := fld w 41 7, sb := fld w 34 7, fa := fld w 33 1, fb := fld w 32 1 }

/-- The bits of the word that SRegs does not hold. -/
def restSRegs (w : Word) : Bool := fieldsAre w [(0, 32, 0)]

/-- The fields of SImm. -/
def readSImm (w : Word) : SImm :=
  { sd := fld w 48 7, sa := fld w 41 7, fa := fld w 33 1, imm := fld w 0 32 }

/-- The bits of the word that SImm does not hold. -/
def restSImm (w : Word) : Bool := fieldsAre w [(32, 1, 0), (34, 7, 0)]

/-- The fields of SOne. -/
def readSOne (w : Word) : SOne :=
  { sd := fld w 48 7, sa := fld w 41 7, fa := fld w 33 1 }

/-- The bits of the word that SOne does not hold. -/
def restSOne (w : Word) : Bool := fieldsAre w [(0, 33, 0), (34, 7, 0)]

/-- The fields of SConst. -/
def readSConst (w : Word) : SConst :=
  { sd := fld w 48 7, imm := fld w 0 32 }

/-- The bits of the word that SConst does not hold. -/
def restSConst (w : Word) : Bool := fieldsAre w [(32, 16, 0)]

/-- The fields of SLeaRegs. -/
def readSLeaRegs (w : Word) : SLeaRegs :=
  { sd := fld w 48 7, sa := fld w 41 7, sb := fld w 34 7, fa := fld w 33 1, fb := fld w 32 1, sh := fld w 0 3 }

/-- The bits of the word that SLeaRegs does not hold. -/
def restSLeaRegs (w : Word) : Bool := fieldsAre w [(3, 29, 0)]

/-- The fields of SLeaImm. -/
def readSLeaImm (w : Word) : SLeaImm :=
  { sd := fld w 48 7, sa := fld w 41 7, fa := fld w 33 1, disp := fld w 3 29, sh := fld w 0 3 }

/-- The bits of the word that SLeaImm does not hold. -/
def restSLeaImm (w : Word) : Bool := fieldsAre w [(32, 1, 0), (34, 7, 0)]

/-- The fields of SSelRegs. -/
def readSSelRegs (w : Word) : SSelRegs :=
  { sd := fld w 48 7, sa := fld w 41 7, sb := fld w 34 7, fa := fld w 33 1, fb := fld w 32 1, q := fld w 0 3 }

/-- The bits of the word that SSelRegs does not hold. -/
def restSSelRegs (w : Word) : Bool := fieldsAre w [(3, 29, 0)]

/-- The fields of SSelImm. -/
def readSSelImm (w : Word) : SSelImm :=
  { sd := fld w 48 7, sa := fld w 41 7, fa := fld w 33 1, imm := fld w 3 29, q := fld w 0 3 }

/-- The bits of the word that SSelImm does not hold. -/
def restSSelImm (w : Word) : Bool := fieldsAre w [(32, 1, 0), (34, 7, 0)]

/-- The fields of SExt. -/
def readSExt (w : Word) : SExt :=
  { sd := fld w 48 7, sa := fld w 41 7, fa := fld w 33 1, u := fld w 6 1, n1 := fld w 0 6 }

/-- The bits of the word that SExt does not hold. -/
def restSExt (w : Word) : Bool := fieldsAre w [(7, 26, 0), (34, 7, 0)]

/-- The fields of SBfx. -/
def readSBfx (w : Word) : SBfx :=
  { sd := fld w 48 7, sa := fld w 41 7, fa := fld w 33 1, s := fld w 16 1, n1 := fld w 8 6, lo := fld w 0 6 }

/-- The bits of the word that SBfx does not hold. -/
def restSBfx (w : Word) : Bool := fieldsAre w [(6, 2, 0), (14, 2, 0), (17, 16, 0), (34, 7, 0)]

/-- The fields of SBfi. -/
def readSBfi (w : Word) : SBfi :=
  { sd := fld w 48 7, sa := fld w 41 7, fa := fld w 33 1, n1 := fld w 8 6, lo := fld w 0 6 }

/-- The bits of the word that SBfi does not hold. -/
def restSBfi (w : Word) : Bool := fieldsAre w [(6, 2, 0), (14, 19, 0), (34, 7, 0)]

/-- The fields of SCmpRegs. -/
def readSCmpRegs (w : Word) : SCmpRegs :=
  { qd := fld w 48 3, sa := fld w 41 7, sb := fld w 34 7, fa := fld w 33 1, fb := fld w 32 1, rel := fld w 28 4 }

/-- The bits of the word that SCmpRegs does not hold. -/
def restSCmpRegs (w : Word) : Bool := fieldsAre w [(0, 28, 0), (51, 4, 0)]

/-- The fields of SCmpImm. -/
def readSCmpImm (w : Word) : SCmpImm :=
  { qd := fld w 48 3, sa := fld w 41 7, fa := fld w 33 1, rel := fld w 28 4, imm := fld w 0 28 }

/-- The bits of the word that SCmpImm does not hold. -/
def restSCmpImm (w : Word) : Bool := fieldsAre w [(32, 1, 0), (34, 7, 0), (51, 4, 0)]

/-- The fields of QOp. -/
def readQOp (w : Word) : QOp :=
  { qd := fld w 48 3, qa := fld w 41 3, qb := fld w 34 3 }

/-- The bits of the word that QOp does not hold. -/
def restQOp (w : Word) : Bool := fieldsAre w [(0, 34, 0), (37, 4, 0), (44, 4, 0), (51, 4, 0)]

/-- The fields of VoteOp. -/
def readVoteOp (w : Word) : VoteOp :=
  { qd := fld w 48 3, pa := fld w 41 3, mode := fld w 34 2 }

/-- The bits of the word that VoteOp does not hold. -/
def restVoteOp (w : Word) : Bool := fieldsAre w [(0, 34, 0), (36, 5, 0), (44, 4, 0), (51, 4, 0)]

/-- The fields of PCountOp. -/
def readPCountOp (w : Word) : PCountOp :=
  { sd := fld w 48 7, pa := fld w 41 3 }

/-- The bits of the word that PCountOp does not hold. -/
def restPCountOp (w : Word) : Bool := fieldsAre w [(0, 41, 0), (44, 4, 0)]

/-- The fields of PMovToPred. -/
def readPMovToPred (w : Word) : PMovToPred :=
  { pd := fld w 48 3, sa := fld w 41 7, fa := fld w 33 1 }

/-- The bits of the word that PMovToPred does not hold. -/
def restPMovToPred (w : Word) : Bool := fieldsAre w [(0, 33, 0), (51, 4, 0), (34, 7, 1)]

/-- The fields of WidthOp. -/
def readWidthOp (w : Word) : WidthOp :=
  { sd := fld w 48 7, code := fld w 41 2 }

/-- The bits of the word that WidthOp does not hold. -/
def restWidthOp (w : Word) : Bool := fieldsAre w [(0, 41, 0), (43, 5, 0)]

/-- The fields of BrqOp. -/
def readBrqOp (w : Word) : BrqOp :=
  { q := fld w 52 3, neg := fld w 51 1, off := fld w 0 32 }

/-- The bits of the word that BrqOp does not hold. -/
def restBrqOp (w : Word) : Bool := fieldsAre w [(32, 19, 0)]

/-- The fields of BrvOp. -/
def readBrvOp (w : Word) : BrvOp :=
  { gn := fld w 54 1, gp := fld w 51 3, rcv := fld w 32 16, off := fld w 0 32 }

/-- The bits of the word that BrvOp does not hold. -/
def restBrvOp (w : Word) : Bool := fieldsAre w [(48, 3, 0)]

/-- The fields of JmpOp. -/
def readJmpOp (w : Word) : JmpOp :=
  { off := fld w 0 32 }

/-- The bits of the word that JmpOp does not hold. -/
def restJmpOp (w : Word) : Bool := fieldsAre w [(32, 23, 0)]

/-- The fields of JmpRegOp. -/
def readJmpRegOp (w : Word) : JmpRegOp :=
  { sa := fld w 41 7, fa := fld w 32 1 }

/-- The bits of the word that JmpRegOp does not hold. -/
def restJmpRegOp (w : Word) : Bool := fieldsAre w [(0, 32, 0), (33, 8, 0), (48, 7, 0)]

/-- The fields of CallOp. -/
def readCallOp (w : Word) : CallOp :=
  { sl := fld w 48 7, off := fld w 0 32 }

/-- The bits of the word that CallOp does not hold. -/
def restCallOp (w : Word) : Bool := fieldsAre w [(32, 16, 0)]

/-- The fields of CallRegOp. -/
def readCallRegOp (w : Word) : CallRegOp :=
  { sl := fld w 48 7, sa := fld w 41 7, fa := fld w 32 1 }

/-- The bits of the word that CallRegOp does not hold. -/
def restCallRegOp (w : Word) : Bool := fieldsAre w [(0, 32, 0), (33, 8, 0)]

/-- The fields of RetOp. -/
def readRetOp (w : Word) : RetOp :=
  { sl := fld w 48 7, fl := fld w 33 1 }

/-- The bits of the word that RetOp does not hold. -/
def restRetOp (w : Word) : Bool := fieldsAre w [(0, 33, 0), (34, 14, 0)]

/-- The fields of LoopOp. -/
def readLoopOp (w : Word) : LoopOp :=
  { sl := fld w 48 7, fl := fld w 33 1, off := fld w 0 32 }

/-- The bits of the word that LoopOp does not hold. -/
def restLoopOp (w : Word) : Bool := fieldsAre w [(32, 1, 0), (34, 14, 0)]

/-- The fields of JmpvOp. -/
def readJmpvOp (w : Word) : JmpvOp :=
  { gn := fld w 54 1, gp := fld w 51 3, va := fld w 32 8, fa := fld w 14 1, rcv := fld w 0 12 }

/-- The bits of the word that JmpvOp does not hold. -/
def restJmpvOp (w : Word) : Bool := fieldsAre w [(12, 2, 0), (15, 17, 0), (40, 11, 0)]

/-- The fields of CallvOp. -/
def readCallvOp (w : Word) : CallvOp :=
  { gn := fld w 54 1, gp := fld w 51 3, vd := fld w 40 8, va := fld w 32 8, fa := fld w 14 1 }

/-- The bits of the word that CallvOp does not hold. -/
def restCallvOp (w : Word) : Bool := fieldsAre w [(0, 14, 0), (15, 17, 0), (48, 3, 0)]

/-- The fields of RetvOp. -/
def readRetvOp (w : Word) : RetvOp :=
  { gn := fld w 54 1, gp := fld w 51 3, va := fld w 32 8, fa := fld w 14 1 }

/-- The bits of the word that RetvOp does not hold. -/
def restRetvOp (w : Word) : Bool := fieldsAre w [(0, 14, 0), (15, 17, 0), (40, 11, 0)]

/-- The fields of ExitOp. -/
def readExitOp (w : Word) : ExitOp :=
  { gn := fld w 54 1, gp := fld w 51 3 }

/-- The bits of the word that ExitOp does not hold. -/
def restExitOp (w : Word) : Bool := fieldsAre w [(0, 51, 0)]

/-- The fields of PblkOp. -/
def readPblkOp (w : Word) : PblkOp :=
  { q := fld w 52 3, cnt := fld w 48 3, pat := fld w 40 8 }

/-- The bits of the word that PblkOp does not hold. -/
def restPblkOp (w : Word) : Bool := fieldsAre w [(0, 40, 0), (51, 1, 0)]

/-- The fields of LdOp. -/
def readLdOp (w : Word) : LdOp :=
  { gn := fld w 54 1, gp := fld w 51 3, size := fld w 48 3, vd := fld w 40 8, va := fld w 32 8, sb := fld w 25 7, scope := fld w 22 3, ord := fld w 20 2, eb := fld w 12 8, ec := fld w 8 4, pk := fld w 7 1, fea := fld w 6 1, osc := fld w 3 2, hint := fld w 0 3 }

/-- The bits of the word that LdOp does not hold. -/
def restLdOp (w : Word) : Bool := fieldsAre w [(5, 1, 0)]

/-- The fields of StOp. -/
def readStOp (w : Word) : StOp :=
  { gn := fld w 54 1, gp := fld w 51 3, size := fld w 48 3, vd := fld w 40 8, va := fld w 32 8, sb := fld w 25 7, scope := fld w 22 3, ord := fld w 20 2, fea := fld w 6 1, fed := fld w 5 1, osc := fld w 3 2, hint := fld w 0 3 }

/-- The bits of the word that StOp does not hold. -/
def restStOp (w : Word) : Bool := fieldsAre w [(7, 13, 0)]

/-- The fields of LdsOp. -/
def readLdsOp (w : Word) : LdsOp :=
  { gn := fld w 54 1, gp := fld w 51 3, size := fld w 48 3, vd := fld w 40 8, va := fld w 32 8, sb := fld w 25 7, scope := fld w 22 3, ord := fld w 20 2, fea := fld w 6 1, osc := fld w 3 2 }

/-- The bits of the word that LdsOp does not hold. -/
def restLdsOp (w : Word) : Bool := fieldsAre w [(0, 3, 0), (5, 1, 0), (7, 13, 0)]

/-- The fields of StsOp. -/
def readStsOp (w : Word) : StsOp :=
  { gn := fld w 54 1, gp := fld w 51 3, size := fld w 48 3, vd := fld w 40 8, va := fld w 32 8, sb := fld w 25 7, scope := fld w 22 3, ord := fld w 20 2, fea := fld w 6 1, fed := fld w 5 1, osc := fld w 3 2 }

/-- The bits of the word that StsOp does not hold. -/
def restStsOp (w : Word) : Bool := fieldsAre w [(0, 3, 0), (7, 13, 0)]

/-- The fields of SldOp. -/
def readSldOp (w : Word) : SldOp :=
  { size := fld w 48 3, vd := fld w 40 7, disp := fld w 32 8, sb := fld w 25 7, scope := fld w 22 3, ord := fld w 20 2, fea := fld w 6 1, osc := fld w 3 2 }

/-- The bits of the word that SldOp does not hold. -/
def restSldOp (w : Word) : Bool := fieldsAre w [(0, 3, 0), (5, 1, 0), (7, 13, 0), (47, 1, 0), (51, 4, 0)]

/-- The fields of SstOp. -/
def readSstOp (w : Word) : SstOp :=
  { size := fld w 48 3, vd := fld w 40 7, disp := fld w 32 8, sb := fld w 25 7, scope := fld w 22 3, ord := fld w 20 2, fea := fld w 6 1, fed := fld w 5 1, osc := fld w 3 2 }

/-- The bits of the word that SstOp does not hold. -/
def restSstOp (w : Word) : Bool := fieldsAre w [(0, 3, 0), (7, 13, 0), (47, 1, 0), (51, 4, 0)]

/-- The fields of PrefetchOp. -/
def readPrefetchOp (w : Word) : PrefetchOp :=
  { gn := fld w 54 1, gp := fld w 51 3, va := fld w 32 8, sb := fld w 25 7, fea := fld w 6 1, osc := fld w 3 2, hint := fld w 0 3 }

/-- The bits of the word that PrefetchOp does not hold. -/
def restPrefetchOp (w : Word) : Bool := fieldsAre w [(5, 1, 0), (7, 18, 0), (40, 11, 0)]

/-- The fields of XaddOp. -/
def readXaddOp (w : Word) : XaddOp :=
  { gn := fld w 54 1, gp := fld w 51 3, vd := fld w 40 8, va := fld w 32 8, sb := fld w 25 7, scope := fld w 22 3, ord := fld w 20 2, fea := fld w 6 1, fed := fld w 5 1, osc := fld w 3 2 }

/-- The bits of the word that XaddOp does not hold. -/
def restXaddOp (w : Word) : Bool := fieldsAre w [(0, 3, 0), (7, 13, 0), (48, 3, 2)]

/-- The fields of XcvtOp. -/
def readXcvtOp (w : Word) : XcvtOp :=
  { gn := fld w 54 1, gp := fld w 51 3, vd := fld w 40 8, va := fld w 32 8, sb := fld w 25 7, scope := fld w 22 3, ord := fld w 20 2, fea := fld w 6 1, osc := fld w 3 2 }

/-- The bits of the word that XcvtOp does not hold. -/
def restXcvtOp (w : Word) : Bool := fieldsAre w [(0, 3, 0), (5, 1, 0), (7, 13, 0), (48, 3, 2)]

/-- The fields of AtomOp. -/
def readAtomOp (w : Word) : AtomOp :=
  { gn := fld w 54 1, gp := fld w 51 3, size := fld w 48 3, vd := fld w 40 8, va := fld w 32 8, sb := fld w 25 7, scope := fld w 22 3, ord := fld w 20 2, eb := fld w 12 8, ec := fld w 8 4, pk := fld w 7 1, fea := fld w 6 1, fed := fld w 5 1, osc := fld w 3 2, space := fld w 0 3 }

/-- The bits of the word that AtomOp does not hold. -/
def restAtomOp (_w : Word) : Bool := true

/-- The fields of VTwo. -/
def readVTwo (w : Word) : VTwo :=
  { gn := fld w 54 1, gp := fld w 51 3, vd := fld w 40 8, va := fld w 32 8, vb := fld w 24 8, vbs := fld w 15 1, fa := fld w 14 1, fb := fld w 13 1 }

/-- The bits of the word that VTwo does not hold. -/
def restVTwo (w : Word) : Bool := fieldsAre w [(0, 13, 0), (16, 8, 0), (48, 3, 0)]

/-- The fields of VTwoU. -/
def readVTwoU (w : Word) : VTwoU :=
  { gn := fld w 54 1, gp := fld w 51 3, u := fld w 48 1, vd := fld w 40 8, va := fld w 32 8, vb := fld w 24 8, vbs := fld w 15 1, fa := fld w 14 1, fb := fld w 13 1 }

/-- The bits of the word that VTwoU does not hold. -/
def restVTwoU (w : Word) : Bool := fieldsAre w [(0, 13, 0), (16, 8, 0), (49, 2, 0)]

/-- The fields of VThree. -/
def readVThree (w : Word) : VThree :=
  { gn := fld w 54 1, gp := fld w 51 3, vd := fld w 40 8, va := fld w 32 8, vb := fld w 24 8, vc := fld w 16 8, vbs := fld w 15 1, fa := fld w 14 1, fb := fld w 13 1, fc := fld w 12 1 }

/-- The bits of the word that VThree does not hold. -/
def restVThree (w : Word) : Bool := fieldsAre w [(0, 12, 0), (48, 3, 0)]

/-- The fields of VThreeU. -/
def readVThreeU (w : Word) : VThreeU :=
  { gn := fld w 54 1, gp := fld w 51 3, u := fld w 48 1, vd := fld w 40 8, va := fld w 32 8, vb := fld w 24 8, vc := fld w 16 8, vbs := fld w 15 1, fa := fld w 14 1, fb := fld w 13 1, fc := fld w 12 1 }

/-- The bits of the word that VThreeU does not hold. -/
def restVThreeU (w : Word) : Bool := fieldsAre w [(0, 12, 0), (49, 2, 0)]

/-- The fields of VShift. -/
def readVShift (w : Word) : VShift :=
  { gn := fld w 54 1, gp := fld w 51 3, vd := fld w 40 8, va := fld w 32 8, vb := fld w 24 8, vbs := fld w 15 1, fa := fld w 14 1, fb := fld w 13 1, imm := fld w 11 1, cnt := fld w 0 5 }

/-- The bits of the word that VShift does not hold. -/
def restVShift (w : Word) : Bool := fieldsAre w [(5, 6, 0), (12, 1, 0), (16, 8, 0), (48, 3, 0)]

/-- The fields of VSelOp. -/
def readVSelOp (w : Word) : VSelOp :=
  { gn := fld w 54 1, gp := fld w 51 3, vd := fld w 40 8, va := fld w 32 8, vb := fld w 24 8, vbs := fld w 15 1, fa := fld w 14 1, fb := fld w 13 1, neg := fld w 3 1, ps := fld w 0 3 }

/-- The bits of the word that VSelOp does not hold. -/
def restVSelOp (w : Word) : Bool := fieldsAre w [(4, 9, 0), (16, 8, 0), (48, 3, 0)]

/-- The fields of VMovOp. -/
def readVMovOp (w : Word) : VMovOp :=
  { gn := fld w 54 1, gp := fld w 51 3, vd := fld w 40 8, vb := fld w 24 8, vbs := fld w 15 1, fb := fld w 13 1 }

/-- The bits of the word that VMovOp does not hold. -/
def restVMovOp (w : Word) : Bool := fieldsAre w [(0, 13, 0), (14, 1, 0), (16, 8, 0), (48, 3, 0)] && fld w 32 8 == fld w 40 8

/-- The fields of VMoviOp. -/
def readVMoviOp (w : Word) : VMoviOp :=
  { gn := fld w 54 1, gp := fld w 51 3, vd := fld w 40 8, imm := fld w 0 32 }

/-- The bits of the word that VMoviOp does not hold. -/
def restVMoviOp (w : Word) : Bool := fieldsAre w [(48, 3, 0)] && fld w 32 8 == fld w 40 8

/-- The fields of VOne. -/
def readVOne (w : Word) : VOne :=
  { gn := fld w 54 1, gp := fld w 51 3, vd := fld w 40 8, va := fld w 32 8, fa := fld w 14 1 }

/-- The bits of the word that VOne does not hold. -/
def restVOne (w : Word) : Bool := fieldsAre w [(0, 14, 0), (15, 17, 0), (48, 3, 0)]

/-- The fields of VOneRm. -/
def readVOneRm (w : Word) : VOneRm :=
  { gn := fld w 54 1, gp := fld w 51 3, rm := fld w 48 2, vd := fld w 40 8, va := fld w 32 8, fa := fld w 14 1 }

/-- The bits of the word that VOneRm does not hold. -/
def restVOneRm (w : Word) : Bool := fieldsAre w [(0, 14, 0), (15, 17, 0), (50, 1, 0)]

/-- The fields of VBfxOp. -/
def readVBfxOp (w : Word) : VBfxOp :=
  { gn := fld w 54 1, gp := fld w 51 3, u := fld w 48 1, vd := fld w 40 8, va := fld w 32 8, fa := fld w 14 1, n1 := fld w 5 5, lo := fld w 0 5 }

/-- The bits of the word that VBfxOp does not hold. -/
def restVBfxOp (w : Word) : Bool := fieldsAre w [(10, 4, 0), (15, 17, 0), (49, 2, 0)]

/-- The fields of VBfiOp. -/
def readVBfiOp (w : Word) : VBfiOp :=
  { gn := fld w 54 1, gp := fld w 51 3, vd := fld w 40 8, va := fld w 32 8, fa := fld w 14 1, n1 := fld w 5 5, lo := fld w 0 5 }

/-- The bits of the word that VBfiOp does not hold. -/
def restVBfiOp (w : Word) : Bool := fieldsAre w [(10, 4, 0), (15, 17, 0), (48, 3, 0)]

/-- The fields of VPrmtOp. -/
def readVPrmtOp (w : Word) : VPrmtOp :=
  { gn := fld w 54 1, gp := fld w 51 3, i := fld w 48 1, vd := fld w 40 8, va := fld w 32 8, vb := fld w 24 8, vc := fld w 16 8, vbs := fld w 15 1, fa := fld w 14 1, fb := fld w 13 1, fc := fld w 12 1, ctl := fld w 0 12 }

/-- The bits of the word that VPrmtOp does not hold. -/
def restVPrmtOp (w : Word) : Bool := fieldsAre w [(49, 2, 0)]

/-- The fields of VIdxOp. -/
def readVIdxOp (w : Word) : VIdxOp :=
  { gn := fld w 54 1, gp := fld w 51 3, vd := fld w 40 8, vb := fld w 24 8, vbs := fld w 15 1, fb := fld w 13 1, step := fld w 0 12 }

/-- The bits of the word that VIdxOp does not hold. -/
def restVIdxOp (w : Word) : Bool := fieldsAre w [(12, 1, 0), (14, 1, 0), (16, 8, 0), (32, 8, 0), (48, 3, 0)]

/-- The fields of VCmpOp. -/
def readVCmpOp (w : Word) : VCmpOp :=
  { gn := fld w 54 1, gp := fld w 51 3, ct := fld w 48 3, pd1 := fld w 45 3, pd2 := fld w 42 3, va := fld w 32 8, vb := fld w 24 8, vbs := fld w 15 1, fa := fld w 14 1, fb := fld w 13 1, rel := fld w 8 4, ctyp := fld w 5 3 }

/-- The bits of the word that VCmpOp does not hold. -/
def restVCmpOp (w : Word) : Bool := fieldsAre w [(0, 5, 0), (12, 1, 0), (16, 8, 0), (40, 2, 0)]

/-- The fields of FClassOp. -/
def readFClassOp (w : Word) : FClassOp :=
  { gn := fld w 54 1, gp := fld w 51 3, ct := fld w 48 3, pd1 := fld w 45 3, pd2 := fld w 42 3, va := fld w 32 8, fa := fld w 14 1, ty := fld w 10 2, mask := fld w 0 10 }

/-- The bits of the word that FClassOp does not hold. -/
def restFClassOp (w : Word) : Bool := fieldsAre w [(12, 2, 0), (15, 17, 0), (40, 2, 0)]

/-- The fields of FTwo. -/
def readFTwo (w : Word) : FTwo :=
  { gn := fld w 54 1, gp := fld w 51 3, rm := fld w 48 2, sat := fld w 50 1, vd := fld w 40 8, va := fld w 32 8, vb := fld w 24 8, vbs := fld w 15 1, fa := fld w 14 1, fb := fld w 13 1 }

/-- The bits of the word that FTwo does not hold. -/
def restFTwo (w : Word) : Bool := fieldsAre w [(0, 13, 0), (16, 8, 0)]

/-- The fields of FThree. -/
def readFThree (w : Word) : FThree :=
  { gn := fld w 54 1, gp := fld w 51 3, rm := fld w 48 2, sat := fld w 50 1, vd := fld w 40 8, va := fld w 32 8, vb := fld w 24 8, vc := fld w 16 8, vbs := fld w 15 1, fa := fld w 14 1, fb := fld w 13 1, fc := fld w 12 1 }

/-- The bits of the word that FThree does not hold. -/
def restFThree (w : Word) : Bool := fieldsAre w [(0, 12, 0)]

/-- The fields of CvtOp. -/
def readCvtOp (w : Word) : CvtOp :=
  { gn := fld w 54 1, gp := fld w 51 3, rm := fld w 48 2, sat := fld w 50 1, vd := fld w 40 8, va := fld w 32 8, vb := fld w 24 8, fa := fld w 14 1, fb := fld w 13 1, dst := fld w 8 4, src := fld w 4 4, s := fld w 3 1, sel := fld w 0 2 }

/-- The bits of the word that CvtOp does not hold. -/
def restCvtOp (w : Word) : Bool := fieldsAre w [(2, 1, 0), (12, 1, 0), (15, 9, 0)]

/-- The fields of PackOp. -/
def readPackOp (w : Word) : PackOp :=
  { gn := fld w 54 1, gp := fld w 51 3, rm := fld w 48 2, sat := fld w 50 1, vd := fld w 40 8, va := fld w 32 8, vb := fld w 24 8, vc := fld w 16 8, vbs := fld w 15 1, fa := fld w 14 1, fb := fld w 13 1, fc := fld w 12 1, dst := fld w 8 4, src := fld w 4 4, s := fld w 3 1, k := fld w 2 1, sel := fld w 0 2 }

/-- The bits of the word that PackOp does not hold. -/
def restPackOp (_w : Word) : Bool := true

/-- The fields of VShufOp. -/
def readVShufOp (w : Word) : VShufOp :=
  { gn := fld w 54 1, gp := fld w 51 3, vd := fld w 40 8, va := fld w 32 8, vb := fld w 24 8, vbs := fld w 15 1, fa := fld w 14 1, fb := fld w 13 1, wrap := fld w 0 1 }

/-- The bits of the word that VShufOp does not hold. -/
def restVShufOp (w : Word) : Bool := fieldsAre w [(1, 12, 0), (16, 8, 0), (48, 3, 0)]

/-- The fields of VLshOp. -/
def readVLshOp (w : Word) : VLshOp :=
  { gn := fld w 54 1, gp := fld w 51 3, vd := fld w 40 8, va := fld w 32 8, vb := fld w 24 8, vc := fld w 16 8, vbs := fld w 15 1, fa := fld w 14 1, fb := fld w 13 1, fc := fld w 12 1, rot := fld w 11 1, f := fld w 10 1, k := fld w 0 8 }

/-- The bits of the word that VLshOp does not hold. -/
def restVLshOp (w : Word) : Bool := fieldsAre w [(8, 2, 0), (48, 3, 0)]

/-- The fields of VBcastOp. -/
def readVBcastOp (w : Word) : VBcastOp :=
  { gn := fld w 54 1, gp := fld w 51 3, vd := fld w 40 8, va := fld w 32 8, vb := fld w 24 8, vbs := fld w 15 1, fa := fld w 14 1, fb := fld w 13 1, j := fld w 0 6 }

/-- The bits of the word that VBcastOp does not hold. -/
def restVBcastOp (w : Word) : Bool := fieldsAre w [(6, 7, 0), (16, 8, 0), (48, 3, 0)]

/-- The fields of VRedOp. -/
def readVRedOp (w : Word) : VRedOp :=
  { gn := fld w 54 1, gp := fld w 51 3, rm := fld w 48 2, sat := fld w 50 1, vd := fld w 40 8, va := fld w 32 8, fa := fld w 14 1, d := fld w 11 1, op := fld w 0 4 }

/-- The bits of the word that VRedOp does not hold. -/
def restVRedOp (w : Word) : Bool := fieldsAre w [(4, 7, 0), (12, 2, 0), (15, 17, 0)]

/-- The fields of VScanOp. -/
def readVScanOp (w : Word) : VScanOp :=
  { gn := fld w 54 1, gp := fld w 51 3, rm := fld w 48 2, sat := fld w 50 1, vd := fld w 40 8, va := fld w 32 8, fa := fld w 14 1, excl := fld w 4 1, op := fld w 0 4 }

/-- The bits of the word that VScanOp does not hold. -/
def restVScanOp (w : Word) : Bool := fieldsAre w [(5, 9, 0), (15, 17, 0)]

/-- The fields of NPushOp. -/
def readNPushOp (w : Word) : NPushOp :=
  { gn := fld w 54 1, gp := fld w 51 3, va := fld w 32 8, fa := fld w 14 1, d := fld w 0 2 }

/-- The bits of the word that NPushOp does not hold. -/
def restNPushOp (w : Word) : Bool := fieldsAre w [(2, 12, 0), (15, 17, 0), (40, 11, 0)]

/-- The fields of NPopOp. -/
def readNPopOp (w : Word) : NPopOp :=
  { gn := fld w 54 1, gp := fld w 51 3, vd := fld w 40 8, d := fld w 0 2 }

/-- The bits of the word that NPopOp does not hold. -/
def restNPopOp (w : Word) : Bool := fieldsAre w [(2, 38, 0), (48, 3, 0)]

/-- The fields of SpawnOp. -/
def readSpawnOp (w : Word) : SpawnOp :=
  { gn := fld w 54 1, gp := fld w 51 3, va := fld w 32 8, vb := fld w 24 8, fa := fld w 14 1, fb := fld w 13 1 }

/-- The bits of the word that SpawnOp does not hold. -/
def restSpawnOp (w : Word) : Bool := fieldsAre w [(0, 13, 0), (16, 8, 0), (40, 11, 0), (15, 1, 1)]

/-- The fields of MldwOp. -/
def readMldwOp (w : Word) : MldwOp :=
  { sa := fld w 41 7, sb := fld w 34 7, fa := fld w 33 1, fb := fld w 32 1, t := fld w 26 6, vS := fld w 6 8, s := fld w 5 1, fmt := fld w 0 4 }

/-- The bits of the word that MldwOp does not hold. -/
def restMldwOp (w : Word) : Bool := fieldsAre w [(4, 1, 0), (14, 12, 0), (48, 7, 0)]

/-- The fields of MstreamOp. -/
def readMstreamOp (w : Word) : MstreamOp :=
  { sa := fld w 41 7, sb := fld w 34 7, fa := fld w 33 1, fb := fld w 32 1, t := fld w 26 6, a := fld w 24 2, vS := fld w 6 8, s := fld w 5 1, fmt := fld w 0 4 }

/-- The bits of the word that MstreamOp does not hold. -/
def restMstreamOp (w : Word) : Bool := fieldsAre w [(4, 1, 0), (14, 10, 0), (48, 7, 0)]

/-- The fields of MdrainOp. -/
def readMdrainOp (w : Word) : MdrainOp :=
  { sa := fld w 41 7, sb := fld w 34 7, fa := fld w 33 1, fb := fld w 32 1, t := fld w 26 6, a := fld w 24 2, sat := fld w 6 1, rm := fld w 4 2, fmt := fld w 0 4 }

/-- The bits of the word that MdrainOp does not hold. -/
def restMdrainOp (w : Word) : Bool := fieldsAre w [(7, 17, 0), (48, 7, 0)]

/-- The fields of MzeroOp. -/
def readMzeroOp (w : Word) : MzeroOp :=
  { a := fld w 24 2, i := fld w 0 1 }

/-- The bits of the word that MzeroOp does not hold. -/
def restMzeroOp (w : Word) : Bool := fieldsAre w [(1, 23, 0), (26, 29, 0)]

/-- The fields of SdOp. -/
def readSdOp (w : Word) : SdOp :=
  { sd := fld w 48 7 }

/-- The bits of the word that SdOp does not hold. -/
def restSdOp (w : Word) : Bool := fieldsAre w [(0, 48, 0)]

/-- The fields of MwaitOp. -/
def readMwaitOp (w : Word) : MwaitOp :=
  { sa := fld w 41 7, fa := fld w 33 1, imm := fld w 8 1, n := fld w 0 8 }

/-- The bits of the word that MwaitOp does not hold. -/
def restMwaitOp (w : Word) : Bool := fieldsAre w [(9, 24, 0), (34, 7, 0), (48, 7, 0)]

/-- The fields of TdefOp. -/
def readTdefOp (w : Word) : TdefOp :=
  { sd := fld w 48 7, sa := fld w 41 7, sb := fld w 34 7, fa := fld w 33 1, fb := fld w 32 1, t := fld w 26 6 }

/-- The bits of the word that TdefOp does not hold. -/
def restTdefOp (w : Word) : Bool := fieldsAre w [(0, 26, 0)]

/-- The fields of TloadOp. -/
def readTloadOp (w : Word) : TloadOp :=
  { sa := fld w 41 7, sb := fld w 34 7, fa := fld w 33 1, fb := fld w 32 1, t := fld w 26 6, tr := fld w 0 2 }

/-- The bits of the word that TloadOp does not hold. -/
def restTloadOp (w : Word) : Bool := fieldsAre w [(2, 24, 0), (48, 7, 0)]

/-- The fields of TstoreOp. -/
def readTstoreOp (w : Word) : TstoreOp :=
  { sa := fld w 41 7, sb := fld w 34 7, fa := fld w 33 1, fb := fld w 32 1, t := fld w 26 6 }

/-- The bits of the word that TstoreOp does not hold. -/
def restTstoreOp (w : Word) : Bool := fieldsAre w [(0, 26, 0), (48, 7, 0)]

/-- The fields of TileOp. -/
def readTileOp (w : Word) : TileOp :=
  { t := fld w 26 6 }

/-- The bits of the word that TileOp does not hold. -/
def restTileOp (w : Word) : Bool := fieldsAre w [(0, 26, 0), (32, 23, 0)]

/-- The fields of TstatOp. -/
def readTstatOp (w : Word) : TstatOp :=
  { sd := fld w 48 7, t := fld w 26 6 }

/-- The bits of the word that TstatOp does not hold. -/
def restTstatOp (w : Word) : Bool := fieldsAre w [(0, 26, 0), (32, 16, 0)]

/-- The fields of SaSbOp. -/
def readSaSbOp (w : Word) : SaSbOp :=
  { sa := fld w 41 7, sb := fld w 34 7, fa := fld w 33 1, fb := fld w 32 1 }

/-- The bits of the word that SaSbOp does not hold. -/
def restSaSbOp (w : Word) : Bool := fieldsAre w [(0, 32, 0), (48, 7, 0)]

/-- The fields of FwaitOp. -/
def readFwaitOp (w : Word) : FwaitOp :=
  { sa := fld w 41 7, sb := fld w 34 7, fa := fld w 33 1, fb := fld w 32 1, reg := fld w 1 1, ph := fld w 0 1 }

/-- The bits of the word that FwaitOp does not hold. -/
def restFwaitOp (w : Word) : Bool := fieldsAre w [(2, 30, 0), (48, 7, 0)]

/-- The fields of BinitOp. -/
def readBinitOp (w : Word) : BinitOp :=
  { sa := fld w 41 7, fa := fld w 33 1, b := fld w 19 5, scope := fld w 16 3 }

/-- The bits of the word that BinitOp does not hold. -/
def restBinitOp (w : Word) : Bool := fieldsAre w [(0, 16, 0), (24, 9, 0), (34, 7, 0), (48, 7, 0)]

/-- The fields of PointOp. -/
def readPointOp (w : Word) : PointOp :=
  { b := fld w 19 5 }

/-- The bits of the word that PointOp does not hold. -/
def restPointOp (w : Word) : Bool := fieldsAre w [(0, 19, 0), (24, 31, 0)]

/-- The fields of SdSaOp. -/
def readSdSaOp (w : Word) : SdSaOp :=
  { sd := fld w 48 7, sa := fld w 41 7, fa := fld w 33 1 }

/-- The bits of the word that SdSaOp does not hold. -/
def restSdSaOp (w : Word) : Bool := fieldsAre w [(0, 33, 0), (34, 7, 0)]

/-- The fields of QResOp. -/
def readQResOp (w : Word) : QResOp :=
  { sd := fld w 48 7, sa := fld w 41 7, fa := fld w 33 1 }

/-- The bits of the word that QResOp does not hold. -/
def restQResOp (w : Word) : Bool := fieldsAre w [(14, 19, 0), (34, 7, 0), (0, 14, 1)]

/-- The fields of QCmtOp. -/
def readQCmtOp (w : Word) : QCmtOp :=
  { sa := fld w 41 7, fa := fld w 33 1 }

/-- The bits of the word that QCmtOp does not hold. -/
def restQCmtOp (w : Word) : Bool := fieldsAre w [(14, 19, 0), (34, 7, 0), (48, 7, 0), (0, 14, 2)]

/-- The fields of SaOp. -/
def readSaOp (w : Word) : SaOp :=
  { sa := fld w 41 7, fa := fld w 33 1 }

/-- The bits of the word that SaOp does not hold. -/
def restSaOp (w : Word) : Bool := fieldsAre w [(0, 33, 0), (34, 7, 0), (48, 7, 0)]

/-- The fields of FenceOp. -/
def readFenceOp (w : Word) : FenceOp :=
  { scope := fld w 16 3, ord := fld w 14 2 }

/-- The bits of the word that FenceOp does not hold. -/
def restFenceOp (w : Word) : Bool := fieldsAre w [(0, 14, 0), (19, 36, 0)]

/-- The fields of XtplOp. -/
def readXtplOp (w : Word) : XtplOp :=
  { sa := fld w 41 7, fa := fld w 33 1, i := fld w 0 5 }

/-- The bits of the word that XtplOp does not hold. -/
def restXtplOp (w : Word) : Bool := fieldsAre w [(5, 28, 0), (34, 7, 0), (48, 7, 0)]

/-- The fields of XqueryOp. -/
def readXqueryOp (w : Word) : XqueryOp :=
  { sd := fld w 48 7, i := fld w 0 5 }

/-- The bits of the word that XqueryOp does not hold. -/
def restXqueryOp (w : Word) : Bool := fieldsAre w [(5, 43, 0)]

/-- The fields of CopenOp. -/
def readCopenOp (w : Word) : CopenOp :=
  { sd := fld w 48 7, sa := fld w 41 7, fa := fld w 33 1, span := fld w 0 1 }

/-- The bits of the word that CopenOp does not hold. -/
def restCopenOp (w : Word) : Bool := fieldsAre w [(1, 32, 0), (34, 7, 0)]

/-- The fields of CbindOp. -/
def readCbindOp (w : Word) : CbindOp :=
  { sd := fld w 48 7, sa := fld w 41 7, fa := fld w 33 1, role := fld w 0 3 }

/-- The bits of the word that CbindOp does not hold. -/
def restCbindOp (w : Word) : Bool := fieldsAre w [(3, 30, 0), (34, 7, 0)]

/-- The fields of CsendOp. -/
def readCsendOp (w : Word) : CsendOp :=
  { sa := fld w 41 7, sb := fld w 34 7, fa := fld w 33 1, fb := fld w 32 1, n := fld w 7 4, kind := fld w 3 4, role := fld w 0 3 }

/-- The bits of the word that CsendOp does not hold. -/
def restCsendOp (w : Word) : Bool := fieldsAre w [(11, 21, 0), (48, 7, 0)]

/-- The fields of CrecvOp. -/
def readCrecvOp (w : Word) : CrecvOp :=
  { sd := fld w 48 7, sa := fld w 41 7, sb := fld w 34 7, fa := fld w 33 1, role := fld w 0 3 }

/-- The bits of the word that CrecvOp does not hold. -/
def restCrecvOp (w : Word) : Bool := fieldsAre w [(3, 30, 0)]

/-- The fields of CdelegOp. -/
def readCdelegOp (w : Word) : CdelegOp :=
  { sa := fld w 41 7, fa := fld w 33 1, role := fld w 0 3 }

/-- The bits of the word that CdelegOp does not hold. -/
def restCdelegOp (w : Word) : Bool := fieldsAre w [(3, 30, 0), (34, 7, 0), (48, 7, 0)]

/-- The fields of SrdOp. -/
def readSrdOp (w : Word) : SrdOp :=
  { sd := fld w 48 7, sa := fld w 41 7, fa := fld w 33 1, v := fld w 13 1, cls := fld w 8 5, idx := fld w 0 8 }

/-- The bits of the word that SrdOp does not hold. -/
def restSrdOp (w : Word) : Bool := fieldsAre w [(14, 19, 0), (34, 7, 0)]

/-- The fields of SwrOp. -/
def readSwrOp (w : Word) : SwrOp :=
  { sd := fld w 48 7, sa := fld w 41 7, fa := fld w 33 1, cls := fld w 8 5, idx := fld w 0 8 }

/-- The bits of the word that SwrOp does not hold. -/
def restSwrOp (w : Word) : Bool := fieldsAre w [(13, 20, 0), (34, 7, 0)]

/-- The fields of ImmOp. -/
def readImmOp (w : Word) : ImmOp :=
  { imm := fld w 0 8 }

/-- The bits of the word that ImmOp does not hold. -/
def restImmOp (w : Word) : Bool := fieldsAre w [(8, 47, 0)]

/-- The fields of IinvOp. -/
def readIinvOp (w : Word) : IinvOp :=
  { sa := fld w 41 7, sb := fld w 34 7, fa := fld w 33 1, fb := fld w 32 1, scope := fld w 16 3 }

/-- The bits of the word that IinvOp does not hold. -/
def restIinvOp (w : Word) : Bool := fieldsAre w [(0, 16, 0), (19, 13, 0), (48, 7, 0)]

/-- The fields of ChkerrOp. -/
def readChkerrOp (w : Word) : ChkerrOp :=
  { sd := fld w 48 7, clr := fld w 0 1 }

/-- The bits of the word that ChkerrOp does not hold. -/
def restChkerrOp (w : Word) : Bool := fieldsAre w [(1, 47, 0)]

/-- The fields of LaunchOp. -/
def readLaunchOp (w : Word) : LaunchOp :=
  { sd := fld w 48 7, sa := fld w 41 7, sb := fld w 34 7, fa := fld w 33 1, fb := fld w 32 1 }

/-- The bits of the word that LaunchOp does not hold. -/
def restLaunchOp (w : Word) : Bool := fieldsAre w [(0, 32, 0)]

/-- Row 0x1_ of the opcode map (R172). -/
def decodeRow1 (c : Nat) (w : Word) : Except Reject Instr :=
  match c with
  | 0 => accept (restSRegs w) (.sadd (readSRegs w))
  | 1 => accept (restSImm w) (.saddImm (readSImm w))
  | 2 => accept (restSRegs w) (.ssub (readSRegs w))
  | 3 => accept (restSImm w) (.ssubImm (readSImm w))
  | 4 => accept (restSRegs w) (.smul (readSRegs w))
  | 5 => accept (restSImm w) (.smulImm (readSImm w))
  | 6 => accept (restSRegs w) (.smulh (readSRegs w))
  | 7 => accept (restSImm w) (.smulhImm (readSImm w))
  | 8 => accept (restSRegs w) (.sdiv (readSRegs w))
  | 9 => accept (restSImm w) (.sdivImm (readSImm w))
  | 10 => accept (restSRegs w) (.sdivu (readSRegs w))
  | 11 => accept (restSImm w) (.sdivuImm (readSImm w))
  | 12 => accept (restSRegs w) (.srem (readSRegs w))
  | 13 => accept (restSImm w) (.sremImm (readSImm w))
  | 14 => accept (restSRegs w) (.sremu (readSRegs w))
  | 15 => accept (restSImm w) (.sremuImm (readSImm w))
  | _ => .ok (.undefinedInstruction w)

/-- Row 0x2_ of the opcode map (R172). -/
def decodeRow2 (c : Nat) (w : Word) : Except Reject Instr :=
  match c with
  | 0 => accept (restSRegs w) (.sand (readSRegs w))
  | 1 => accept (restSImm w) (.sandImm (readSImm w))
  | 2 => accept (restSRegs w) (.sor (readSRegs w))
  | 3 => accept (restSImm w) (.sorImm (readSImm w))
  | 4 => accept (restSRegs w) (.sxor (readSRegs w))
  | 5 => accept (restSImm w) (.sxorImm (readSImm w))
  | 6 => accept (restSRegs w) (.sshl (readSRegs w))
  | 7 => accept (restSImm w) (.sshlImm (readSImm w))
  | 8 => accept (restSRegs w) (.sshr (readSRegs w))
  | 9 => accept (restSImm w) (.sshrImm (readSImm w))
  | 10 => accept (restSRegs w) (.ssra (readSRegs w))
  | 11 => accept (restSImm w) (.ssraImm (readSImm w))
  | 12 => accept (restSRegs w) (.smin (readSRegs w))
  | 13 => accept (restSImm w) (.sminImm (readSImm w))
  | 14 => accept (restSRegs w) (.sminu (readSRegs w))
  | 15 => accept (restSImm w) (.sminuImm (readSImm w))
  | _ => .ok (.undefinedInstruction w)

/-- Row 0x3_ of the opcode map (R172). -/
def decodeRow3 (c : Nat) (w : Word) : Except Reject Instr :=
  match c with
  | 0 => accept (restSRegs w) (.smax (readSRegs w))
  | 1 => accept (restSImm w) (.smaxImm (readSImm w))
  | 2 => accept (restSRegs w) (.smaxu (readSRegs w))
  | 3 => accept (restSImm w) (.smaxuImm (readSImm w))
  | 4 => accept (restSOne w) (.smov (readSOne w))
  | 5 => accept (restSConst w) (.smovi (readSConst w))
  | 7 => accept (restSConst w) (.smovh (readSConst w))
  | 8 => accept (restSLeaRegs w) (.slea (readSLeaRegs w))
  | 9 => accept (restSLeaImm w) (.sleaImm (readSLeaImm w))
  | 10 => accept (restSOne w) (.sclz (readSOne w))
  | 12 => accept (restSOne w) (.spopc (readSOne w))
  | 14 => accept (restSSelRegs w) (.ssel (readSSelRegs w))
  | 15 => accept (restSSelImm w) (.sselImm (readSSelImm w))
  | _ => .ok (.undefinedInstruction w)

/-- Row 0x4_ of the opcode map (R172). -/
def decodeRow4 (c : Nat) (w : Word) : Except Reject Instr :=
  match c with
  | 0 => accept (restSExt w) (.sext (readSExt w))
  | 2 => accept (restSBfx w) (.sbfx (readSBfx w))
  | 4 => accept (restSBfi w) (.sbfi (readSBfi w))
  | 6 => accept (restSCmpRegs w) (.scmp (readSCmpRegs w))
  | 7 => accept (restSCmpImm w) (.scmpImm (readSCmpImm w))
  | 8 => accept (restQOp w) (.qand (readQOp w))
  | 9 => accept (restQOp w) (.qor (readQOp w))
  | 10 => accept (restQOp w) (.qxor (readQOp w))
  | 11 => accept (restVoteOp w) (.vote (readVoteOp w))
  | 12 => accept (restPCountOp w) (.pcount (readPCountOp w))
  | 13 => if fld w 34 7 == 0#7 then accept (restPCountOp w) (.pmovToScalar (readPCountOp w)) else accept (restPMovToPred w) (.pmovToPredicate (readPMovToPred w))
  | 14 => accept (restWidthOp w) (.gsplit (readWidthOp w))
  | 15 => accept (restWidthOp w) (.gfuse (readWidthOp w))
  | _ => .ok (.undefinedInstruction w)

/-- Row 0x5_ of the opcode map (R172). -/
def decodeRow5 (c : Nat) (w : Word) : Except Reject Instr :=
  match c with
  | 0 => accept (restBrqOp w) (.brq (readBrqOp w))
  | 1 => accept (restBrvOp w) (.brv (readBrvOp w))
  | 2 => accept (restJmpOp w) (.jmp (readJmpOp w))
  | 3 => accept (restJmpRegOp w) (.jmpReg (readJmpRegOp w))
  | 4 => accept (restCallOp w) (.call (readCallOp w))
  | 5 => accept (restCallRegOp w) (.callReg (readCallRegOp w))
  | 6 => accept (restRetOp w) (.ret (readRetOp w))
  | 7 => accept (restLoopOp w) (.loop (readLoopOp w))
  | 8 => accept (restJmpvOp w) (.jmpv (readJmpvOp w))
  | 9 => accept (restCallvOp w) (.callv (readCallvOp w))
  | 10 => accept (restRetvOp w) (.retv (readRetvOp w))
  | 11 => accept (restExitOp w) (.exit (readExitOp w))
  | 12 => accept (restPblkOp w) (.pblk (readPblkOp w))
  | _ => .ok (.undefinedInstruction w)

/-- Row 0x6_ of the opcode map (R172). -/
def decodeRow6 (c : Nat) (w : Word) : Except Reject Instr :=
  match c with
  | 0 => accept (restLdOp w) (.ld (readLdOp w))
  | 1 => accept (restStOp w) (.st (readStOp w))
  | 2 => accept (restSldOp w) (.sld (readSldOp w))
  | 3 => accept (restSstOp w) (.sst (readSstOp w))
  | 4 => accept (restLdsOp w) (.lds (readLdsOp w))
  | 5 => accept (restStsOp w) (.sts (readStsOp w))
  | 6 => accept (restLdsOp w) (.ldv (readLdsOp w))
  | 7 => accept (restStsOp w) (.stv (readStsOp w))
  | 8 => accept (restPrefetchOp w) (.prefetch (readPrefetchOp w))
  | 9 => accept (restXaddOp w) (.xadd (readXaddOp w))
  | 10 => accept (restXcvtOp w) (.xcvt (readXcvtOp w))
  | _ => .ok (.undefinedInstruction w)

/-- Row 0x7_ of the opcode map (R172). -/
def decodeRow7 (c : Nat) (w : Word) : Except Reject Instr :=
  match c with
  | 0 => accept (restAtomOp w) (.atomAdd (readAtomOp w))
  | 1 => accept (restAtomOp w) (.atomSub (readAtomOp w))
  | 2 => accept (restAtomOp w) (.atomMin (readAtomOp w))
  | 3 => accept (restAtomOp w) (.atomMinu (readAtomOp w))
  | 4 => accept (restAtomOp w) (.atomMax (readAtomOp w))
  | 5 => accept (restAtomOp w) (.atomMaxu (readAtomOp w))
  | 6 => accept (restAtomOp w) (.atomAnd (readAtomOp w))
  | 7 => accept (restAtomOp w) (.atomOr (readAtomOp w))
  | 8 => accept (restAtomOp w) (.atomXor (readAtomOp w))
  | 9 => accept (restAtomOp w) (.atomExch (readAtomOp w))
  | 10 => accept (restAtomOp w) (.atomCas (readAtomOp w))
  | 11 => accept (restAtomOp w) (.atomInc (readAtomOp w))
  | 12 => accept (restAtomOp w) (.atomDec (readAtomOp w))
  | 13 => accept (restAtomOp w) (.atomFadd (readAtomOp w))
  | 14 => accept (restAtomOp w) (.atomFmin (readAtomOp w))
  | 15 => accept (restAtomOp w) (.atomFmax (readAtomOp w))
  | _ => .ok (.undefinedInstruction w)

/-- Row 0x8_ of the opcode map (R172). -/
def decodeRow8 (c : Nat) (w : Word) : Except Reject Instr :=
  match c with
  | 0 => accept (restVTwo w) (.vadd (readVTwo w))
  | 1 => accept (restVTwo w) (.vsub (readVTwo w))
  | 2 => accept (restVTwo w) (.vmul (readVTwo w))
  | 3 => accept (restVTwoU w) (.vmulh (readVTwoU w))
  | 4 => accept (restVThree w) (.vmad (readVThree w))
  | 5 => accept (restVTwoU w) (.vaddsat (readVTwoU w))
  | 6 => accept (restVTwoU w) (.vsubsat (readVTwoU w))
  | 7 => accept (restVTwo w) (.vand (readVTwo w))
  | 8 => accept (restVTwo w) (.vor (readVTwo w))
  | 9 => accept (restVTwo w) (.vxor (readVTwo w))
  | 10 => accept (restVShift w) (.vshl (readVShift w))
  | 11 => accept (restVShift w) (.vshr (readVShift w))
  | 12 => accept (restVShift w) (.vsra (readVShift w))
  | 13 => accept (restVTwoU w) (.vmin (readVTwoU w))
  | 14 => accept (restVTwoU w) (.vmax (readVTwoU w))
  | 15 => accept (restVTwoU w) (.vabsd (readVTwoU w))
  | _ => .ok (.undefinedInstruction w)

/-- Row 0x9_ of the opcode map (R172). -/
def decodeRow9 (c : Nat) (w : Word) : Except Reject Instr :=
  match c with
  | 0 => accept (restVThreeU w) (.vaddmin (readVThreeU w))
  | 1 => accept (restVThreeU w) (.vaddmax (readVThreeU w))
  | 2 => accept (restVSelOp w) (.vsel (readVSelOp w))
  | 3 => accept (restVMovOp w) (.vmov (readVMovOp w))
  | 4 => accept (restVMoviOp w) (.vmovi (readVMoviOp w))
  | 5 => accept (restVOne w) (.vclz (readVOne w))
  | 6 => accept (restVOne w) (.vpopc (readVOne w))
  | 7 => accept (restVBfxOp w) (.vbfx (readVBfxOp w))
  | 8 => accept (restVBfiOp w) (.vbfi (readVBfiOp w))
  | 9 => accept (restVPrmtOp w) (.vprmt (readVPrmtOp w))
  | 10 => accept (restVIdxOp w) (.vidx (readVIdxOp w))
  | 11 => accept (restVCmpOp w) (.vcmp (readVCmpOp w))
  | _ => .ok (.undefinedInstruction w)

/-- Row 0xA_ of the opcode map (R172). -/
def decodeRowA (c : Nat) (w : Word) : Except Reject Instr :=
  match c with
  | 0 => accept (restFTwo w) (.fadd (readFTwo w))
  | 1 => accept (restFTwo w) (.fsub (readFTwo w))
  | 2 => accept (restFTwo w) (.fmul (readFTwo w))
  | 3 => accept (restFThree w) (.ffma (readFThree w))
  | 4 => accept (restVTwo w) (.fmin (readVTwo w))
  | 5 => accept (restVTwo w) (.fmax (readVTwo w))
  | 6 => accept (restVOne w) (.frcp (readVOne w))
  | 7 => accept (restVOne w) (.frsq (readVOne w))
  | 8 => accept (restVOneRm w) (.fsqrt (readVOneRm w))
  | 9 => accept (restVOne w) (.fexp2 (readVOne w))
  | 10 => accept (restVOne w) (.flog2 (readVOne w))
  | 11 => accept (restVOne w) (.fsin (readVOne w))
  | 12 => accept (restVOne w) (.fcos (readVOne w))
  | 13 => accept (restVCmpOp w) (.fcmp (readVCmpOp w))
  | 14 => accept (restFClassOp w) (.fclass (readFClassOp w))
  | _ => .ok (.undefinedInstruction w)

/-- Row 0xB_ of the opcode map (R172). -/
def decodeRowB (c : Nat) (w : Word) : Except Reject Instr :=
  match c with
  | 0 => accept (restCvtOp w) (.cvt (readCvtOp w))
  | 1 => accept (restPackOp w) (.pack (readPackOp w))
  | 2 => accept (restCvtOp w) (.unpack (readCvtOp w))
  | 3 => accept (restVShufOp w) (.vshuf (readVShufOp w))
  | 4 => accept (restVLshOp w) (.vlsh (readVLshOp w))
  | 5 => accept (restVBcastOp w) (.vbcast (readVBcastOp w))
  | 6 => accept (restVRedOp w) (.vred (readVRedOp w))
  | 7 => accept (restVScanOp w) (.vscan (readVScanOp w))
  | 8 => accept (restNPushOp w) (.npush (readNPushOp w))
  | 9 => accept (restNPopOp w) (.npop (readNPopOp w))
  | 10 => accept (restSpawnOp w) (.spawn (readSpawnOp w))
  | _ => .ok (.undefinedInstruction w)

/-- Row 0xC_ of the opcode map (R172). -/
def decodeRowC (c : Nat) (w : Word) : Except Reject Instr :=
  match c with
  | 0 => accept (restMldwOp w) (.mldw (readMldwOp w))
  | 1 => accept (fieldsAre w [(0, 55, 0)]) .mswap
  | 2 => accept (restMstreamOp w) (.mstream (readMstreamOp w))
  | 3 => accept (restMdrainOp w) (.mdrain (readMdrainOp w))
  | 4 => accept (restMzeroOp w) (.mzero (readMzeroOp w))
  | 5 => accept (restSdOp w) (.mbatch (readSdOp w))
  | 6 => accept (restMwaitOp w) (.mwait (readMwaitOp w))
  | 7 => accept (restSdOp w) (.mstat (readSdOp w))
  | 8 => accept (restTdefOp w) (.tdef (readTdefOp w))
  | 9 => accept (restTloadOp w) (.tload (readTloadOp w))
  | 10 => accept (restTstoreOp w) (.tstore (readTstoreOp w))
  | 11 => accept (restTileOp w) (.trel (readTileOp w))
  | 12 => accept (restTstatOp w) (.tstat (readTstatOp w))
  | _ => .ok (.undefinedInstruction w)

/-- Row 0xD_ of the opcode map (R172). -/
def decodeRowD (c : Nat) (w : Word) : Except Reject Instr :=
  match c with
  | 0 => accept (restSaSbOp w) (.finit (readSaSbOp w))
  | 1 => accept (restSaSbOp w) (.fexpect (readSaSbOp w))
  | 2 => accept (restFwaitOp w) (.fwait (readFwaitOp w))
  | 3 => accept (restBinitOp w) (.binit (readBinitOp w))
  | 4 => accept (restPointOp w) (.barv (readPointOp w))
  | 5 => accept (restPointOp w) (.bwait (readPointOp w))
  | 6 => accept (restPointOp w) (.bsync (readPointOp w))
  | 7 => accept (restSaSbOp w) (.qinit (readSaSbOp w))
  | 8 =>
    if fld w 0 14 == 0#14 then accept (restSaSbOp w) (.qpush (readSaSbOp w))
    else if fld w 0 14 == 1#14 then accept (restQResOp w) (.qpushRes (readQResOp w))
    else accept (restQCmtOp w) (.qpushCmt (readQCmtOp w))
  | 9 => accept (restSaSbOp w) (.qpop (readSaSbOp w))
  | 10 => accept (restSdSaOp w) (.qwait (readSdSaOp w))
  | 11 => accept (restSaOp w) (.qrel (readSaOp w))
  | 12 => accept (restFenceOp w) (.fence (readFenceOp w))
  | _ => .ok (.undefinedInstruction w)

/-- Row 0xE_ of the opcode map (R172). -/
def decodeRowE (c : Nat) (w : Word) : Except Reject Instr :=
  match c with
  | 0 => accept (restXtplOp w) (.xtpl (readXtplOp w))
  | 1 => accept (restSaSbOp w) (.xpost (readSaSbOp w))
  | 2 => accept (restXqueryOp w) (.xquery (readXqueryOp w))
  | 3 => accept (restSdSaOp w) (.cproto (readSdSaOp w))
  | 4 => accept (restCopenOp w) (.copen (readCopenOp w))
  | 5 => accept (restCbindOp w) (.cbind (readCbindOp w))
  | 6 => accept (restCsendOp w) (.csend (readCsendOp w))
  | 7 => accept (restCrecvOp w) (.crecv (readCrecvOp w))
  | 8 => accept (restCdelegOp w) (.cdeleg (readCdelegOp w))
  | 9 => accept (restSaOp w) (.cclose (readSaOp w))
  | _ => .ok (.undefinedInstruction w)

/-- Row 0xF_ of the opcode map (R172). -/
def decodeRowF (c : Nat) (w : Word) : Except Reject Instr :=
  match c with
  | 0 => accept (restSrdOp w) (.srd (readSrdOp w))
  | 1 => accept (restSwrOp w) (.swr (readSwrOp w))
  | 2 => accept (restImmOp w) (.trap (readImmOp w))
  | 3 => accept (fieldsAre w [(0, 55, 0)]) .rett
  | 4 => accept (restImmOp w) (.brk (readImmOp w))
  | 5 => accept (fieldsAre w [(0, 55, 0)]) .nop
  | 6 => accept (fieldsAre w [(0, 55, 0)]) .isync
  | 7 => accept (restIinvOp w) (.iinv (readIinvOp w))
  | 8 => accept (fieldsAre w [(0, 55, 0)]) .pnopre
  | 9 => accept (fieldsAre w [(0, 55, 0)]) .ppre
  | 10 => accept (restChkerrOp w) (.chkerr (readChkerrOp w))
  | 11 => accept (restLaunchOp w) (.launch (readLaunchOp w))
  | 12 => accept (fieldsAre w [(0, 55, 0)]) .yield
  | _ => .ok (.undefinedInstruction w)

/-- A full word (bit 63 = 0), by its major opcode (R172). -/
def decodeFull (w : Word) : Except Reject Instr :=
  let c := (fld w 55 4).toNat
  match (fld w 59 4).toNat with
  | 1 => decodeRow1 c w
  | 2 => decodeRow2 c w
  | 3 => decodeRow3 c w
  | 4 => decodeRow4 c w
  | 5 => decodeRow5 c w
  | 6 => decodeRow6 c w
  | 7 => decodeRow7 c w
  | 8 => decodeRow8 c w
  | 9 => decodeRow9 c w
  | 10 => decodeRowA c w
  | 11 => decodeRowB c w
  | 12 => decodeRowC c w
  | 13 => decodeRowD c w
  | 14 => decodeRowE c w
  | 15 => decodeRowF c w
  | _ => .ok (.undefinedInstruction w)

/-- The fields of one half of a pair word (R162). -/
def readHalf (h : BitVec 31) : HalfOp :=
  { hop := h.extractLsb' 24 7, vd := h.extractLsb' 18 6, vs := h.extractLsb' 12 6, gp := h.extractLsb' 9 3,
    imm := h.extractLsb' 0 9 }

/-- A pair word (bit 63 = 1): undefined before reserved fields before the bank rule (R176, R377). -/
def decodePair (w : Word) : Except Reject Instr :=
  let p : PairOp := { a := readHalf (w.extractLsb' 31 31), b := readHalf (w.extractLsb' 0 31) }
  if fld w 62 1 == 1#1 || !halfAssigned p.a.hop || !halfAssigned p.b.hop then .ok (.undefinedInstruction w)
  else if !(halfOk p.a && halfOk p.b) then .error .reservedField
  else if !banksDisjoint p then .error (.illegalPairing p)
  else .ok (.pairWord p)

/-- The instruction a word holds (R150). -/
def decode (w : Word) : Except Reject Instr :=
  if fld w 63 1 == 1#1 then decodePair w else decodeFull w

/-- The instruction that the decoder reads from a word of the opcode table: every instruction is one 64-bit word,
and the word's bits above `nbits` are 0. -/
def decodeTableWord (_nbits w : Nat) : Option Instr := (decode (BitVec.ofNat 64 w)).toOption

/-- The eight bytes of a word at rising addresses, little-endian (R11). -/
def wordBytes (w : Word) : List Byte := (List.range 8).map fun k => w.extractLsb' (8 * k) 8

/-- The word that eight bytes at rising addresses hold (R11). -/
def bytesWord (l : List Byte) : Word := l.foldr (fun b acc => (acc <<< 8) ||| b.setWidth 64) 0#64

/-! ### The encoder -/

/-- Bits [54:0] of a word with the fields of SRegs. -/
def bitsSRegs (o : SRegs) : BitVec 55 :=
  o.sd ++ o.sa ++ o.sb ++ o.fa ++ o.fb ++ 0#32

/-- Bits [54:0] of a word with the fields of SImm. -/
def bitsSImm (o : SImm) : BitVec 55 :=
  o.sd ++ o.sa ++ 0#7 ++ o.fa ++ 0#1 ++ o.imm

/-- Bits [54:0] of a word with the fields of SOne. -/
def bitsSOne (o : SOne) : BitVec 55 :=
  o.sd ++ o.sa ++ 0#7 ++ o.fa ++ 0#33

/-- Bits [54:0] of a word with the fields of SConst. -/
def bitsSConst (o : SConst) : BitVec 55 :=
  o.sd ++ 0#16 ++ o.imm

/-- Bits [54:0] of a word with the fields of SLeaRegs. -/
def bitsSLeaRegs (o : SLeaRegs) : BitVec 55 :=
  o.sd ++ o.sa ++ o.sb ++ o.fa ++ o.fb ++ 0#29 ++ o.sh

/-- Bits [54:0] of a word with the fields of SLeaImm. -/
def bitsSLeaImm (o : SLeaImm) : BitVec 55 :=
  o.sd ++ o.sa ++ 0#7 ++ o.fa ++ 0#1 ++ o.disp ++ o.sh

/-- Bits [54:0] of a word with the fields of SSelRegs. -/
def bitsSSelRegs (o : SSelRegs) : BitVec 55 :=
  o.sd ++ o.sa ++ o.sb ++ o.fa ++ o.fb ++ 0#29 ++ o.q

/-- Bits [54:0] of a word with the fields of SSelImm. -/
def bitsSSelImm (o : SSelImm) : BitVec 55 :=
  o.sd ++ o.sa ++ 0#7 ++ o.fa ++ 0#1 ++ o.imm ++ o.q

/-- Bits [54:0] of a word with the fields of SExt. -/
def bitsSExt (o : SExt) : BitVec 55 :=
  o.sd ++ o.sa ++ 0#7 ++ o.fa ++ 0#26 ++ o.u ++ o.n1

/-- Bits [54:0] of a word with the fields of SBfx. -/
def bitsSBfx (o : SBfx) : BitVec 55 :=
  o.sd ++ o.sa ++ 0#7 ++ o.fa ++ 0#16 ++ o.s ++ 0#2 ++ o.n1 ++ 0#2 ++ o.lo

/-- Bits [54:0] of a word with the fields of SBfi. -/
def bitsSBfi (o : SBfi) : BitVec 55 :=
  o.sd ++ o.sa ++ 0#7 ++ o.fa ++ 0#19 ++ o.n1 ++ 0#2 ++ o.lo

/-- Bits [54:0] of a word with the fields of SCmpRegs. -/
def bitsSCmpRegs (o : SCmpRegs) : BitVec 55 :=
  0#4 ++ o.qd ++ o.sa ++ o.sb ++ o.fa ++ o.fb ++ o.rel ++ 0#28

/-- Bits [54:0] of a word with the fields of SCmpImm. -/
def bitsSCmpImm (o : SCmpImm) : BitVec 55 :=
  0#4 ++ o.qd ++ o.sa ++ 0#7 ++ o.fa ++ 0#1 ++ o.rel ++ o.imm

/-- Bits [54:0] of a word with the fields of QOp. -/
def bitsQOp (o : QOp) : BitVec 55 :=
  0#4 ++ o.qd ++ 0#4 ++ o.qa ++ 0#4 ++ o.qb ++ 0#34

/-- Bits [54:0] of a word with the fields of VoteOp. -/
def bitsVoteOp (o : VoteOp) : BitVec 55 :=
  0#4 ++ o.qd ++ 0#4 ++ o.pa ++ 0#5 ++ o.mode ++ 0#34

/-- Bits [54:0] of a word with the fields of PCountOp. -/
def bitsPCountOp (o : PCountOp) : BitVec 55 :=
  o.sd ++ 0#4 ++ o.pa ++ 0#41

/-- Bits [54:0] of a word with the fields of PMovToPred. -/
def bitsPMovToPred (o : PMovToPred) : BitVec 55 :=
  0#4 ++ o.pd ++ o.sa ++ 1#7 ++ o.fa ++ 0#33

/-- Bits [54:0] of a word with the fields of WidthOp. -/
def bitsWidthOp (o : WidthOp) : BitVec 55 :=
  o.sd ++ 0#5 ++ o.code ++ 0#41

/-- Bits [54:0] of a word with the fields of BrqOp. -/
def bitsBrqOp (o : BrqOp) : BitVec 55 :=
  o.q ++ o.neg ++ 0#19 ++ o.off

/-- Bits [54:0] of a word with the fields of BrvOp. -/
def bitsBrvOp (o : BrvOp) : BitVec 55 :=
  o.gn ++ o.gp ++ 0#3 ++ o.rcv ++ o.off

/-- Bits [54:0] of a word with the fields of JmpOp. -/
def bitsJmpOp (o : JmpOp) : BitVec 55 :=
  0#23 ++ o.off

/-- Bits [54:0] of a word with the fields of JmpRegOp. -/
def bitsJmpRegOp (o : JmpRegOp) : BitVec 55 :=
  0#7 ++ o.sa ++ 0#8 ++ o.fa ++ 0#32

/-- Bits [54:0] of a word with the fields of CallOp. -/
def bitsCallOp (o : CallOp) : BitVec 55 :=
  o.sl ++ 0#16 ++ o.off

/-- Bits [54:0] of a word with the fields of CallRegOp. -/
def bitsCallRegOp (o : CallRegOp) : BitVec 55 :=
  o.sl ++ o.sa ++ 0#8 ++ o.fa ++ 0#32

/-- Bits [54:0] of a word with the fields of RetOp. -/
def bitsRetOp (o : RetOp) : BitVec 55 :=
  o.sl ++ 0#14 ++ o.fl ++ 0#33

/-- Bits [54:0] of a word with the fields of LoopOp. -/
def bitsLoopOp (o : LoopOp) : BitVec 55 :=
  o.sl ++ 0#14 ++ o.fl ++ 0#1 ++ o.off

/-- Bits [54:0] of a word with the fields of JmpvOp. -/
def bitsJmpvOp (o : JmpvOp) : BitVec 55 :=
  o.gn ++ o.gp ++ 0#11 ++ o.va ++ 0#17 ++ o.fa ++ 0#2 ++ o.rcv

/-- Bits [54:0] of a word with the fields of CallvOp. -/
def bitsCallvOp (o : CallvOp) : BitVec 55 :=
  o.gn ++ o.gp ++ 0#3 ++ o.vd ++ o.va ++ 0#17 ++ o.fa ++ 0#14

/-- Bits [54:0] of a word with the fields of RetvOp. -/
def bitsRetvOp (o : RetvOp) : BitVec 55 :=
  o.gn ++ o.gp ++ 0#11 ++ o.va ++ 0#17 ++ o.fa ++ 0#14

/-- Bits [54:0] of a word with the fields of ExitOp. -/
def bitsExitOp (o : ExitOp) : BitVec 55 :=
  o.gn ++ o.gp ++ 0#51

/-- Bits [54:0] of a word with the fields of PblkOp. -/
def bitsPblkOp (o : PblkOp) : BitVec 55 :=
  o.q ++ 0#1 ++ o.cnt ++ o.pat ++ 0#40

/-- Bits [54:0] of a word with the fields of LdOp. -/
def bitsLdOp (o : LdOp) : BitVec 55 :=
  o.gn ++ o.gp ++ o.size ++ o.vd ++ o.va ++ o.sb ++ o.scope ++ o.ord ++ o.eb ++ o.ec ++ o.pk ++ o.fea ++ 0#1 ++ o.osc ++ o.hint

/-- Bits [54:0] of a word with the fields of StOp. -/
def bitsStOp (o : StOp) : BitVec 55 :=
  o.gn ++ o.gp ++ o.size ++ o.vd ++ o.va ++ o.sb ++ o.scope ++ o.ord ++ 0#13 ++ o.fea ++ o.fed ++ o.osc ++ o.hint

/-- Bits [54:0] of a word with the fields of LdsOp. -/
def bitsLdsOp (o : LdsOp) : BitVec 55 :=
  o.gn ++ o.gp ++ o.size ++ o.vd ++ o.va ++ o.sb ++ o.scope ++ o.ord ++ 0#13 ++ o.fea ++ 0#1 ++ o.osc ++ 0#3

/-- Bits [54:0] of a word with the fields of StsOp. -/
def bitsStsOp (o : StsOp) : BitVec 55 :=
  o.gn ++ o.gp ++ o.size ++ o.vd ++ o.va ++ o.sb ++ o.scope ++ o.ord ++ 0#13 ++ o.fea ++ o.fed ++ o.osc ++ 0#3

/-- Bits [54:0] of a word with the fields of SldOp. -/
def bitsSldOp (o : SldOp) : BitVec 55 :=
  0#4 ++ o.size ++ 0#1 ++ o.vd ++ o.disp ++ o.sb ++ o.scope ++ o.ord ++ 0#13 ++ o.fea ++ 0#1 ++ o.osc ++ 0#3

/-- Bits [54:0] of a word with the fields of SstOp. -/
def bitsSstOp (o : SstOp) : BitVec 55 :=
  0#4 ++ o.size ++ 0#1 ++ o.vd ++ o.disp ++ o.sb ++ o.scope ++ o.ord ++ 0#13 ++ o.fea ++ o.fed ++ o.osc ++ 0#3

/-- Bits [54:0] of a word with the fields of PrefetchOp. -/
def bitsPrefetchOp (o : PrefetchOp) : BitVec 55 :=
  o.gn ++ o.gp ++ 0#11 ++ o.va ++ o.sb ++ 0#18 ++ o.fea ++ 0#1 ++ o.osc ++ o.hint

/-- Bits [54:0] of a word with the fields of XaddOp. -/
def bitsXaddOp (o : XaddOp) : BitVec 55 :=
  o.gn ++ o.gp ++ 2#3 ++ o.vd ++ o.va ++ o.sb ++ o.scope ++ o.ord ++ 0#13 ++ o.fea ++ o.fed ++ o.osc ++ 0#3

/-- Bits [54:0] of a word with the fields of XcvtOp. -/
def bitsXcvtOp (o : XcvtOp) : BitVec 55 :=
  o.gn ++ o.gp ++ 2#3 ++ o.vd ++ o.va ++ o.sb ++ o.scope ++ o.ord ++ 0#13 ++ o.fea ++ 0#1 ++ o.osc ++ 0#3

/-- Bits [54:0] of a word with the fields of AtomOp. -/
def bitsAtomOp (o : AtomOp) : BitVec 55 :=
  o.gn ++ o.gp ++ o.size ++ o.vd ++ o.va ++ o.sb ++ o.scope ++ o.ord ++ o.eb ++ o.ec ++ o.pk ++ o.fea ++ o.fed ++ o.osc ++ o.space

/-- Bits [54:0] of a word with the fields of VTwo. -/
def bitsVTwo (o : VTwo) : BitVec 55 :=
  o.gn ++ o.gp ++ 0#3 ++ o.vd ++ o.va ++ o.vb ++ 0#8 ++ o.vbs ++ o.fa ++ o.fb ++ 0#13

/-- Bits [54:0] of a word with the fields of VTwoU. -/
def bitsVTwoU (o : VTwoU) : BitVec 55 :=
  o.gn ++ o.gp ++ 0#2 ++ o.u ++ o.vd ++ o.va ++ o.vb ++ 0#8 ++ o.vbs ++ o.fa ++ o.fb ++ 0#13

/-- Bits [54:0] of a word with the fields of VThree. -/
def bitsVThree (o : VThree) : BitVec 55 :=
  o.gn ++ o.gp ++ 0#3 ++ o.vd ++ o.va ++ o.vb ++ o.vc ++ o.vbs ++ o.fa ++ o.fb ++ o.fc ++ 0#12

/-- Bits [54:0] of a word with the fields of VThreeU. -/
def bitsVThreeU (o : VThreeU) : BitVec 55 :=
  o.gn ++ o.gp ++ 0#2 ++ o.u ++ o.vd ++ o.va ++ o.vb ++ o.vc ++ o.vbs ++ o.fa ++ o.fb ++ o.fc ++ 0#12

/-- Bits [54:0] of a word with the fields of VShift. -/
def bitsVShift (o : VShift) : BitVec 55 :=
  o.gn ++ o.gp ++ 0#3 ++ o.vd ++ o.va ++ o.vb ++ 0#8 ++ o.vbs ++ o.fa ++ o.fb ++ 0#1 ++ o.imm ++ 0#6 ++ o.cnt

/-- Bits [54:0] of a word with the fields of VSelOp. -/
def bitsVSelOp (o : VSelOp) : BitVec 55 :=
  o.gn ++ o.gp ++ 0#3 ++ o.vd ++ o.va ++ o.vb ++ 0#8 ++ o.vbs ++ o.fa ++ o.fb ++ 0#9 ++ o.neg ++ o.ps

/-- Bits [54:0] of a word with the fields of VMovOp. -/
def bitsVMovOp (o : VMovOp) : BitVec 55 :=
  o.gn ++ o.gp ++ 0#3 ++ o.vd ++ o.vd ++ o.vb ++ 0#8 ++ o.vbs ++ 0#1 ++ o.fb ++ 0#13

/-- Bits [54:0] of a word with the fields of VMoviOp. -/
def bitsVMoviOp (o : VMoviOp) : BitVec 55 :=
  o.gn ++ o.gp ++ 0#3 ++ o.vd ++ o.vd ++ o.imm

/-- Bits [54:0] of a word with the fields of VOne. -/
def bitsVOne (o : VOne) : BitVec 55 :=
  o.gn ++ o.gp ++ 0#3 ++ o.vd ++ o.va ++ 0#17 ++ o.fa ++ 0#14

/-- Bits [54:0] of a word with the fields of VOneRm. -/
def bitsVOneRm (o : VOneRm) : BitVec 55 :=
  o.gn ++ o.gp ++ 0#1 ++ o.rm ++ o.vd ++ o.va ++ 0#17 ++ o.fa ++ 0#14

/-- Bits [54:0] of a word with the fields of VBfxOp. -/
def bitsVBfxOp (o : VBfxOp) : BitVec 55 :=
  o.gn ++ o.gp ++ 0#2 ++ o.u ++ o.vd ++ o.va ++ 0#17 ++ o.fa ++ 0#4 ++ o.n1 ++ o.lo

/-- Bits [54:0] of a word with the fields of VBfiOp. -/
def bitsVBfiOp (o : VBfiOp) : BitVec 55 :=
  o.gn ++ o.gp ++ 0#3 ++ o.vd ++ o.va ++ 0#17 ++ o.fa ++ 0#4 ++ o.n1 ++ o.lo

/-- Bits [54:0] of a word with the fields of VPrmtOp. -/
def bitsVPrmtOp (o : VPrmtOp) : BitVec 55 :=
  o.gn ++ o.gp ++ 0#2 ++ o.i ++ o.vd ++ o.va ++ o.vb ++ o.vc ++ o.vbs ++ o.fa ++ o.fb ++ o.fc ++ o.ctl

/-- Bits [54:0] of a word with the fields of VIdxOp. -/
def bitsVIdxOp (o : VIdxOp) : BitVec 55 :=
  o.gn ++ o.gp ++ 0#3 ++ o.vd ++ 0#8 ++ o.vb ++ 0#8 ++ o.vbs ++ 0#1 ++ o.fb ++ 0#1 ++ o.step

/-- Bits [54:0] of a word with the fields of VCmpOp. -/
def bitsVCmpOp (o : VCmpOp) : BitVec 55 :=
  o.gn ++ o.gp ++ o.ct ++ o.pd1 ++ o.pd2 ++ 0#2 ++ o.va ++ o.vb ++ 0#8 ++ o.vbs ++ o.fa ++ o.fb ++ 0#1 ++ o.rel ++ o.ctyp ++ 0#5

/-- Bits [54:0] of a word with the fields of FClassOp. -/
def bitsFClassOp (o : FClassOp) : BitVec 55 :=
  o.gn ++ o.gp ++ o.ct ++ o.pd1 ++ o.pd2 ++ 0#2 ++ o.va ++ 0#17 ++ o.fa ++ 0#2 ++ o.ty ++ o.mask

/-- Bits [54:0] of a word with the fields of FTwo. -/
def bitsFTwo (o : FTwo) : BitVec 55 :=
  o.gn ++ o.gp ++ o.sat ++ o.rm ++ o.vd ++ o.va ++ o.vb ++ 0#8 ++ o.vbs ++ o.fa ++ o.fb ++ 0#13

/-- Bits [54:0] of a word with the fields of FThree. -/
def bitsFThree (o : FThree) : BitVec 55 :=
  o.gn ++ o.gp ++ o.sat ++ o.rm ++ o.vd ++ o.va ++ o.vb ++ o.vc ++ o.vbs ++ o.fa ++ o.fb ++ o.fc ++ 0#12

/-- Bits [54:0] of a word with the fields of CvtOp. -/
def bitsCvtOp (o : CvtOp) : BitVec 55 :=
  o.gn ++ o.gp ++ o.sat ++ o.rm ++ o.vd ++ o.va ++ o.vb ++ 0#9 ++ o.fa ++ o.fb ++ 0#1 ++ o.dst ++ o.src ++ o.s ++ 0#1 ++ o.sel

/-- Bits [54:0] of a word with the fields of PackOp. -/
def bitsPackOp (o : PackOp) : BitVec 55 :=
  o.gn ++ o.gp ++ o.sat ++ o.rm ++ o.vd ++ o.va ++ o.vb ++ o.vc ++ o.vbs ++ o.fa ++ o.fb ++ o.fc ++ o.dst ++ o.src ++ o.s ++ o.k ++ o.sel

/-- Bits [54:0] of a word with the fields of VShufOp. -/
def bitsVShufOp (o : VShufOp) : BitVec 55 :=
  o.gn ++ o.gp ++ 0#3 ++ o.vd ++ o.va ++ o.vb ++ 0#8 ++ o.vbs ++ o.fa ++ o.fb ++ 0#12 ++ o.wrap

/-- Bits [54:0] of a word with the fields of VLshOp. -/
def bitsVLshOp (o : VLshOp) : BitVec 55 :=
  o.gn ++ o.gp ++ 0#3 ++ o.vd ++ o.va ++ o.vb ++ o.vc ++ o.vbs ++ o.fa ++ o.fb ++ o.fc ++ o.rot ++ o.f ++ 0#2 ++ o.k

/-- Bits [54:0] of a word with the fields of VBcastOp. -/
def bitsVBcastOp (o : VBcastOp) : BitVec 55 :=
  o.gn ++ o.gp ++ 0#3 ++ o.vd ++ o.va ++ o.vb ++ 0#8 ++ o.vbs ++ o.fa ++ o.fb ++ 0#7 ++ o.j

/-- Bits [54:0] of a word with the fields of VRedOp. -/
def bitsVRedOp (o : VRedOp) : BitVec 55 :=
  o.gn ++ o.gp ++ o.sat ++ o.rm ++ o.vd ++ o.va ++ 0#17 ++ o.fa ++ 0#2 ++ o.d ++ 0#7 ++ o.op

/-- Bits [54:0] of a word with the fields of VScanOp. -/
def bitsVScanOp (o : VScanOp) : BitVec 55 :=
  o.gn ++ o.gp ++ o.sat ++ o.rm ++ o.vd ++ o.va ++ 0#17 ++ o.fa ++ 0#9 ++ o.excl ++ o.op

/-- Bits [54:0] of a word with the fields of NPushOp. -/
def bitsNPushOp (o : NPushOp) : BitVec 55 :=
  o.gn ++ o.gp ++ 0#11 ++ o.va ++ 0#17 ++ o.fa ++ 0#12 ++ o.d

/-- Bits [54:0] of a word with the fields of NPopOp. -/
def bitsNPopOp (o : NPopOp) : BitVec 55 :=
  o.gn ++ o.gp ++ 0#3 ++ o.vd ++ 0#38 ++ o.d

/-- Bits [54:0] of a word with the fields of SpawnOp. -/
def bitsSpawnOp (o : SpawnOp) : BitVec 55 :=
  o.gn ++ o.gp ++ 0#11 ++ o.va ++ o.vb ++ 0#8 ++ 1#1 ++ o.fa ++ o.fb ++ 0#13

/-- Bits [54:0] of a word with the fields of MldwOp. -/
def bitsMldwOp (o : MldwOp) : BitVec 55 :=
  0#7 ++ o.sa ++ o.sb ++ o.fa ++ o.fb ++ o.t ++ 0#12 ++ o.vS ++ o.s ++ 0#1 ++ o.fmt

/-- Bits [54:0] of a word with the fields of MstreamOp. -/
def bitsMstreamOp (o : MstreamOp) : BitVec 55 :=
  0#7 ++ o.sa ++ o.sb ++ o.fa ++ o.fb ++ o.t ++ o.a ++ 0#10 ++ o.vS ++ o.s ++ 0#1 ++ o.fmt

/-- Bits [54:0] of a word with the fields of MdrainOp. -/
def bitsMdrainOp (o : MdrainOp) : BitVec 55 :=
  0#7 ++ o.sa ++ o.sb ++ o.fa ++ o.fb ++ o.t ++ o.a ++ 0#17 ++ o.sat ++ o.rm ++ o.fmt

/-- Bits [54:0] of a word with the fields of MzeroOp. -/
def bitsMzeroOp (o : MzeroOp) : BitVec 55 :=
  0#29 ++ o.a ++ 0#23 ++ o.i

/-- Bits [54:0] of a word with the fields of SdOp. -/
def bitsSdOp (o : SdOp) : BitVec 55 :=
  o.sd ++ 0#48

/-- Bits [54:0] of a word with the fields of MwaitOp. -/
def bitsMwaitOp (o : MwaitOp) : BitVec 55 :=
  0#7 ++ o.sa ++ 0#7 ++ o.fa ++ 0#24 ++ o.imm ++ o.n

/-- Bits [54:0] of a word with the fields of TdefOp. -/
def bitsTdefOp (o : TdefOp) : BitVec 55 :=
  o.sd ++ o.sa ++ o.sb ++ o.fa ++ o.fb ++ o.t ++ 0#26

/-- Bits [54:0] of a word with the fields of TloadOp. -/
def bitsTloadOp (o : TloadOp) : BitVec 55 :=
  0#7 ++ o.sa ++ o.sb ++ o.fa ++ o.fb ++ o.t ++ 0#24 ++ o.tr

/-- Bits [54:0] of a word with the fields of TstoreOp. -/
def bitsTstoreOp (o : TstoreOp) : BitVec 55 :=
  0#7 ++ o.sa ++ o.sb ++ o.fa ++ o.fb ++ o.t ++ 0#26

/-- Bits [54:0] of a word with the fields of TileOp. -/
def bitsTileOp (o : TileOp) : BitVec 55 :=
  0#23 ++ o.t ++ 0#26

/-- Bits [54:0] of a word with the fields of TstatOp. -/
def bitsTstatOp (o : TstatOp) : BitVec 55 :=
  o.sd ++ 0#16 ++ o.t ++ 0#26

/-- Bits [54:0] of a word with the fields of SaSbOp. -/
def bitsSaSbOp (o : SaSbOp) : BitVec 55 :=
  0#7 ++ o.sa ++ o.sb ++ o.fa ++ o.fb ++ 0#32

/-- Bits [54:0] of a word with the fields of FwaitOp. -/
def bitsFwaitOp (o : FwaitOp) : BitVec 55 :=
  0#7 ++ o.sa ++ o.sb ++ o.fa ++ o.fb ++ 0#30 ++ o.reg ++ o.ph

/-- Bits [54:0] of a word with the fields of BinitOp. -/
def bitsBinitOp (o : BinitOp) : BitVec 55 :=
  0#7 ++ o.sa ++ 0#7 ++ o.fa ++ 0#9 ++ o.b ++ o.scope ++ 0#16

/-- Bits [54:0] of a word with the fields of PointOp. -/
def bitsPointOp (o : PointOp) : BitVec 55 :=
  0#31 ++ o.b ++ 0#19

/-- Bits [54:0] of a word with the fields of SdSaOp. -/
def bitsSdSaOp (o : SdSaOp) : BitVec 55 :=
  o.sd ++ o.sa ++ 0#7 ++ o.fa ++ 0#33

/-- Bits [54:0] of a word with the fields of QResOp. -/
def bitsQResOp (o : QResOp) : BitVec 55 :=
  o.sd ++ o.sa ++ 0#7 ++ o.fa ++ 0#19 ++ 1#14

/-- Bits [54:0] of a word with the fields of QCmtOp. -/
def bitsQCmtOp (o : QCmtOp) : BitVec 55 :=
  0#7 ++ o.sa ++ 0#7 ++ o.fa ++ 0#19 ++ 2#14

/-- Bits [54:0] of a word with the fields of SaOp. -/
def bitsSaOp (o : SaOp) : BitVec 55 :=
  0#7 ++ o.sa ++ 0#7 ++ o.fa ++ 0#33

/-- Bits [54:0] of a word with the fields of FenceOp. -/
def bitsFenceOp (o : FenceOp) : BitVec 55 :=
  0#36 ++ o.scope ++ o.ord ++ 0#14

/-- Bits [54:0] of a word with the fields of XtplOp. -/
def bitsXtplOp (o : XtplOp) : BitVec 55 :=
  0#7 ++ o.sa ++ 0#7 ++ o.fa ++ 0#28 ++ o.i

/-- Bits [54:0] of a word with the fields of XqueryOp. -/
def bitsXqueryOp (o : XqueryOp) : BitVec 55 :=
  o.sd ++ 0#43 ++ o.i

/-- Bits [54:0] of a word with the fields of CopenOp. -/
def bitsCopenOp (o : CopenOp) : BitVec 55 :=
  o.sd ++ o.sa ++ 0#7 ++ o.fa ++ 0#32 ++ o.span

/-- Bits [54:0] of a word with the fields of CbindOp. -/
def bitsCbindOp (o : CbindOp) : BitVec 55 :=
  o.sd ++ o.sa ++ 0#7 ++ o.fa ++ 0#30 ++ o.role

/-- Bits [54:0] of a word with the fields of CsendOp. -/
def bitsCsendOp (o : CsendOp) : BitVec 55 :=
  0#7 ++ o.sa ++ o.sb ++ o.fa ++ o.fb ++ 0#21 ++ o.n ++ o.kind ++ o.role

/-- Bits [54:0] of a word with the fields of CrecvOp. -/
def bitsCrecvOp (o : CrecvOp) : BitVec 55 :=
  o.sd ++ o.sa ++ o.sb ++ o.fa ++ 0#30 ++ o.role

/-- Bits [54:0] of a word with the fields of CdelegOp. -/
def bitsCdelegOp (o : CdelegOp) : BitVec 55 :=
  0#7 ++ o.sa ++ 0#7 ++ o.fa ++ 0#30 ++ o.role

/-- Bits [54:0] of a word with the fields of SrdOp. -/
def bitsSrdOp (o : SrdOp) : BitVec 55 :=
  o.sd ++ o.sa ++ 0#7 ++ o.fa ++ 0#19 ++ o.v ++ o.cls ++ o.idx

/-- Bits [54:0] of a word with the fields of SwrOp. -/
def bitsSwrOp (o : SwrOp) : BitVec 55 :=
  o.sd ++ o.sa ++ 0#7 ++ o.fa ++ 0#20 ++ o.cls ++ o.idx

/-- Bits [54:0] of a word with the fields of ImmOp. -/
def bitsImmOp (o : ImmOp) : BitVec 55 :=
  0#47 ++ o.imm

/-- Bits [54:0] of a word with the fields of IinvOp. -/
def bitsIinvOp (o : IinvOp) : BitVec 55 :=
  0#7 ++ o.sa ++ o.sb ++ o.fa ++ o.fb ++ 0#13 ++ o.scope ++ 0#16

/-- Bits [54:0] of a word with the fields of ChkerrOp. -/
def bitsChkerrOp (o : ChkerrOp) : BitVec 55 :=
  o.sd ++ 0#47 ++ o.clr

/-- Bits [54:0] of a word with the fields of LaunchOp. -/
def bitsLaunchOp (o : LaunchOp) : BitVec 55 :=
  o.sd ++ o.sa ++ o.sb ++ o.fa ++ o.fb ++ 0#32

/-- Bits [30:0] of one half (R162). -/
def bitsHalf (h : HalfOp) : BitVec 31 := h.hop ++ h.vd ++ h.vs ++ h.gp ++ h.imm

/-- A full word from its major opcode and bits [54:0] (R150). -/
def fullWord (op : BitVec 8) (body : BitVec 55) : Word := 0#1 ++ op ++ body

/-- The word that holds an instruction; none for a device step, which no word holds. -/
def encode (i : Instr) : Option Word :=
  match i with
  | .sadd o => some (fullWord 0x10#8 (bitsSRegs o))
  | .saddImm o => some (fullWord 0x11#8 (bitsSImm o))
  | .ssub o => some (fullWord 0x12#8 (bitsSRegs o))
  | .ssubImm o => some (fullWord 0x13#8 (bitsSImm o))
  | .smul o => some (fullWord 0x14#8 (bitsSRegs o))
  | .smulImm o => some (fullWord 0x15#8 (bitsSImm o))
  | .smulh o => some (fullWord 0x16#8 (bitsSRegs o))
  | .smulhImm o => some (fullWord 0x17#8 (bitsSImm o))
  | .sdiv o => some (fullWord 0x18#8 (bitsSRegs o))
  | .sdivImm o => some (fullWord 0x19#8 (bitsSImm o))
  | .sdivu o => some (fullWord 0x1A#8 (bitsSRegs o))
  | .sdivuImm o => some (fullWord 0x1B#8 (bitsSImm o))
  | .srem o => some (fullWord 0x1C#8 (bitsSRegs o))
  | .sremImm o => some (fullWord 0x1D#8 (bitsSImm o))
  | .sremu o => some (fullWord 0x1E#8 (bitsSRegs o))
  | .sremuImm o => some (fullWord 0x1F#8 (bitsSImm o))
  | .sand o => some (fullWord 0x20#8 (bitsSRegs o))
  | .sandImm o => some (fullWord 0x21#8 (bitsSImm o))
  | .sor o => some (fullWord 0x22#8 (bitsSRegs o))
  | .sorImm o => some (fullWord 0x23#8 (bitsSImm o))
  | .sxor o => some (fullWord 0x24#8 (bitsSRegs o))
  | .sxorImm o => some (fullWord 0x25#8 (bitsSImm o))
  | .sshl o => some (fullWord 0x26#8 (bitsSRegs o))
  | .sshlImm o => some (fullWord 0x27#8 (bitsSImm o))
  | .sshr o => some (fullWord 0x28#8 (bitsSRegs o))
  | .sshrImm o => some (fullWord 0x29#8 (bitsSImm o))
  | .ssra o => some (fullWord 0x2A#8 (bitsSRegs o))
  | .ssraImm o => some (fullWord 0x2B#8 (bitsSImm o))
  | .smin o => some (fullWord 0x2C#8 (bitsSRegs o))
  | .sminImm o => some (fullWord 0x2D#8 (bitsSImm o))
  | .sminu o => some (fullWord 0x2E#8 (bitsSRegs o))
  | .sminuImm o => some (fullWord 0x2F#8 (bitsSImm o))
  | .smax o => some (fullWord 0x30#8 (bitsSRegs o))
  | .smaxImm o => some (fullWord 0x31#8 (bitsSImm o))
  | .smaxu o => some (fullWord 0x32#8 (bitsSRegs o))
  | .smaxuImm o => some (fullWord 0x33#8 (bitsSImm o))
  | .smov o => some (fullWord 0x34#8 (bitsSOne o))
  | .smovi o => some (fullWord 0x35#8 (bitsSConst o))
  | .smovh o => some (fullWord 0x37#8 (bitsSConst o))
  | .slea o => some (fullWord 0x38#8 (bitsSLeaRegs o))
  | .sleaImm o => some (fullWord 0x39#8 (bitsSLeaImm o))
  | .sclz o => some (fullWord 0x3A#8 (bitsSOne o))
  | .spopc o => some (fullWord 0x3C#8 (bitsSOne o))
  | .ssel o => some (fullWord 0x3E#8 (bitsSSelRegs o))
  | .sselImm o => some (fullWord 0x3F#8 (bitsSSelImm o))
  | .sext o => some (fullWord 0x40#8 (bitsSExt o))
  | .sbfx o => some (fullWord 0x42#8 (bitsSBfx o))
  | .sbfi o => some (fullWord 0x44#8 (bitsSBfi o))
  | .scmp o => some (fullWord 0x46#8 (bitsSCmpRegs o))
  | .scmpImm o => some (fullWord 0x47#8 (bitsSCmpImm o))
  | .qand o => some (fullWord 0x48#8 (bitsQOp o))
  | .qor o => some (fullWord 0x49#8 (bitsQOp o))
  | .qxor o => some (fullWord 0x4A#8 (bitsQOp o))
  | .vote o => some (fullWord 0x4B#8 (bitsVoteOp o))
  | .pcount o => some (fullWord 0x4C#8 (bitsPCountOp o))
  | .pmovToScalar o => some (fullWord 0x4D#8 (bitsPCountOp o))
  | .pmovToPredicate o => some (fullWord 0x4D#8 (bitsPMovToPred o))
  | .gsplit o => some (fullWord 0x4E#8 (bitsWidthOp o))
  | .gfuse o => some (fullWord 0x4F#8 (bitsWidthOp o))
  | .brq o => some (fullWord 0x50#8 (bitsBrqOp o))
  | .brv o => some (fullWord 0x51#8 (bitsBrvOp o))
  | .jmp o => some (fullWord 0x52#8 (bitsJmpOp o))
  | .jmpReg o => some (fullWord 0x53#8 (bitsJmpRegOp o))
  | .call o => some (fullWord 0x54#8 (bitsCallOp o))
  | .callReg o => some (fullWord 0x55#8 (bitsCallRegOp o))
  | .ret o => some (fullWord 0x56#8 (bitsRetOp o))
  | .loop o => some (fullWord 0x57#8 (bitsLoopOp o))
  | .jmpv o => some (fullWord 0x58#8 (bitsJmpvOp o))
  | .callv o => some (fullWord 0x59#8 (bitsCallvOp o))
  | .retv o => some (fullWord 0x5A#8 (bitsRetvOp o))
  | .exit o => some (fullWord 0x5B#8 (bitsExitOp o))
  | .pblk o => some (fullWord 0x5C#8 (bitsPblkOp o))
  | .ld o => some (fullWord 0x60#8 (bitsLdOp o))
  | .st o => some (fullWord 0x61#8 (bitsStOp o))
  | .lds o => some (fullWord 0x64#8 (bitsLdsOp o))
  | .sts o => some (fullWord 0x65#8 (bitsStsOp o))
  | .ldv o => some (fullWord 0x66#8 (bitsLdsOp o))
  | .stv o => some (fullWord 0x67#8 (bitsStsOp o))
  | .sld o => some (fullWord 0x62#8 (bitsSldOp o))
  | .sst o => some (fullWord 0x63#8 (bitsSstOp o))
  | .prefetch o => some (fullWord 0x68#8 (bitsPrefetchOp o))
  | .xadd o => some (fullWord 0x69#8 (bitsXaddOp o))
  | .xcvt o => some (fullWord 0x6A#8 (bitsXcvtOp o))
  | .atomAdd o => some (fullWord 0x70#8 (bitsAtomOp o))
  | .atomSub o => some (fullWord 0x71#8 (bitsAtomOp o))
  | .atomMin o => some (fullWord 0x72#8 (bitsAtomOp o))
  | .atomMinu o => some (fullWord 0x73#8 (bitsAtomOp o))
  | .atomMax o => some (fullWord 0x74#8 (bitsAtomOp o))
  | .atomMaxu o => some (fullWord 0x75#8 (bitsAtomOp o))
  | .atomAnd o => some (fullWord 0x76#8 (bitsAtomOp o))
  | .atomOr o => some (fullWord 0x77#8 (bitsAtomOp o))
  | .atomXor o => some (fullWord 0x78#8 (bitsAtomOp o))
  | .atomExch o => some (fullWord 0x79#8 (bitsAtomOp o))
  | .atomCas o => some (fullWord 0x7A#8 (bitsAtomOp o))
  | .atomInc o => some (fullWord 0x7B#8 (bitsAtomOp o))
  | .atomDec o => some (fullWord 0x7C#8 (bitsAtomOp o))
  | .atomFadd o => some (fullWord 0x7D#8 (bitsAtomOp o))
  | .atomFmin o => some (fullWord 0x7E#8 (bitsAtomOp o))
  | .atomFmax o => some (fullWord 0x7F#8 (bitsAtomOp o))
  | .vadd o => some (fullWord 0x80#8 (bitsVTwo o))
  | .vsub o => some (fullWord 0x81#8 (bitsVTwo o))
  | .vmul o => some (fullWord 0x82#8 (bitsVTwo o))
  | .vmulh o => some (fullWord 0x83#8 (bitsVTwoU o))
  | .vmad o => some (fullWord 0x84#8 (bitsVThree o))
  | .vaddsat o => some (fullWord 0x85#8 (bitsVTwoU o))
  | .vsubsat o => some (fullWord 0x86#8 (bitsVTwoU o))
  | .vand o => some (fullWord 0x87#8 (bitsVTwo o))
  | .vor o => some (fullWord 0x88#8 (bitsVTwo o))
  | .vxor o => some (fullWord 0x89#8 (bitsVTwo o))
  | .vshl o => some (fullWord 0x8A#8 (bitsVShift o))
  | .vshr o => some (fullWord 0x8B#8 (bitsVShift o))
  | .vsra o => some (fullWord 0x8C#8 (bitsVShift o))
  | .vmin o => some (fullWord 0x8D#8 (bitsVTwoU o))
  | .vmax o => some (fullWord 0x8E#8 (bitsVTwoU o))
  | .vabsd o => some (fullWord 0x8F#8 (bitsVTwoU o))
  | .vaddmin o => some (fullWord 0x90#8 (bitsVThreeU o))
  | .vaddmax o => some (fullWord 0x91#8 (bitsVThreeU o))
  | .vsel o => some (fullWord 0x92#8 (bitsVSelOp o))
  | .vmov o => some (fullWord 0x93#8 (bitsVMovOp o))
  | .vmovi o => some (fullWord 0x94#8 (bitsVMoviOp o))
  | .vclz o => some (fullWord 0x95#8 (bitsVOne o))
  | .vpopc o => some (fullWord 0x96#8 (bitsVOne o))
  | .vbfx o => some (fullWord 0x97#8 (bitsVBfxOp o))
  | .vbfi o => some (fullWord 0x98#8 (bitsVBfiOp o))
  | .vprmt o => some (fullWord 0x99#8 (bitsVPrmtOp o))
  | .vidx o => some (fullWord 0x9A#8 (bitsVIdxOp o))
  | .vcmp o => some (fullWord 0x9B#8 (bitsVCmpOp o))
  | .fadd o => some (fullWord 0xA0#8 (bitsFTwo o))
  | .fsub o => some (fullWord 0xA1#8 (bitsFTwo o))
  | .fmul o => some (fullWord 0xA2#8 (bitsFTwo o))
  | .ffma o => some (fullWord 0xA3#8 (bitsFThree o))
  | .fmin o => some (fullWord 0xA4#8 (bitsVTwo o))
  | .fmax o => some (fullWord 0xA5#8 (bitsVTwo o))
  | .frcp o => some (fullWord 0xA6#8 (bitsVOne o))
  | .frsq o => some (fullWord 0xA7#8 (bitsVOne o))
  | .fsqrt o => some (fullWord 0xA8#8 (bitsVOneRm o))
  | .fexp2 o => some (fullWord 0xA9#8 (bitsVOne o))
  | .flog2 o => some (fullWord 0xAA#8 (bitsVOne o))
  | .fsin o => some (fullWord 0xAB#8 (bitsVOne o))
  | .fcos o => some (fullWord 0xAC#8 (bitsVOne o))
  | .fcmp o => some (fullWord 0xAD#8 (bitsVCmpOp o))
  | .fclass o => some (fullWord 0xAE#8 (bitsFClassOp o))
  | .cvt o => some (fullWord 0xB0#8 (bitsCvtOp o))
  | .pack o => some (fullWord 0xB1#8 (bitsPackOp o))
  | .unpack o => some (fullWord 0xB2#8 (bitsCvtOp o))
  | .vshuf o => some (fullWord 0xB3#8 (bitsVShufOp o))
  | .vlsh o => some (fullWord 0xB4#8 (bitsVLshOp o))
  | .vbcast o => some (fullWord 0xB5#8 (bitsVBcastOp o))
  | .vred o => some (fullWord 0xB6#8 (bitsVRedOp o))
  | .vscan o => some (fullWord 0xB7#8 (bitsVScanOp o))
  | .npush o => some (fullWord 0xB8#8 (bitsNPushOp o))
  | .npop o => some (fullWord 0xB9#8 (bitsNPopOp o))
  | .spawn o => some (fullWord 0xBA#8 (bitsSpawnOp o))
  | .mldw o => some (fullWord 0xC0#8 (bitsMldwOp o))
  | .mswap => some (fullWord 0xC1#8 0#55)
  | .mstream o => some (fullWord 0xC2#8 (bitsMstreamOp o))
  | .mdrain o => some (fullWord 0xC3#8 (bitsMdrainOp o))
  | .mzero o => some (fullWord 0xC4#8 (bitsMzeroOp o))
  | .mbatch o => some (fullWord 0xC5#8 (bitsSdOp o))
  | .mwait o => some (fullWord 0xC6#8 (bitsMwaitOp o))
  | .mstat o => some (fullWord 0xC7#8 (bitsSdOp o))
  | .tdef o => some (fullWord 0xC8#8 (bitsTdefOp o))
  | .tload o => some (fullWord 0xC9#8 (bitsTloadOp o))
  | .tstore o => some (fullWord 0xCA#8 (bitsTstoreOp o))
  | .trel o => some (fullWord 0xCB#8 (bitsTileOp o))
  | .tstat o => some (fullWord 0xCC#8 (bitsTstatOp o))
  | .finit o => some (fullWord 0xD0#8 (bitsSaSbOp o))
  | .fexpect o => some (fullWord 0xD1#8 (bitsSaSbOp o))
  | .fwait o => some (fullWord 0xD2#8 (bitsFwaitOp o))
  | .binit o => some (fullWord 0xD3#8 (bitsBinitOp o))
  | .barv o => some (fullWord 0xD4#8 (bitsPointOp o))
  | .bwait o => some (fullWord 0xD5#8 (bitsPointOp o))
  | .bsync o => some (fullWord 0xD6#8 (bitsPointOp o))
  | .qinit o => some (fullWord 0xD7#8 (bitsSaSbOp o))
  | .qpush o => some (fullWord 0xD8#8 (bitsSaSbOp o))
  | .qpushRes o => some (fullWord 0xD8#8 (bitsQResOp o))
  | .qpushCmt o => some (fullWord 0xD8#8 (bitsQCmtOp o))
  | .qpop o => some (fullWord 0xD9#8 (bitsSaSbOp o))
  | .qwait o => some (fullWord 0xDA#8 (bitsSdSaOp o))
  | .qrel o => some (fullWord 0xDB#8 (bitsSaOp o))
  | .fence o => some (fullWord 0xDC#8 (bitsFenceOp o))
  | .xtpl o => some (fullWord 0xE0#8 (bitsXtplOp o))
  | .xpost o => some (fullWord 0xE1#8 (bitsSaSbOp o))
  | .xquery o => some (fullWord 0xE2#8 (bitsXqueryOp o))
  | .cproto o => some (fullWord 0xE3#8 (bitsSdSaOp o))
  | .copen o => some (fullWord 0xE4#8 (bitsCopenOp o))
  | .cbind o => some (fullWord 0xE5#8 (bitsCbindOp o))
  | .csend o => some (fullWord 0xE6#8 (bitsCsendOp o))
  | .crecv o => some (fullWord 0xE7#8 (bitsCrecvOp o))
  | .cdeleg o => some (fullWord 0xE8#8 (bitsCdelegOp o))
  | .cclose o => some (fullWord 0xE9#8 (bitsSaOp o))
  | .srd o => some (fullWord 0xF0#8 (bitsSrdOp o))
  | .swr o => some (fullWord 0xF1#8 (bitsSwrOp o))
  | .trap o => some (fullWord 0xF2#8 (bitsImmOp o))
  | .rett => some (fullWord 0xF3#8 0#55)
  | .brk o => some (fullWord 0xF4#8 (bitsImmOp o))
  | .nop => some (fullWord 0xF5#8 0#55)
  | .isync => some (fullWord 0xF6#8 0#55)
  | .iinv o => some (fullWord 0xF7#8 (bitsIinvOp o))
  | .pnopre => some (fullWord 0xF8#8 0#55)
  | .ppre => some (fullWord 0xF9#8 0#55)
  | .chkerr o => some (fullWord 0xFA#8 (bitsChkerrOp o))
  | .launch o => some (fullWord 0xFB#8 (bitsLaunchOp o))
  | .yield => some (fullWord 0xFC#8 0#55)
  | .pairWord p => some (1#1 ++ 0#1 ++ bitsHalf p.a ++ bitsHalf p.b)
  | .undefinedInstruction w => some w
  | .matrixTeamSwitch _ => none
  | .mldwLoaded _ _ => none
  | .mswapTakesEffect _ _ => none
  | .mstreamPassed _ _ => none
  | .mdrainDone _ _ => none
  | .mzeroDone _ _ => none
  | .tloadCopyDone _ _ => none
  | .tstoreDone _ => none
  | .barvArrivalCounted _ => none
  | .convMessageAtHome _ _ => none
  | .loadReply _ _ => none
  | .storeAcknowledged _ => none
  | .coachAtAnchor _ => none
  | .coachAccessDone _ => none
  | .coachLanding _ => none
  | .coachBounceLanding _ => none
  | .coachFaultReturn _ => none
  | .coachLost _ => none
  | .coachGuardFailure _ => none
  | .landingAreaReseat _ => none
  | .reseatWaitExpiry _ => none
  | .odnTrainInject _ => none
  | .odnTrainDelivered _ => none
  | .ownerNotice _ => none
  | .writebackAtSlice _ => none
  | .writebackRequest _ _ => none
  | .promotionRequest _ => none
  | .promotionAck _ => none
  | .writebackAck _ => none
  | .translationWalkDone _ => none
  | .spawnBinTimerExpiry _ _ => none
  | .spawnBinLaunch _ _ => none
  | .spawnedGroupEnd _ => none
  | .lqtailWrite _ _ => none
  | .lqEnable _ _ => none
  | .lqDisable _ _ => none
  | .lqResume _ => none
  | .lqSkip _ => none
  | .lqstatClear _ => none
  | .launchActivation _ => none
  | .dependenceRecheck _ => none
  | .distributorTurn => none
  | .teamRetire _ => none
  | .preemptionWaitExpiry _ => none
  | .preemptionRequest _ => none
  | .preemptionHoldOverrun _ _ => none
  | .saveComplete _ => none
  | .tcinvWrite _ _ => none
  | .tcinvComplete _ => none
  | .btePostAccept _ => none
  | .bteCartSend _ => none
  | .postFinish _ => none
  | .remoteWritePacket _ _ _ _ _ _ => none
  | .remoteWriteAck _ _ _ => none
  | .remoteReadRequest _ _ _ _ => none
  | .remoteReadReply _ _ _ _ => none
  | .remoteAtomic _ _ _ _ _ _ _ _ => none
  | .requestTimeout _ _ => none
  | .lateAnswer _ _ _ => none
  | .collectivePacket _ _ => none
  | .collectiveInstanceComplete _ _ => none
  | .flitBlockReceive _ _ _ _ _ => none
  | .blockAck _ _ => none
  | .blockNak _ _ => none
  | .blockCloseTimer _ _ => none
  | .idleFlitTimer _ => none
  | .confirmMarker _ _ => none
  | .cancelMarker _ _ => none
  | .linkSilenceTimeout _ => none
  | .discardNotice _ _ => none
  | .fatalReport _ => none
  | .propose _ => none
  | .accept _ => none
  | .reject _ _ => none
  | .wait _ => none
  | .proposeAnswerTimeout _ => none
  | .commit _ => none
  | .join _ => none
  | .viewnumWrite _ => none
  | .frposWrite _ => none
  | .registerWrite _ _ => none
  | .powerUp _ => none
  | .powerOff => none
  | .claim _ => none
  | .go _ => none
  | .bootVerifyDone => none
  | .hostControlAccess _ _ _ _ _ => none
  | .getVersion _ => none
  | .getCapabilities _ => none
  | .negotiateAlgorithms _ => none
  | .getDigests _ => none
  | .getCertificate _ _ => none
  | .challenge _ _ _ => none
  | .getMeasurements _ _ _ => none
  | .keyExchange _ _ => none
  | .finish _ _ => none
  | .endSession _ => none
  | .vendorDefinedRequest _ _ => none
  | .mrExtend _ _ => none
  | .config _ => none
  | .lock _ => none
  | .start _ => none
  | .stop _ => none
  | .reset _ => none
  | .portConfigWrite _ _ _ => none
  | .securityAlarm _ => none
  | .junction100C => none
  | .junction110C => none
  | .inFieldTest _ => none
  | .checkPoint _ => none
  | .injectionFire _ => none
  | .linkDownReport _ _ => none
  | .refusedCollectivePacket _ _ => none
  | .inFieldTestEnd _ => none

end Sys2Proof
end

