-- ==== Sys2Proof/Config.lean ====
section
/-!
DEFINITION. What is fixed for the machine: its sizes, and the free values, which nothing in Lean can evaluate.

A free value stands wherever the manual leaves a value, an order or an arrival open; a statement about the machine
holds whatever it is.
-/

namespace Sys2Proof

/-- The storage structures and paths that codes and parity protect (R405). -/
inductive Structure where
  | registers | coachPayload | landingArea | loadValues | scratchpad | vault | l1 | homeSlice | coachStore | compareBuffer
  | dram | odnFlit | linkWord | cart | plane | accumulator | icache | tlb | tileTable | stack | tagTable | record
  | checkArea
  deriving DecidableEq, Repr, Inhabited

/-- What happens in one step. `issue` gives one pipe of one core its cycle, after which `cycles` cycles of that core
have passed (R70); `event` is a step of the device or of the outside world; `tick` lets time pass on the clock of a
block (R9); `firmware` is a DRAM access of the management core (R346); `lane` is the access of one lane of an outstanding
instruction, apart from those of its other lanes (R109); `forward` is a packet of another device for a third one, on its
way through this one (R311); `upset` is an error of a structure, corrected or not (R405). -/
inductive Turn where
  | issue (core pipe cycles : Nat)
  | event (i : Instr)
  | firmware (write : Bool) (addr : Nat) (v : Word)
  | lane (out k : Nat)
  | forward (port src dev vc flits : Nat)
  | upset (st : Structure) (i j k : Nat) (corrected : Bool)
  | tick (clock cycles : Nat)
  deriving DecidableEq, Repr, Inhabited

namespace Config

/-- The turn the environment takes when no turn is on the agenda: any turn at all (log 1). -/
opaque turn : Nat → Turn

/-- A free bit (log 4). -/
opaque freeBit : Nat → Bool

/-- The free credits that a router sees on a channel: the manual gives no count of them (R311, log 8). -/
opaque freeCredits : Nat → Nat

/-- Bytes of a context record whose place in it the manual does not give, by write and offset (R66, log 50). -/
opaque freeByte : Nat → Nat → Byte

/-- The device's approximation of a one-source FP32 function, by its opcode: a fixed function of its input, within
the bound of R216 (log 5). -/
opaque approx : Nat → Lane → Lane

/-- SHA-256 of a message (R337, R339). -/
opaque sha256 : List Byte → BitVec 256

/-- Whether an LMS signature verifies: public key, message, signature (R337). -/
opaque lmsVerifies : List Byte → List Byte → List Byte → Bool

/-- The LMS signature of a message under the boot's tree: seed, leaf, message (R341). -/
opaque lmsSign : BitVec 64 → Nat → List Byte → List Byte

/-- The certificate chain of slot 0, by the boot's leaf index and seed (R342). -/
opaque certificate : Nat → BitVec 64 → List Byte

/-- The responder's key share and session secret for a peer's share (R342). -/
opaque keyShare : BitVec 64 → List Byte → List Byte × BitVec 256

/-- The text of the boot ROM, which MR0 measures (R339). -/
opaque romText : List Byte

/-- The fused hash of the firmware key, the fused security floor and the leaf count blown at manufacture (R337,
R340). -/
opaque fusedKeyHash : BitVec 256
/-- The fused floor of the security version (R337). -/
opaque fusedFloor : Nat
/-- The counter fuses blown before this model's first boot (R340). -/
opaque fusedCount : Nat

/-- Installed DRAM, C of R74. -/
def dramSize : Nat := 0x9000000000
/-- The start and size of the vault window (R74). -/
def vaultBase : Nat := 0xE000000000000
/-- The size of the vault window: 14 vaults of 24 MiB (R74). -/
def vaultSize : Nat := 0x15000000
/-- The size of one vault (R74). -/
def vaultEach : Nat := 0x1800000
/-- The aperture of the BTE of cluster 0 (R74). -/
def apertureBase : Nat := 0xF000000000000
/-- The device control window (R74). -/
def controlBase : Nat := 0xF800000000000
/-- Cores of the device (R2). -/
def cores : Nat := 196
/-- Cores of a cluster (R2). -/
def coresPerCluster : Nat := 14
/-- Clusters of the device (R2). -/
def clusters : Nat := 14
/-- Home slices (R2). -/
def slices : Nat := 98
/-- Group slots of a core (R2). -/
def slots : Nat := 256
/-- Team slots of a core (R61). -/
def teamSlots : Nat := 32
/-- Rows a core seats (R61). -/
def rowsSeated : Nat := 8192
/-- Rows a core admits (R61). -/
def rowsAdmitted : Nat := 12288
/-- Scratchpad granules of a core (R2). -/
def granules : Nat := 128
/-- Carriages a core may have abroad (R2). -/
def coreAllowance : Nat := 4096
/-- Coach tags of a core (R2). -/
def tags : Nat := 1024
/-- Total depth of a divergence stack (R22). -/
def stackDepth : Nat := 512
/-- Live strands of a group (R20). -/
def liveStrands : Nat := 4
/-- Lines of an L1: 128 KiB of 128 bytes (R2). -/
def l1Lines : Nat := 1024
/-- Words of a core's instruction cache: 64 KiB (R2). -/
def icacheWords : Nat := 8192
/-- Words of a cluster's instruction cache: 1 MiB (R2). -/
def cicacheWords : Nat := 131072
/-- Entries of a first-level and of a second-level TLB (R85). -/
def tlb1Size : Nat := 64
/-- Entries of a second-level TLB (R85). -/
def tlb2Size : Nat := 4096

/-- The clock of the distributor (R9). -/
def clockDist : Nat := 1000
/-- The clock of a BTE. -/
def clockBte (g : Nat) : Nat := 1100 + g
/-- The clock of a Frenum port. -/
def clockPort (p : Nat) : Nat := 1200 + p
/-- The clock of the agreement of views. -/
def clockView : Nat := 1300

end Config

end Sys2Proof
end

