-- ==== Sys2Proof/Machine/State.lean ====
section
/-!
DEFINITION. The state of the device, as plain data, and its value right after reset.

Every table is a list of (key, value) pairs with rising keys; a key that is not listed holds the default value of its
table. Memory is such a list of bytes, in which no entry equals what an unlisted address reads as.
-/

namespace Sys2Proof.Machine

/-- Why a step stops with a fault. -/
inductive Fault where
  /-- Raised by `step` when a core is given its cycle while the device has no power (R331). Safe: nothing runs then. -/
  | noPower
  deriving DecidableEq, Repr

/-- Why a step is refused. -/
inductive Refusal where
  /-- Raised by an arm of `exec` whose instruction has no meaning yet. Safe: nothing can be proved of it. -/
  | notModelled (mnemonic : String)
  deriving DecidableEq, Repr

/-- Bytes at addresses, in canonical form. -/
abbrev Memory := List Host.Cell

/-- A sparse table: values at rising keys. -/
abbrev Tab (α : Type) := List (Nat × α)

/-- A trap on its way to a strand: its code, the lane and immediate of sr.tinfo, sr.taddr, and the resume PC where it
is not the strand's own (R286, R356, R360). -/
structure TrapInfo where
  code : BitVec 8 := 0#8
  lane : Nat := 0
  imm : BitVec 16 := 0#16
  addr : Word := 0#64
  tpc : Option Word := none
  deriving DecidableEq, Repr, Inhabited

/-- The state of a strand's PBLK: the sample, the words left and their pattern (R170). -/
structure Block where
  sample : Bool := false
  left : Nat := 0
  pattern : BitVec 8 := 0#8
  deriving DecidableEq, Repr, Inhabited

/-- What a divergence-stack entry is doing: live, waiting for a live place, a parent that waits to merge, or at its
reconvergence PC (R20, R21). -/
inductive EntryMode where
  | live | pending | parent | merging
  deriving DecidableEq, Repr, Inhabited

/-- A divergence-stack entry (R18) with the strand's own state: its block (R170), region flag (R292), recorded phases
(R35), pending traps (R356), the lowest lane a SPAWN has not deposited (R69), and how far an instruction that waits
has come. In `phases`, key b below 24 holds the phase recorded for point b, and key 24 × k + b stands while arrival k
of the strand at point b is not yet counted (R45). `waitsOn` is the point it waits on, `released` that the wait has
ended while the strand was stopped (R351). `word` is the instruction that it has begun, `stall` the progress mark at
which it last could not issue, `runs` that it then waited on nothing that R38 lists, `yielded` its YIELD (R70). -/
structure Entry where
  id : Nat := 0
  parent : Option Nat := none
  pc : Word := 0#64
  mask : Word := 0#64
  reconv : Option Word := none
  mode : EntryMode := .live
  arrived : Nat := 0
  block : Option Block := none
  noPre : Bool := false
  phases : Tab Bool := []
  pend : List TrapInfo := []
  spawnLane : Nat := 0
  waitsOn : Option Nat := none
  released : Bool := false
  stage : Nat := 0
  request : Nat := 0
  word : Word := 0#64
  stall : Nat := 0
  runs : Bool := false
  yielded : Bool := false
  deriving DecidableEq, Repr, Inhabited

/-- Handler mode (R358): the handler strand, the eight handler registers, the trapped entry, the registers that save
the trap, and the tile states written that take effect at RETT (R289). -/
structure Handler where
  strand : Entry := {}
  regs : Tab Word := []
  full : BitVec 8 := 0xFF#8
  trapped : Nat := 0
  tpc : Word := 0#64
  tinfo : Word := 0#64
  taddr : Word := 0#64
  tileStates : Tab Nat := []
  deriving DecidableEq, Repr, Inhabited

/-- Whose a group is: a team's (by team key), or a spawned group's (by spawn key) (R13). -/
inductive Owner where
  | team (t : Nat)
  | spawned (k : Nat)
  deriving DecidableEq, Repr, Inhabited

/-- A closed batch of matrix instructions: its number and the engine operations not yet complete (R271). -/
structure Batch where
  num : Nat := 0
  ops : List Nat := []
  deriving DecidableEq, Repr, Inhabited

/-- The landing record of an escorted load or atomic of a redundant team that is not yet folded (R443): its
destination and escort registers, and the bytes once it has landed. -/
structure Landing where
  regs : List Nat := []
  landed : Bool := false
  bytes : List Byte := []
  deriving DecidableEq, Repr, Inhabited

/-- A group's arrival at its GFUSE: the split factor and the scalar destination (R27). -/
structure FuseWait where
  n : Nat := 2
  sd : Nat := 0
  deriving DecidableEq, Repr, Inhabited

/-- A group (R13): where it is, its lanes, its registers with their full/empty bits and poison, its divergence and
return stacks, its status bits, its batches and its signature (R419). `spilled` counts
its oldest stack entries that are not resident (R22). `rowsOut` counts its rows that are not in the file: of
a landing-area `image` since `rowWait` (R100). `refusals` is a spawned group's own count (R43).
`farRoles` are the roles it holds at homes of other devices: handle, role, and the party it bound them as (R282). Vector
lanes are keyed by `laneKey`. -/
structure Group where
  owner : Owner := .team 0
  core : Nat := 0
  slot : Nat := 0
  held : List Nat := []
  width : Nat := 16
  laneNo : List Nat := []
  vregs : Tab Lane := []
  sregs : Tab Word := []
  vfull : BitVec 256 := BitVec.allOnes 256
  sfull : BitVec 128 := BitVec.allOnes 128
  vpoison : List Nat := []
  spoison : List Nat := []
  preds : Tab Word := []
  unis : BitVec 8 := 0#8
  stack : List Entry := []
  spilled : Nat := 0
  nextEntry : Nat := 1
  rstack : List Word := []
  ref : Bool := false
  refusals : Nat := 0
  mcmask : Bool := false
  sstep : Bool := false
  tcode : BitVec 8 := 0#8
  handler : Option Handler := none
  stepping : Option Nat := none
  exempt : List Nat := []
  parked : Bool := false
  image : Bool := false
  rowsOut : Nat := 0
  rowWait : Nat := 0
  rowBlocks : List Nat := []
  batch : Nat := 0
  mxOpen : List Nat := []
  batches : List Batch := []
  fuse : Option FuseWait := none
  fuseCode : Option Nat := none
  ended : Bool := false
  sig : Word := 0#64
  folds : Tab Landing := []
  farRoles : List (Word × Nat × Nat) := []
  deriving DecidableEq, Repr, Inhabited

/-- A rendezvous point (R33, R34). -/
structure Point where
  init : Bool := false
  device : Bool := false
  expected : Nat := 0
  arrived : Nat := 0
  phase : Bool := false
  deriving DecidableEq, Repr, Inhabited

/-- An arrival issued and not yet counted (R45): its strand and PC, its point and lanes, the accesses it awaits, and
then, where
it writes back (`wb`) and once it is `staged`, the write-backs. -/
structure Arrival where
  gid : Nat := 0
  entry : Nat := 0
  core : Nat := 0
  pc : Word := 0#64
  point : Nat := 0
  lanes : Nat := 0
  after : List Nat := []
  wb : Bool := false
  staged : Bool := false
  afterWb : List Nat := []
  deriving DecidableEq, Repr, Inhabited

/-- A template entry and what XQUERY shows of it (R274, R278). -/
structure Template where
  bits : BitVec 512 := 0#512
  valid : Bool := false
  done : Nat := 0
  lstat : Nat := 0
  pend : Nat := 0
  deriving DecidableEq, Repr, Inhabited

/-- A weight plane: its shape, format, elements and scale bytes, keyed 64 × k + n (R263, R266). -/
structure Plane where
  k : Nat := 0
  n : Nat := 0
  fmt : Nat := 0
  elems : Tab (BitVec 16) := []
  scales : Tab Byte := []
  bad : List Nat := []
  deriving DecidableEq, Repr, Inhabited

/-- An accumulator: its kind and its values in the layout of R145, keyed 64 × m + n. -/
structure Accum where
  int : Bool := false
  vals : Tab Word := []
  deriving DecidableEq, Repr, Inhabited

/-- A team's matrix state (R263); `kept`: its section of the context record holds it. -/
structure Matrix where
  active : Plane := {}
  shadow : Plane := {}
  accs : Tab Accum := []
  kept : Bool := false
  deriving DecidableEq, Repr, Inhabited

/-- sr.chk of a team or spawned group (R409). -/
structure Chk where
  pc : Bool := false
  pw : Bool := false
  pb : Bool := false
  mmcnt : Nat := 0
  rbcnt : Nat := 0
  deriving DecidableEq, Repr, Inhabited

/-- One lane of a memory access: its position and lane number, its virtual and physical address, its memory type, its
data or operand, its swap value, the value that a racing atomic of another unit may have read before a later update
(R116), whether it is performed, and what it then read. -/
structure LaneAcc where
  lane : Nat := 0
  laneNo : Nat := 0
  va : Word := 0#64
  pa : Nat := 0
  mtype : Nat := 0
  data : BitVec 512 := 0#512
  swap : Word := 0#64
  poisoned : Bool := false
  early : Option (List (Byte × Bool)) := none
  did : Bool := false
  res : BitVec 128 := 0#128
  resPoison : BitVec 4 := 0#4
  deriving DecidableEq, Repr, Inhabited

/-- The kinds of access that stay outstanding. -/
inductive OutKind where
  | load | store | atomic | xadd | xcvt | fence
  deriving DecidableEq, Repr, Inhabited

/-- Where a coach is (R95 to R100): waiting to be injected, in flight outward, before its anchor's store, in the
store, on its way home, at its core. -/
inductive CoachPhase where
  | queued | outward | before | stored | homeward | returned
  deriving DecidableEq, Repr, Inhabited

/-- A coach (R42, R95): its escort range and payload, its tag, its carriages, its anchor and its status: 0 good, 1
bounced, else a trap code. `hurt` marks a payload that met poison abroad (R407). -/
structure Coach where
  base : Nat := 0
  count : Nat := 0
  park : Bool := false
  payload : Tab Lane := []
  poison : List Nat := []
  tag : Nat := 0
  gen : Nat := 0
  carriages : Nat := 0
  anchor : Nat := 0
  phase : CoachPhase := .queued
  status : Nat := 0
  addr : Word := 0#64
  lane : Nat := 0
  lost : Bool := false
  hurt : Bool := false
  deriving DecidableEq, Repr, Inhabited

/-- An access that a core has sent and that is not yet complete (R236): who sent it (`who`: its lanes' numbers in the
team), what it is, and what must be performed before it: the accesses in `after`, and then, once it is `staged`, the
write-backs of dirty sectors in `afterWb` and the promotions in `promos`. It is `sent` from when its request leaves on a
train until its answer does, and `away` while a train carries either (R96). `hreg` marks a handler register. -/
structure Out where
  kind : OutKind := .load
  owner : Owner := .team 0
  gid : Nat := 0
  entry : Nat := 0
  core : Nat := 0
  ctx : Nat := 0
  pc : Word := 0#64
  space : Nat := 0
  scope : Nat := 0
  ord : Nat := 0
  size : Nat := 0
  scalar : Bool := false
  op : Nat := 0
  reg : Nat := 0
  nreg : Nat := 1
  noAlloc : Bool := false
  hreg : Bool := false
  lanes : List LaneAcc := []
  who : List Nat := []
  after : List Nat := []
  staged : Bool := false
  afterWb : List Nat := []
  promos : List Nat := []
  sent : Bool := false
  away : Bool := false
  coach : Option Coach := none
  done : Bool := false
  deriving DecidableEq, Repr, Inhabited

/-- A store held by a CHK team between check points (R414). -/
structure HeldStore where
  gid : Nat := 0
  core : Nat := 0
  space : Nat := 0
  scope : Nat := 0
  size : Nat := 0
  lanes : List LaneAcc := []
  deriving DecidableEq, Repr, Inhabited

/-- Why a check point was forced (R411, R440, R444): a phase flip, a full held-store buffer, an external action, a
consumption of poison, a trailing copy that cannot follow, the exit of the last lane; `settle` is a passed check point
whose flip or action is under way and whose state is still to be copied (R412). -/
inductive Force where
  | flip | fullBuffer | action | poison | schedule | last | settle
  deriving DecidableEq, Repr, Inhabited

/-- The checkpoint of a CHK team: the state R413 copies. -/
structure Snapshot where
  groups : Tab Group := []
  points : Tab Point := []
  tiles : Tab (BitVec 128) := []
  templates : Tab Template := []
  share : Memory := []
  sharePoison : List Nat := []
  matrix : Matrix := {}
  refusals : Nat := 0
  deriving DecidableEq, Repr, Inhabited

/-- An issue of the leading copy in the recorded order and load-value queue of a redundant team (R417, R444): the
group (its first lane number × 128 + width), the strand's mask and PC, the kind of value (0 none, 1 memory, 2 special
register, 3 conversation, 4
status, 5 width code, 6 queue or tile, 7 TLOAD bytes, 8 other), the values with the poisoned ones, the access or copy
that has yet to produce them (0 none), and the trap the issue took. -/
structure LoadValue where
  group : Nat := 0
  mask : Word := 0#64
  pc : Word := 0#64
  kind : Nat := 0
  vals : List Word := []
  bad : List Nat := []
  out : Nat := 0
  trap : Option TrapInfo := none
  deriving DecidableEq, Repr, Inhabited

/-- Where a team is in its life (R71, R73). -/
inductive TeamPhase where
  | resident | stopping | saving | saved
  deriving DecidableEq, Repr, Inhabited

/-- A team (R13): its launch and number, its cores, its rendezvous points, tiles, templates, share and matrix state,
its context record, counts and checks (R409), and what pre-emption, check points and redundancy keep. `mflips` are the
offsets of the fill barriers whose last flip, and of the queue slots whose status, is a membership change (R431).
`heldPosts` are the target arrivals that its BTEs hold while it is saved, in their order (R403): a post, and 0 for its
source-released barrier, 1 for its end, 2 + n for a pause after n bytes. -/
structure Team where
  launch : Nat := 0
  num : Nat := 0
  cores : List Nat := []
  phase : TeamPhase := .resident
  points : Tab Point := []
  arrivals : Tab Arrival := []
  tiles : Tab (BitVec 128) := []
  templates : Tab Template := []
  share : Memory := []
  sharePoison : List Nat := []
  mflips : List Nat := []
  matrix : Matrix := {}
  record : Nat := 0
  refusals : Nat := 0
  chk : Chk := {}
  placed : Nat := 0
  placedAt : Nat := 0
  resident : Nat := 0
  requestedAt : Nat := 0
  held : List HeldStore := []
  snap : Option Snapshot := none
  force : Option Force := none
  forcedBy : Option (Nat × Nat) := none
  granted : Option (Nat × Nat) := none
  failed : Bool := false
  mate : Option Nat := none
  trailing : Bool := false
  heldPosts : List (Nat × Nat) := []
  values : List LoadValue := []
  deriving DecidableEq, Repr, Inhabited

/-- A spawned group and its descendants (R43, R260); `orders` are the places of its lanes in the order of spawns (R38). -/
structure Spawned where
  launch : Nat := 0
  count : Nat := 0
  counter : Word := 0#64
  chk : Chk := {}
  orders : List Nat := []
  deriving DecidableEq, Repr, Inhabited

/-- One thread record of a spawn bin (R259): its four argument words, which of them are poisoned, and its order. -/
structure SpawnRec where
  args : List Lane := []
  bad : List Nat := []
  order : Nat := 0
  deriving DecidableEq, Repr, Inhabited

/-- A spawn bin (R67): its key, records, first deposit and whether it must launch. -/
structure Bin where
  launch : Nat := 0
  entry : Word := 0#64
  counter : Word := 0#64
  recs : List SpawnRec := []
  since : Nat := 0
  must : Bool := false
  deriving DecidableEq, Repr, Inhabited

/-- The operations of the matrix engine (R264). -/
inductive MxKind where
  | mldw | mswap | mstream | mdrain | mzero
  deriving DecidableEq, Repr, Inhabited

/-- A matrix instruction in the engine queue (R264), with every operand it read at issue. -/
structure MxOp where
  kind : MxKind := .mzero
  gid : Nat := 0
  team : Nat := 0
  tile : Nat := 0
  acc : Nat := 0
  k : Nat := 0
  n : Nat := 0
  m : Nat := 0
  row0 : Nat := 0
  col0 : Nat := 0
  fmt : Nat := 0
  rm : Nat := 0
  sat : Bool := false
  int : Bool := false
  scales : List Byte := []
  badScales : List Nat := []
  deriving DecidableEq, Repr, Inhabited

/-- A first- or second-level TLB entry (R85). -/
structure TlbEntry where
  ctx : Nat := 0
  vbase : Nat := 0
  size : Nat := 4096
  pbase : Nat := 0
  x : Bool := false
  w : Bool := false
  mtype : Nat := 0
  deriving DecidableEq, Repr, Inhabited

/-- A line of an L1 (R78): data, the bytes it holds, the bytes that are narrow-dirty and those whose write-back is on its
way, and its poisoned granules. -/
structure Line where
  data : BitVec 1024 := 0#1024
  valid : BitVec 128 := 0#128
  dirty : BitVec 128 := 0#128
  leaving : BitVec 128 := 0#128
  poison : BitVec 16 := 0#16
  deriving DecidableEq, Repr, Inhabited

/-- A narrow-dirty sector, in the order of its latest store (R118): its key, sector, the teams that wrote it, whether its
write-back is asked for, and the stores that it holds, oldest first (R128). -/
structure Dirty where
  id : Nat := 0
  sector : Nat := 0
  owners : List Owner := []
  asked : Bool := false
  stores : List (Nat × List Byte) := []
  deriving DecidableEq, Repr, Inhabited

/-- A write-back on its way (R118): the dirty sector it was, its bytes and the stores that they come from, its place among
the core's messages, whether a train carries it or its acknowledgement, and whether the slice has performed it. -/
structure WriteBack where
  core : Nat := 0
  sector : Nat := 0
  owners : List Owner := []
  data : BitVec 256 := 0#256
  mask : BitVec 32 := 0#32
  poison : BitVec 4 := 0#4
  order : Nat := 0
  stores : List (Nat × List Byte) := []
  away : Bool := false
  performed : Bool := false
  deriving DecidableEq, Repr, Inhabited

/-- A pipe's greedy run (R70): the strand it issued last and how often in a row. -/
structure Pipe where
  gid : Nat := 0
  entry : Nat := 0
  run : Nat := 0
  deriving DecidableEq, Repr, Inhabited

/-- A word of a neighbour link (R230): its 64 bytes and its poisoned lanes. -/
structure LinkWord where
  bytes : BitVec 512 := 0#512
  poison : BitVec 16 := 0#16
  deriving DecidableEq, Repr, Inhabited

/-- A core: its cycle counter, how many of its pipes the present cycle has served and the escorted instruction whose
address checks are in progress (R350), its pipes, first-level TLB, L1, instruction words, receive queues, coach tags,
spawn bins, engine queue and debug registers (by offset). `fetched` are the instruction words it has fetched and
buffered (R133). -/
structure Core where
  cycle : Nat := 0
  pipeDone : Nat := 0
  checking : Option (Nat × Nat × Word) := none
  pipes : Tab Pipe := []
  tlb : List TlbEntry := []
  lines : Tab Line := []
  dirty : List Dirty := []
  sending : Option Nat := none
  icache : Tab Word := []
  fetched : Tab Word := []
  links : Tab (List LinkWord) := []
  tagGens : Tab Nat := []
  bins : Tab Bin := []
  mxHolder : Option Nat := none
  mxQueue : Tab MxOp := []
  debug : Tab Word := []
  deriving DecidableEq, Repr, Inhabited

/-- Rows that a group, or the children of one split, hold on a core (R32); a saved team's stand on no core (196). -/
structure RowBlock where
  core : Nat := 0
  rows : Nat := 0
  deriving DecidableEq, Repr, Inhabited

/-- A page walk in progress (R85): who asked, for which page, for what use, and whether its result is discarded
(R87). -/
structure Walk where
  core : Nat := 0
  ctx : Nat := 0
  va : Nat := 0
  use : Nat := 0
  dead : Bool := false
  deriving DecidableEq, Repr, Inhabited

/-- A walk that ended in a fault and has not yet been reported to its asker. -/
structure WalkFault where
  core : Nat := 0
  ctx : Nat := 0
  page : Nat := 0
  use : Nat := 0
  code : BitVec 8 := 0x10#8
  deriving DecidableEq, Repr, Inhabited

/-- A running invalidation (R87): the page, or all of the context, and the walks and accesses it awaits. -/
structure Invalidation where
  page : Nat := 0
  all : Bool := false
  walks : List Nat := []
  outs : List Nat := []
  deriving DecidableEq, Repr, Inhabited

/-- A translation context (R86) with its invalidations. -/
structure Context where
  root : Word := 0#64
  vlt : Word := 0#64
  en : Bool := false
  running : Option Invalidation := none
  queued : List Word := []
  deriving DecidableEq, Repr, Inhabited

/-- A launch queue (R50 to R53) with its deficit (R57) and the waits of its teams that were next and did not fit:
launch, team number, and since when (R59). -/
structure Queue where
  base : Word := 0#64
  head : BitVec 32 := 0#32
  tail : BitVec 32 := 0#32
  dev : Bool := false
  preok : Bool := false
  log2 : Nat := 0
  en : Bool := false
  halted : Bool := false
  code : Nat := 0
  index : BitVec 32 := 0#32
  quant : Nat := 0
  deficit : Int := 0
  waits : List (Nat × Nat × Nat) := []
  deriving DecidableEq, Repr, Inhabited

/-- An active launch (R55): its queue, record, how many teams were placed and retired, its device-scope points (R37),
and where its last team went (R63). -/
structure Launch where
  queue : Nat := 0
  record : BitVec 1024 := 0#1024
  next : Nat := 0
  retired : Nat := 0
  aborted : Bool := false
  tainted : Bool := false
  done : Bool := false
  lastCluster : Option Nat := none
  placing : Bool := false
  points : Tab Point := []
  deriving DecidableEq, Repr, Inhabited

/-- A core set freed by a retirement, to be refilled in the next turn (R64). -/
structure Refill where
  launch : Nat := 0
  cores : List Nat := []
  deriving DecidableEq, Repr, Inhabited

/-- The distributor: the next launch sequence number, the last queue served in each class, its last placement, and
refills due (R55, R57, R64). -/
structure Distributor where
  nextSeq : Nat := 0
  served : Tab Nat := []
  lastTurn : Option Nat := none
  refills : List Refill := []
  placements : Nat := 0
  deriving DecidableEq, Repr, Inhabited

/-- A store performed while an engine reads (R127, R128): in memory or in the share of a team, with the bytes before and
after it, each with its poison. -/
structure StoreNote where
  share : Option Nat := none
  addr : Nat := 0
  old : List (Byte × Bool) := []
  new : List (Byte × Bool) := []
  deriving DecidableEq, Repr, Inhabited

/-- A TLOAD (`load`) or TSTORE copy in progress (R90, R250): its tile, the physical pieces of its source or destination
in row order, the bytes, each with its poison, that it had copied when its team was last saved (R252), and how many stores
were noted at its issue. -/
structure Copy where
  load : Bool := true
  team : Nat := 0
  gid : Nat := 0
  core : Nat := 0
  ctx : Nat := 0
  tile : Nat := 0
  trans : Bool := false
  segs : List (Nat × Nat) := []
  first : List (Byte × Bool) := []
  since : Nat := 0
  deriving DecidableEq, Repr, Inhabited

/-- Where a post is (R277, R315, R397). -/
inductive PostPhase where
  | waiting | queued | paused | finished
  deriving DecidableEq, Repr, Inhabited

/-- An accepted or waiting post (R277): its poster and team number, its launch and context, its template copy, ARG and row
range, the accesses and write-backs it awaits (R127), its place in the order of acceptance, and how far it has come:
bytes sent and delivered, whether the source-released barrier has fired and the releasing packet has left, what it has
read (`old`), whether its pause came from the far device, and its status once it is to finish. `staged` is that the
write-backs of R127 are asked of its `core`; `since` how many stores were noted at its acceptance, `fates` which of the
later ones it does not see, and `reads` what it had read when so many were noted (R128): in a share or not, address and
length. `srcRead` is that its source is read (R56); `named` the view it named (R320); `slots` are the status-2 slots
(queue offset and count) not yet committed (R277, R397), and `ended` is that its end has been applied (R403). -/
structure Post where
  cluster : Nat := 0
  team : Nat := 0
  launch : Nat := 0
  gid : Nat := 0
  entry : Nat := 0
  ctx : Nat := 0
  num : Nat := 0
  tidx : Nat := 0
  bits : BitVec 512 := 0#512
  arg : Nat := 0
  first : Nat := 0
  count : Nat := 0
  awaits : List Nat := []
  phase : PostPhase := .waiting
  seq : Nat := 0
  sent : Nat := 0
  delivered : Nat := 0
  srcFired : Bool := false
  released : Bool := false
  view : Nat := 0
  inst : Nat := 0
  old : List Byte := []
  far : Bool := false
  core : Nat := 0
  staged : Bool := false
  since : Nat := 0
  fates : Tab Bool := []
  reads : List (Bool × Nat × Nat × Nat) := []
  srcRead : Bool := false
  named : Nat := 0
  slots : List (Nat × Nat) := []
  ended : Bool := false
  status : Option Nat := none
  deriving DecidableEq, Repr, Inhabited

/-- A remote request of a BTE (R425): its post, kind (0 write, 1 read, 2 atomic, 3 conversation), generation, part of
the payload, the physical pieces its answer goes to, the packet in case it must be resent, and when it was last sent. -/
structure Request where
  post : Nat := 0
  kind : Nat := 0
  off : Nat := 0
  len : Nat := 0
  segs : List (Nat × Nat) := []
  dev : Nat := 0
  nums : List Nat := []
  bytes : List Byte := []
  live : Bool := false
  gen : Nat := 0
  sentAt : Nat := 0
  deadAt : Option Nat := none
  conv : Nat := 0
  deriving DecidableEq, Repr, Inhabited

/-- A BTE (R315, R316): its virtual queues, deficits, the queue it visits (2 k, or 2 k + 1 once it has had its quantum),
and its request tags. -/
structure Bte where
  queues : Tab (List Nat) := []
  deficits : Tab Nat := []
  turn : Nat := 0
  requests : Tab Request := []
  deriving DecidableEq, Repr, Inhabited

/-- A collective instance on this member (R320): its post, the view it runs in, the contributions by device, the packets of
those not yet whole (R312), the final result once it is known, the first member count (R430) and whether it was restarted. -/
structure Collective where
  post : Nat := 0
  view : Nat := 0
  parts : Tab CollMsg := []
  pieces : List CollMsg := []
  result : Option (List Byte) := none
  pFirst : Nat := 1
  restarted : Bool := false
  done : Bool := false
  deriving DecidableEq, Repr, Inhabited

/-- A protocol of the directory (R280). -/
structure Protocol where
  launch : Nat := 0
  init : Nat := 0
  nrole : Nat := 0
  entries : List (BitVec 16) := []
  deriving DecidableEq, Repr, Inhabited

/-- A party of a conversation: a device and the group's key on it (R282). -/
structure Party where
  dev : Nat := 0
  gid : Nat := 0
  deriving DecidableEq, Repr, Inhabited

/-- A queued message (R283). -/
structure ConvQueued where
  kind : Nat := 0
  sender : Nat := 0
  receiver : Nat := 0
  payload : List Word := []
  deriving DecidableEq, Repr, Inhabited

/-- A conversation object (R281), and the parties of other devices that wait in CRECV on it. -/
structure Conversation where
  proto : Nat := 0
  live : Bool := false
  state : Nat := 0
  gen : Nat := 0
  roles : Tab Party := []
  msgs : List ConvQueued := []
  waiters : List ConvMsg := []
  deriving DecidableEq, Repr, Inhabited

/-- A conversation request of this device on its way to its home, or answered (R283, R326); `party` is the party that a home
on another device knows its group by (R282). -/
structure ConvRequest where
  gid : Nat := 0
  entry : Nat := 0
  party : Nat := 0
  op : Nat := 0
  handle : Word := 0#64
  role : Nat := 0
  kind : Nat := 0
  payload : List Word := []
  answered : Bool := false
  code : Nat := 0
  vals : List Word := []
  ended : Bool := false
  deriving DecidableEq, Repr, Inhabited

/-- A virtual channel of a port's link (R422): the flits of its open block and its unacknowledged blocks, each flit as
the number of its packet in the outbox, how often the oldest block has failed, when its last flit came, and the
tentative packets received on it. -/
structure Channel where
  flits : List Nat := []
  blocks : List (List Nat) := []
  fails : Nat := 0
  lastFlit : Nat := 0
  rxTentative : List Nat := []
  rxFails : Nat := 0
  deriving DecidableEq, Repr, Inhabited

/-- An SPDM session of a port (R342). -/
structure Session where
  started : Bool := false
  established : Bool := false
  secret : BitVec 256 := 0#256
  deriving DecidableEq, Repr, Inhabited

/-- A Frenum port (R343): its lock state, cause of error, configuration, session, the session keys that LOCK installed
(R344), link and counts (R424). -/
structure Port where
  state : Nat := 0
  errc : Nat := 0
  cfg : Word := 0#64
  qmask : Word := 0#64
  session : Session := {}
  keys : Option (BitVec 256) := none
  channels : Tab Channel := []
  lastRx : Nat := 0
  lastTx : Nat := 0
  retries : Nat := 0
  heldPackets : List CollMsg := []
  deriving DecidableEq, Repr, Inhabited

/-- The agreement of views (R428, R435): what this device proposed or accepted, who has answered, who is lost. -/
structure Agreement where
  proposal : Option ViewMsg := none
  accepted : List Nat := []
  waiting : List Nat := []
  mine : Bool := false
  answered : Bool := false
  owesAccept : Bool := false
  lost : List Nat := []
  downs : List (Nat × Nat) := []
  outside : Bool := false
  joiners : List Nat := []
  since : Nat := 0
  deriving DecidableEq, Repr, Inhabited

/-- The fabric registers (R309) and the current view. -/
structure Fabric where
  frpos : Word := 0#64
  frshape : Word := 0#64
  viewSet : Bool := false
  viewNum : Nat := 0
  viewMap : BitVec 256 := 0#256
  staged : Tab Word := []
  agreement : Agreement := {}
  deriving DecidableEq, Repr, Inhabited

/-- The boot and security block (R335 to R341, R437): power, boot registers, fuses blown in the life of this model,
the staged image, the firmware and microcode, the boot's second-level `tree` with its seed and signatures, and the
alarm. -/
structure Boot where
  powered : Bool := true
  stage : Nat := 0
  code : Nat := 0
  bootNum : Nat := 0
  owner : Option Nat := none
  length : Nat := 0
  staging : Memory := []
  firmware : List Byte := []
  microcode : List Byte := []
  tree : Bool := false
  seed : Word := 0#64
  signatures : Nat := 0
  blown : Nat := 0
  revoked : Bool := false
  armed : Bool := false
  alarm : Nat := 0
  clocksLow : Bool := false
  deriving DecidableEq, Repr, Inhabited

/-- An armed error injection (R420). -/
structure Injection where
  core : Nat := 0
  slot : Nat := 0
  scalar : Bool := false
  reg : Nat := 0
  lane : Nat := 0
  bit : Nat := 0
  after : Nat := 0
  mode : Nat := 0
  deriving DecidableEq, Repr, Inhabited

/-- What a message of this device to another, or to its host, is. -/
inductive PacketKind where
  | writePacket | readRequest | atomicRequest | writeAck | readReply | collective | conversation | convAnswer
  | fatal | propose | accept | reject | wait | commit | join | hostAnswer | spdm | blockAck | blockNak | block | idle
  | marker | linkDown | refused | hostRelay | hostRelayAnswer | forwarded | discardNotice
  deriving DecidableEq, Repr, Inhabited

/-- A message this device has sent: its kind, where to, its numbers and its bytes. -/
structure Packet where
  kind : PacketKind := .idle
  dev : Nat := 0
  nums : List Nat := []
  bytes : List Byte := []
  deriving DecidableEq, Repr, Inhabited

/-- An event that the management core receives: what it is about, and its numbers. Kinds: 0 a launch abort (R361), 1
an unwritten completion counter (R56), 2 a tainted launch (R410), 3 a coach event (R393, R395), 4 a fatal device error
(R394), 5 a paused post (R397), 6 a timed-out request (R425), 7 a late answer (R426), 8 a poisoned page table (R408),
10 an uncorrectable check point (R412), 11 its own read of DRAM, and 12 its own access to
DRAM refused (R346). -/
structure MgmtEvent where
  kind : Nat := 0
  nums : List Nat := []
  deriving DecidableEq, Repr, Inhabited

/-- What a train carries (R96): a coach, an access's request or answer, a write-back or its acknowledgement, an owner
notice, a promotion request or its acknowledgement, or a landing write (R98). -/
inductive Cargo where
  | coach | access | writeBack | notice | promotion | landing
  deriving DecidableEq, Repr, Inhabited

/-- A train of the on-die network (R96): its source, and what it carries, outward or back home. -/
structure Train where
  src : Nat := 0
  cargo : Cargo := .coach
  item : Nat := 0
  home : Bool := false
  deriving DecidableEq, Repr, Inhabited

/-- The trains of one source (R96): waiting to be injected, and in flight, oldest first. -/
structure Source where
  inject : List Nat := []
  flight : List Nat := []
  deriving DecidableEq, Repr, Inhabited

/-- An owner notice (R80), `away` while its train is on the way. -/
structure Notice where
  core : Nat := 0
  line : Nat := 0
  away : Bool := false
  deriving DecidableEq, Repr, Inhabited

/-- A promotion (R119): the acquire, the slice that asks and the owner core, the write-backs it awaits, and how far it has
come; `away` while a train carries the request or the acknowledgement. -/
structure Promotion where
  out : Nat := 0
  slice : Nat := 0
  core : Nat := 0
  received : Bool := false
  awaits : List Nat := []
  acked : Bool := false
  away : Bool := false
  deriving DecidableEq, Repr, Inhabited

/-- A stop of a launch's other groups by DBGCTL.STOPALL (R370): the launch, the trapping core, whose group trapped, the
groups it stopped, the cores they stand on, and the groups whose handlers there hold the stop. -/
structure StopAll where
  launch : Nat := 0
  core : Nat := 0
  owner : Owner := .team 0
  groups : List Nat := []
  cores : List Nat := []
  handlers : List Nat := []
  deriving DecidableEq, Repr, Inhabited

/-- The strand whose instruction is being executed: its group and entry. -/
structure Cursor where
  gid : Nat := 0
  entry : Nat := 0
  deriving DecidableEq, Repr, Inhabited

/-- The state of the device. -/
structure State where
  mem : Memory := []
  poison : List Nat := []
  cores : Tab Core := []
  groups : Tab Group := []
  rowBlocks : Tab RowBlock := []
  teams : Tab Team := []
  spawned : Tab Spawned := []
  launches : Tab Launch := []
  queues : Tab Queue := []
  contexts : Tab Context := []
  dist : Distributor := {}
  tlb2 : Tab (List TlbEntry) := []
  walks : Tab Walk := []
  walkFaults : List WalkFault := []
  cicache : Tab (Tab Word) := []
  outs : Tab Out := []
  writeBacks : Tab WriteBack := []
  notices : Tab Notice := []
  owners : Tab (List (Nat × Nat)) := []
  promotions : Tab Promotion := []
  trains : Tab Train := []
  sources : Tab Source := []
  golden : Nat := 0
  goldenTrain : Option Nat := none
  goldenHold : Option Nat := none
  notes : List StoreNote := []
  copies : Tab Copy := []
  btes : Tab Bte := []
  posts : Tab Post := []
  collectives : Tab Collective := []
  collCounts : Tab Nat := []
  protocols : Tab Protocol := []
  convs : Tab Conversation := []
  convRequests : Tab ConvRequest := []
  fabric : Fabric := {}
  ports : Tab Port := []
  boot : Boot := {}
  measures : Tab (BitVec 256) := []
  injections : Tab Injection := []
  stops : List StopAll := []
  testing : Option Nat := none
  mgmt : List MgmtEvent := []
  outbox : List Packet := []
  errors : List (Structure × Nat) := []
  clocks : Tab Nat := []
  agenda : List Turn := []
  cur : Cursor := {}
  obtained : Option LoadValue := none
  turnNo : Nat := 0
  freeNo : Nat := 0
  progress : Nat := 0
  nextId : Nat := 1
  deriving DecidableEq, Repr, Inhabited

/-- The device right after reset: every register at its reset value, no work, memory with nothing listed, the boot ROM
about to start (R331). -/
def State.reset : State := {}

end Sys2Proof.Machine
end

