-- ==== Sys2Proof/Machine/Ops.lean ====
section
/-!
DEFINITION. The named operations over tables, memory, registers and strands, taking a trap and returning from one.

Every meaning reads and writes the machine through these.
-/

namespace Sys2Proof.Machine

/-! ### Tables, sets and memory -/

/-- The value at a key of a table. -/
def tget {α : Type} : Tab α → Nat → Option α
  | [], _ => none
  | (i, v) :: r, k => if i = k then some v else tget r k

/-- The value at a key, or a default. -/
def tgetD {α : Type} (t : Tab α) (k : Nat) (d : α) : α := (tget t k).getD d

/-- The table with a value at a key; keys stay rising. -/
def tset {α : Type} : Tab α → Nat → α → Tab α
  | [], k, v => [(k, v)]
  | (i, x) :: r, k, v =>
    if k < i then (k, v) :: (i, x) :: r
    else if k = i then (k, v) :: r
    else (i, x) :: tset r k v

/-- The table without a key. -/
def terase {α : Type} : Tab α → Nat → Tab α
  | [], _ => []
  | (i, x) :: r, k => if i = k then r else (i, x) :: terase r k

/-- The table with the value at a listed key changed. -/
def tmod {α : Type} (t : Tab α) (k : Nat) (f : α → α) : Tab α :=
  match tget t k with
  | some v => tset t k (f v)
  | none => t

/-- The table with every value at a key changed, its keys as they are. -/
def tupd {α : Type} (t : Tab α) (k : Nat) (f : α → α) : Tab α := t.map fun x => if x.1 = k then (x.1, f x.2) else x

/-- Add a number to a set kept as a rising list. -/
def sadd1 : List Nat → Nat → List Nat
  | [], k => [k]
  | i :: r, k => if k < i then k :: i :: r else if k = i then i :: r else i :: sadd1 r k

/-- Take a number out of a set. -/
def sdel1 (l : List Nat) (k : Nat) : List Nat := l.filter (fun i => i ≠ k)

/-- What an address of memory reads as when nothing is listed for it (log 2). -/
def unlisted : Byte := 0#8

/-- Addresses strictly rise and no entry holds what an unlisted address reads as. -/
def memWf : Memory → Bool
  | [] => true
  | (_, v) :: [] => v != unlisted
  | (a, v) :: (b, w) :: r => v != unlisted && decide (a < b) && memWf ((b, w) :: r)

/-- The byte at an address. -/
def mget : Memory → Nat → Byte
  | [], _ => unlisted
  | (i, v) :: r, a => if i = a then v else mget r a

/-- Memory with a byte at an address, in canonical form. -/
def mset : Memory → Nat → Byte → Memory
  | [], a, b => if b = unlisted then [] else [(a, b)]
  | (i, v) :: r, a, b =>
    if a < i then (if b = unlisted then (i, v) :: r else (a, b) :: (i, v) :: r)
    else if a = i then (if b = unlisted then r else (a, b) :: r)
    else (i, v) :: mset r a b

/-- Bytes at rising addresses. -/
def mread (m : Memory) (a n : Nat) : List Byte := (List.range n).map fun k => mget m (a + k)

/-- Write bytes at rising addresses. -/
def mwrite (m : Memory) (a : Nat) : List Byte → Memory
  | [] => m
  | b :: r => mwrite (mset m a b) (a + 1) r

/-- The number that bytes at rising addresses hold (R11). -/
def leNat (l : List Byte) : Nat := l.foldr (fun b acc => acc * 256 + b.toNat) 0

/-- The `n` bytes of a number, least significant first (R11). -/
def leBytes (x n : Nat) : List Byte := (List.range n).map fun k => BitVec.ofNat 8 (x / 256 ^ k)

/-- The pieces of n bytes at an address, cut at multiples of a size. -/
def cutAt (size a n : Nat) : List (Nat × Nat) :=
  (List.range ((a + n + size - 1) / size - a / size)).map fun k =>
    let lo := max a ((a / size + k) * size)
    (lo, min (a + n) ((a / size + k + 1) * size) - lo)

/-- A 64-bit word of memory. -/
def mword (m : Memory) (a : Nat) : Word := BitVec.ofNat 64 (leNat (mread m a 8))

/-- The numbers below `n` whose bit is set in a mask, rising. -/
def bitsBelow (m : Word) (n : Nat) : List Nat := (List.range n).filter fun l => m.getLsbD l

/-- A lane mask with one lane set or cleared. -/
def setBit (m : Word) (l : Nat) (b : Bool) : Word :=
  if b then m ||| (1#64 <<< l) else m &&& ~~~(1#64 <<< l)

/-- The mask of lanes 0 to w - 1. -/
def widthMask (w : Nat) : Word := BitVec.ofNat 64 (2 ^ w - 1)

/-- How many bits of a mask are set. -/
def popcount (m : Word) : Nat := (bitsBelow m 64).length

/-! ### How an instruction ends -/

/-- How an instruction ends other than by completing: a trap, or a wait that leaves the state it stands in. -/
inductive Stop where
  | trap (t : TrapInfo)
  | wait (s : State)
  deriving DecidableEq, Repr

/-- An instruction's work: its result, or how it stops. -/
abbrev Act (α : Type) := Except Stop α

/-- Trap with a code, for a condition of the whole instruction (R374). -/
def trapWith {α : Type} (c : Nat) : Act α := .error (.trap { code := BitVec.ofNat 8 c })

/-- Trap with a code for a condition of one lane at an address (R374). -/
def trapLane {α : Type} (c lane : Nat) (addr : Word) : Act α :=
  .error (.trap { code := BitVec.ofNat 8 c, lane := lane, addr := addr })

/-- The strand is not runnable yet (R38). -/
def waitHere {α : Type} (s : State) : Act α := .error (.wait s)

/-- Trap unless a condition holds. -/
def need (b : Bool) (c : Nat) : Act Unit := if b then .ok () else trapWith c

/-- Wait unless a condition holds. -/
def until_ (b : Bool) (s : State) : Act Unit := if b then .ok () else waitHere s

/-! ### The group and strand that issue -/

/-- The group whose strand issues. -/
def curGroup (s : State) : Group := tgetD s.groups s.cur.gid {}

/-- The state with the issuing group replaced. -/
def setGroup (s : State) (g : Group) : State := { s with groups := tset s.groups s.cur.gid g }

/-- The group is in handler mode (R358). -/
def hmode (g : Group) : Bool := g.handler.isSome

/-- The entry of a stack with an identity. -/
def findEntry (l : List Entry) (id : Nat) : Option Entry := l.find? fun e => e.id == id

/-- Replace the entry of a stack with the same identity. -/
def putEntry (l : List Entry) (e : Entry) : List Entry := l.map fun x => if x.id == e.id then e else x

/-- The strand of a group that an entry number means: the handler strand in handler mode, else the stack entry. -/
def strandOf (g : Group) (id : Nat) : Entry :=
  match g.handler with
  | some h => h.strand
  | none => (findEntry g.stack id).getD {}

/-- The strand that issues. -/
def curStrand (s : State) : Entry := strandOf (curGroup s) s.cur.entry

/-- A group with the strand of an entry number replaced. -/
def putStrand (g : Group) (e : Entry) : Group :=
  match g.handler with
  | some h => { g with handler := some { h with strand := e } }
  | none => { g with stack := putEntry g.stack e }

/-- The state with the issuing strand replaced. -/
def setStrand (s : State) (e : Entry) : State := setGroup s (putStrand (curGroup s) e)

/-- The strand waits on nothing that R38 lists: it counts as runnable. -/
def holdHere {α : Type} (s : State) : Act α := waitHere (setStrand s { curStrand s with runs := true })

/-- Wait as a runnable strand unless a condition holds. -/
def holdUntil (b : Bool) (s : State) : Act Unit := if b then .ok () else holdHere s

/-- next_pc (R150). -/
def nextPc (e : Entry) : Word := e.pc + 8#64

/-- A field of a launch record (R47). -/
def recField (r : BitVec 1024) (lo n : Nat) : Nat := (r.extractLsb' lo n).toNat

/-- The launch sequence number of a group's launch. -/
def launchKey (s : State) (g : Group) : Nat :=
  match g.owner with
  | .team t => (tgetD s.teams t {}).launch
  | .spawned k => (tgetD s.spawned k {}).launch

/-- The launch of a group. -/
def launchOf (s : State) (g : Group) : Launch := tgetD s.launches (launchKey s g) {}

/-- The team key of a group, none for a spawned group (R14). -/
def teamKey (g : Group) : Option Nat :=
  match g.owner with
  | .team t => some t
  | .spawned _ => none

/-- The team of a group; a spawned group has none and reads an empty one, whose share is 0 bytes (R260). -/
def teamOf (s : State) (g : Group) : Team :=
  match g.owner with
  | .team t => tgetD s.teams t {}
  | .spawned _ => {}

/-- The state with the team of a group changed. -/
def modTeam (s : State) (g : Group) (f : Team → Team) : State :=
  match g.owner with
  | .team t => { s with teams := tmod s.teams t f }
  | .spawned _ => s

/-- Vector registers declared (R47). -/
def declV (s : State) (g : Group) : Nat := 8 * (recField (launchOf s g).record 192 5 + 1)

/-- Scalar registers declared (R47). -/
def declS (s : State) (g : Group) : Nat := 16 * (recField (launchOf s g).record 200 3 + 1)

/-- The launch's argument pointer (R47). -/
def launchArgs (l : Launch) : Word := BitVec.ofNat 64 (recField l.record 640 57)

/-- The launch's trap handler, 0 for none (R47). -/
def launchHandler (l : Launch) : Word := BitVec.ofNat 64 (recField l.record 384 57)

/-- Bytes of the share of a group's team, 0 for a spawned group (R76, R260). -/
def shareSize (s : State) (g : Group) : Nat :=
  match g.owner with
  | .team _ => 2048 * recField (launchOf s g).record 208 8
  | .spawned _ => 0

/-- The team was launched with CHK = 1 (R411). -/
def chkOf (s : State) (g : Group) : Bool :=
  match g.owner with
  | .team _ => (launchOf s g).record.getLsbD 186
  | .spawned _ => false

/-- The group belongs to the trailing copy of a redundant team (R417). -/
def isTrailing (s : State) (g : Group) : Bool := (teamOf s g).trailing

/-- The cluster of a core (R3). -/
def clusterOf (core : Nat) : Nat := core / 14

/-- A core's record. -/
def coreAt (s : State) (c : Nat) : Core := tgetD s.cores c {}

/-- The state with a core changed. -/
def modCore (s : State) (c : Nat) (f : Core → Core) : State :=
  { s with cores := tset s.cores c (f (coreAt s c)) }

/-- A fresh identity. -/
def freshId (s : State) : Nat × State := (s.nextId, { s with nextId := s.nextId + 1 })

/-- A free bit, and the state that has used it. -/
def takeBit (s : State) : Bool × State := (Config.freeBit s.freeNo, { s with freeNo := s.freeNo + 1 })

/-- The clock of a block (R9). -/
def clockAt (s : State) (k : Nat) : Nat := tgetD s.clocks k 0

/-- Tell the management core (R361). -/
def tellMgmt (s : State) (k : Nat) (l : List Nat) : State := { s with mgmt := s.mgmt ++ [{ kind := k, nums := l }] }

/-- A count of a structure one higher. -/
def bump (st : Structure) : List (Structure × Nat) → List (Structure × Nat)
  | [] => [(st, 1)]
  | (x, n) :: r => if x = st then (x, n + 1) :: r else (x, n) :: bump st r

/-- The management core's count of corrected errors of a structure (R405). -/
def countError (s : State) (st : Structure) : State := { s with errors := bump st s.errors }

/-- One of the listed numbers, freely chosen: the manual does not say which. -/
def pickFree : List Nat → State → Nat × State
  | [], s => (0, s)
  | [k], s => (k, s)
  | k :: r, s =>
    let (b, s) := takeBit s
    if b then (k, s) else pickFree r s

/-- A message leaves this device, or goes to its host or a neighbour. -/
def sendRaw (s : State) (p : Packet) : State := { s with outbox := s.outbox ++ [p] }

/-- The port to the device of the same row in the column of another, where the columns differ (R308). -/
def rowPort (me dev : Nat) : List Nat :=
  let d := (dev % 16 + 16 - me % 16) % 16
  if d = 0 then [] else [d - 1]

/-- The port to the device of the same column in the row of another, where the rows differ (R308). -/
def colPort (me dev : Nat) : List Nat :=
  let d := (dev / 16 + 16 - me / 16) % 16
  if d = 0 then [] else [15 + d]

/-- A port that does not exist yet is as it is at reset. -/
def portAt (s : State) (p : Nat) : Port := tgetD s.ports p {}

/-- Unacknowledged blocks of a port. -/
def openBlocks (p : Port) : Nat := p.channels.foldl (fun n c => n + c.2.blocks.length) 0

/-- Close full blocks of 16 flits while the port may hold more of them (R422). -/
def closeFull : Nat → Nat → Channel → Channel
  | 0, _, c => c
  | n + 1, room, c =>
    if room = 0 || c.flits.length < 16 then c
    else closeFull n (room - 1) { c with flits := c.flits.drop 16, blocks := c.blocks ++ [c.flits.take 16] }

/-- A packet's flits join the open block of a channel of a port (R312, R422). -/
def pushFlits (s : State) (port vc pkt n : Nat) : State :=
  let p := portAt s port
  let c := tgetD p.channels vc {}
  let now := clockAt s (Config.clockPort port)
  let c := closeFull n (32 - openBlocks p) { c with flits := c.flits ++ List.replicate n pkt, lastFlit := now }
  { s with ports := tset s.ports port { p with channels := tset p.channels vc c, lastTx := now } }

/-- The device at the other end of a butterfly port (R308). -/
def portDevice (me k : Nat) : Nat :=
  if k < 15 then me / 16 * 16 + (me % 16 + k + 1) % 16 else (me / 16 + (k - 15)) % 16 * 16 + me % 16

/-- The device lies within the system's shape (R309, R317). -/
def inShape (s : State) (dev : Nat) : Bool :=
  decide (dev / 16 ≤ s.fabric.frshape.toNat / 16 % 16) && decide (dev % 16 ≤ s.fabric.frshape.toNat % 16)

/-- The port is a device link in RUN to a device of the system (R308, R311, R343). -/
def linkTo (s : State) (me k : Nat) : Bool :=
  let p := portAt s k
  p.state == 3 && (p.cfg.extractLsb' 0 2).toNat == 1 && inShape s (portDevice me k)

/-- The first hops of the minimal routes, row first, through ports in RUN (R311). -/
def minimalHops (s : State) (me dev : Nat) : List Nat :=
  (rowPort me dev ++ colPort me dev).filter fun k => (portAt s k).state == 3

/-- The first hops of the detours, by rising number of their intermediate device: along the row, or along the column to
a device of the same column (R311). -/
def detourHops (s : State) (me dev : Nat) : List Nat :=
  let all := if (rowPort me dev).isEmpty then (List.range 16).flatMap fun r => colPort me (16 * r + me % 16)
    else (List.range 16).flatMap fun c => rowPort me (me / 16 * 16 + c)
  all.filter fun k => !(rowPort me dev ++ colPort me dev).contains k && linkTo s me k

/-- Each port with the free credits that the router sees on it, and the state that has drawn them (log 8). -/
def withCredits : List Nat → State → List (Nat × Nat) × State
  | [], s => ([], s)
  | k :: r, s =>
    let (l, s') := withCredits r { s with freeNo := s.freeNo + 1 }
    ((k, Config.freeCredits s.freeNo) :: l, s')

/-- The first of the ports with the most credits. -/
def mostCredits : List (Nat × Nat) → Option (Nat × Nat)
  | [] => none
  | x :: r =>
    match mostCredits r with
    | some y => if x.2 < y.2 then some y else some x
    | none => some x

/-- The first hop of a packet that is injected (R311): of the minimal routes the one with more credits, and a detour only
where every minimal hop has fewer than 8 and the detour at least 32, or where no minimal hop is up (R424). -/
def chooseHop (s : State) (me dev : Nat) : Option Nat × State :=
  let (m, s) := withCredits (minimalHops s me dev) s
  let (d, s) := withCredits (detourHops s me dev) s
  (match mostCredits m, mostCredits d with
  | some x, some y => if x.2 < 8 && decide (32 ≤ y.2) then some y.1 else some x.1
  | some x, none => some x.1
  | none, y => y.map (·.1), s)

/-- The port on which an intermediate device forwards a packet that came in through another: the route alternates between
row and column, and goes on along its line where the destination is on it (R311). -/
def forwardPort (me port dev : Nat) : Option Nat :=
  (if port < 15 then colPort me dev ++ rowPort me dev else rowPort me dev ++ colPort me dev).head?

/-- A packet's number in the outbox, on a channel of a port (R312). -/
def sendBy (s : State) (k vc : Nat) (p : Packet) (flits : Nat) : State :=
  pushFlits (sendRaw s p) k vc s.outbox.length flits

/-- Send a packet to another device (R311, R312): on channel 0 of the first hop that the router chooses; with no port in
RUN that leads on it stays here. -/
def sendOut (s : State) (p : Packet) : State :=
  let me := s.fabric.frpos.toNat % 256
  if me = p.dev then sendRaw s p
  else
    match chooseHop s me p.dev with
    | (none, s) => sendRaw s p
    | (some k, s) => sendBy s k 0 p (1 + (p.bytes.length + 63) / 64)

/-! ### Registers -/

/-- Where the poison of a scalar register is kept: handler registers have keys of their own. -/
def sKey (g : Group) (r : Nat) : Nat := if hmode g && r < 8 then 128 + r else r

/-- A scalar register; in handler mode s0 to s7 are the handler registers (R358). -/
def getS (g : Group) (r : Nat) : Word :=
  match g.handler with
  | some h => if r < 8 then tgetD h.regs r 0#64 else tgetD g.sregs r 0#64
  | none => tgetD g.sregs r 0#64

/-- The scalar register is full; handler registers have bits of their own (log 7). -/
def fullS (g : Group) (r : Nat) : Bool :=
  match g.handler with
  | some h => if r < 8 then h.full.getLsbD r else g.sfull.getLsbD r
  | none => g.sfull.getLsbD r

/-- The scalar register is poisoned (R406). -/
def poisonedS (g : Group) (r : Nat) : Bool := g.spoison.contains (sKey g r)

/-- Write a scalar register; the write clears its poison (R406). -/
def putS (g : Group) (r : Nat) (v : Word) : Group :=
  match g.handler with
  | some h =>
    if r < 8 then { g with handler := some { h with regs := tset h.regs r v }, spoison := sdel1 g.spoison (128 + r) }
    else { g with sregs := tset g.sregs r v, spoison := sdel1 g.spoison r }
  | none => { g with sregs := tset g.sregs r v, spoison := sdel1 g.spoison r }

/-- One lane of a vector register. -/
def getV (g : Group) (r l : Nat) : Lane := tgetD g.vregs (laneKey r l) 0#32

/-- The vector register is full. -/
def fullV (g : Group) (r : Nat) : Bool := g.vfull.getLsbD r

/-- The lane is poisoned (R406). -/
def poisonedV (g : Group) (r l : Nat) : Bool := g.vpoison.contains (laneKey r l)

/-- Write one lane of a vector register; the write clears its poison (R406). -/
def putV (g : Group) (r l : Nat) (v : Lane) : Group :=
  { g with vregs := tset g.vregs (laneKey r l) v, vpoison := sdel1 g.vpoison (laneKey r l) }

/-- Poison one lane. -/
def poisonV (g : Group) (r l : Nat) : Group := { g with vpoison := sadd1 g.vpoison (laneKey r l) }

/-- Poison a scalar register. -/
def poisonS (g : Group) (r : Nat) : Group := { g with spoison := sadd1 g.spoison (sKey g r) }

/-- Mark a vector register full or empty (R41). -/
def markV (g : Group) (r : Nat) (b : Bool) : Group :=
  { g with vfull := if b then g.vfull ||| (1#256 <<< r) else g.vfull &&& ~~~(1#256 <<< r) }

/-- A bit of a set of bits set or cleared. -/
def withBit {n : Nat} (x : BitVec n) (k : Nat) (b : Bool) : BitVec n :=
  if b then x ||| (1#n <<< k) else x &&& ~~~(1#n <<< k)

/-- Mark a scalar register of the group's own full or empty (R41). -/
def markOwnS (g : Group) (r : Nat) (b : Bool) : Group := { g with sfull := withBit g.sfull r b }

/-- Mark the scalar register that a name means full or empty (R41, R358). -/
def markS (g : Group) (r : Nat) (b : Bool) : Group :=
  match g.handler with
  | some h => if r < 8 then { g with handler := some { h with full := withBit h.full r b } } else markOwnS g r b
  | none => markOwnS g r b

/-- A lane predicate as a mask; p0 reads true (R167). -/
def getP (g : Group) (p : Nat) : Word := if p = 0 then BitVec.allOnes 64 else tgetD g.preds p 0#64

/-- Write a lane predicate; writes to p0 are ignored (R168). -/
def putP (g : Group) (p : Nat) (m : Word) : Group := if p = 0 then g else { g with preds := tset g.preds p m }

/-- A uniform predicate; q0 reads true (R178). -/
def getQ (g : Group) (q : Nat) : Bool := q == 0 || g.unis.getLsbD q

/-- Write a uniform predicate; writes to q0 are ignored (R178). -/
def putQ (g : Group) (q : Nat) (b : Bool) : Group :=
  if q = 0 then g else { g with unis := if b then g.unis ||| (1#8 <<< q) else g.unis &&& ~~~(1#8 <<< q) }

/-- The lanes of the strand's active mask within the width, rising. -/
def strandLanes (g : Group) (e : Entry) : List Nat := bitsBelow e.mask g.width

/-- The lanes of a strand whose guard is true (R167). -/
def guardLanes (g : Group) (e : Entry) (gn : BitVec 1) (gp : BitVec 3) : List Nat :=
  (strandLanes g e).filter fun l => (getP g gp.toNat).getLsbD l != bit1 gn

/-- A mask with the listed lanes. -/
def maskOf (l : List Nat) : Word := l.foldl (fun m i => m ||| (1#64 <<< i)) 0#64

/-! ### Signatures, and the values a trailing copy takes from its leading copy -/

/-- One bit step of the signature's CRC-64 (R419). -/
def crcStep (x : Word) : Word := if x.getLsbD 63 then (x <<< 1) ^^^ 0x42F0E1EBA9EA3693#64 else x <<< 1

/-- Fold one byte into a signature (R419). -/
def foldByte (sig : Word) (b : Byte) : Word := (List.range 8).foldl (fun x _ => crcStep x) (sig ^^^ (b.setWidth 64 <<< 56))

/-- Fold bytes into a signature (R419). -/
def foldBytes (sig : Word) (l : List Byte) : Word := l.foldl foldByte sig

/-- The bytes of a word, least significant first. -/
def wordBytes8 (w : Word) : List Byte := leBytes w.toNat 8

/-- Fold a record into the issuing group's signature; only a redundant team's groups keep one (R419). -/
def foldRecord (s : State) (l : List Byte) : State :=
  let g := curGroup s
  if (teamOf s g).mate.isSome then setGroup s { g with sig := foldBytes g.sig l } else s

/-- The core of the other copy of a redundant team: the same local core of cluster (g + 7) mod 14 (R62). -/
def mateCore (c : Nat) : Nat := (c + 98) % 196

/-- What identifies a group in both copies of a redundant team: its first lane number and its width. -/
def groupKey (g : Group) : Nat := g.laneNo.headD 0 * 128 + g.width

/-- The oldest record of the issue order that is for a group (R417, R444). -/
def headValue (s : State) (gid : Nat) : Option LoadValue :=
  let g := tgetD s.groups gid {}
  (teamOf s g).values.find? fun v => v.group == groupKey g

/-- Take the oldest record of the issuing group out of the queue. -/
def popValue (s : State) : State :=
  let g := curGroup s
  modTeam s g fun t => { t with values := t.values.eraseP fun v => v.group == groupKey g }

/-- The trailing copy cannot follow the recorded order: it stops, and a check point is forced that fails (R444). -/
def cannotFollow (s : State) : State :=
  let f (s : State) (k : Nat) : State := { s with teams := tmod s.teams k fun t => { t with force := some .schedule } }
  match (curGroup s).owner with
  | .spawned _ => s
  | .team t =>
    match (tgetD s.teams t {}).mate with
    | some m => f (f s t) m
    | none => f s t

/-- Values obtained from outside the registers (R417): the trailing copy of a redundant team takes them from the
record, the leading copy notes them for it, and any other group just obtains them. -/
def outside (kind : Nat) (vals : List Word) (s : State) : Act (List Word × State) :=
  let t := teamOf s (curGroup s)
  if t.trailing then
    match headValue s s.cur.gid with
    | some v => if v.kind = kind then .ok (v.vals, s) else waitHere (cannotFollow s)
    | none => waitHere s
  else if t.mate.isSome then .ok (vals, { s with obtained := some { kind := kind, vals := vals } })
  else .ok (vals, s)

/-- The values of an access or copy of the leading copy become known (R417). -/
def fillValue (s : State) (out : Nat) (vals : List Word) (bad : List Nat) : State :=
  { s with teams := s.teams.map fun t =>
      (t.1, { t.2 with values := t.2.values.map fun v =>
        if v.out == out && out != 0 then { v with vals := vals, bad := bad, out := 0 } else v }) }

/-- An external action, a phase flip or a store beyond the held-store buffer of a team launched with CHK = 1 (R411,
R416): it forces a check point, and is performed once the check point has passed and let this strand go on. -/
def afterCheck (why : Force) (s : State) : Act State :=
  let g := curGroup s
  let me := (s.cur.gid, s.cur.entry)
  if !chkOf s g || isTrailing s g then .ok s
  else if (teamOf s g).granted == some me then
    .ok (modTeam s g fun t => { t with granted := none, force := some .settle })
  else if (teamOf s g).force.isSome then holdHere s
  else holdHere (modTeam s g fun t => { t with force := some why, forcedBy := some me })

/-- Force a check point of the issuing group's team; the strand waits (R411). -/
def forceCheck {α : Type} (why : Force) (s : State) : Act α :=
  holdHere (modTeam s (curGroup s) fun t => { t with force := some (t.force.getD why) })

/-- Record an issue of the leading copy for the trailing one, or take the record off as the trailing copy issues
(R417). Other groups record nothing. -/
def record (s s' : State) (trap : Option TrapInfo) : State :=
  let g := curGroup s
  let t := teamOf s g
  match t.mate with
  | none => s'
  | some m =>
    if t.trailing then { s' with teams := tmod s'.teams ((teamKey g).getD 0) fun t =>
      { t with values := t.values.eraseP fun v => v.group == groupKey g } }
    else
      let e := strandOf g s.cur.entry
      let v := s'.obtained.getD {}
      let v := { v with group := groupKey g, mask := e.mask, pc := e.pc, trap := trap }
      { s' with obtained := none, teams := tmod s'.teams m fun t => { t with values := t.values ++ [v] } }

/-! ### Sources and destinations -/

/-- What an instruction names: scalar and vector sources with their mode bits (true: trap mode), destinations, registers
that it names as neither (`ns`, `nv`: by an index, or as a run that it reads later), the
sources whose poison steers (R408), and the trap it takes in handler mode (R359; 0 for none). -/
structure Plan where
  sr : List (Nat × Bool) := []
  vr : List (Nat × Bool) := []
  sw : List Nat := []
  vw : List Nat := []
  ns : List Nat := []
  nv : List Nat := []
  steerS : List Nat := []
  steerV : List Nat := []
  hcode : Nat := 0
  deriving Repr

/-- Every register a plan names lies below the declaration (R164). -/
def planFits (s : State) (g : Group) (p : Plan) : Bool :=
  (p.sr.all fun x => decide (x.1 < declS s g)) && (p.vr.all fun x => decide (x.1 < declV s g)) &&
  (p.sw.all fun r => decide (r < declS s g)) && (p.vw.all fun r => decide (r < declV s g)) &&
  (p.ns.all fun r => decide (r < declS s g)) && (p.nv.all fun r => decide (r < declV s g))

/-- A source in trap mode is empty (R378). -/
def planEmptyTrap (g : Group) (p : Plan) : Bool :=
  (p.sr.any fun x => x.2 && !fullS g x.1) || (p.vr.any fun x => x.2 && !fullV g x.1)

/-- Every source is full. -/
def planFull (g : Group) (p : Plan) : Bool :=
  (p.sr.all fun x => fullS g x.1) && (p.vr.all fun x => fullV g x.1)

/-- The lowest poisoned lane among the steering sources (R408); a poisoned scalar counts as lane 0. -/
def planPoison (g : Group) (p : Plan) (lanes : List Nat) : Option Nat :=
  if p.steerS.any (poisonedS g) then some 0
  else lanes.find? fun l => p.steerV.any fun r => poisonedV g r l

/-- The landing records that fall due before an instruction naming the listed vector registers (R443): it waits for
their landing, and they are folded in order. -/
def foldDue (regs : List Nat) (s : State) : Act State :=
  let g := curGroup s
  let due := g.folds.filter fun f => f.2.regs.any regs.contains
  if due.isEmpty then .ok s
  else if due.all (fun f => f.2.landed) then
    .ok (setGroup s { g with sig := foldBytes g.sig (due.flatMap fun f => f.2.bytes),
                             folds := g.folds.filter fun f => !f.2.regs.any regs.contains })
  else holdHere s

/-- The checks that come before an instruction's own: register limits (R164), empty reads in trap mode (R378), the
handler-mode restriction (R359), waiting for empty sources (R41), poison that steers (R408), and the landing records
due (R443). A vector-class word with no active lane makes only the first (R166). An instruction that goes on part done
has passed them and makes none (R378, R387). -/
def begin_ (p : Plan) (lanes : Option (List Nat)) (s : State) : Act State :=
  let g := curGroup s
  if (curStrand s).stage ≠ 0 then .ok s
  else if !planFits s g p then trapWith 0x03
  else if lanes == some [] then .ok s
  else if planEmptyTrap g p then trapWith 0x04
  else if hmode g && p.hcode != 0 then trapWith p.hcode
  else if !planFull g p then waitHere s
  else
    match planPoison g p (lanes.getD []) with
    | some l => trapLane 0x18 l 0#64
    | none => foldDue (p.vr.map (·.1) ++ p.vw) s

/-- Wait until the destinations are full (R41). -/
def dstFull (sw vw : List Nat) (s : State) : Act Unit :=
  let g := curGroup s
  until_ ((sw.all (fullS g)) && (vw.all (fullV g))) s

/-- Set sr.chk.PC of a group's team or of a spawned group (R407, R409). -/
def consumed (s : State) (g : Group) : State :=
  match g.owner with
  | .team t =>
    let set (s : State) (k : Nat) : State :=
      { s with teams := tmod s.teams k fun t => { t with chk := { t.chk with pc := true } } }
    match (tgetD s.teams t {}).mate with
    | some m => set (set s t) m
    | none => set s t
  | .spawned k => { s with spawned := tmod s.spawned k fun x => { x with chk := { x.chk with pc := true } } }

/-- Set sr.chk.PW (R407). -/
def wrotePoison (s : State) (g : Group) : State :=
  match g.owner with
  | .team t => { s with teams := tmod s.teams t fun t => { t with chk := { t.chk with pw := true } } }
  | .spawned k => { s with spawned := tmod s.spawned k fun x => { x with chk := { x.chk with pw := true } } }

/-- Write a scalar result that a poisoned source makes poisoned (R407). -/
def writeScalar (s : State) (r : Nat) (v : Word) (poison : Bool) : State :=
  let g := putS (curGroup s) r v
  if poison then consumed (setGroup s (poisonS g r)) g else setGroup s g

/-- Write lanes of a vector register, each with whether a source lane was poisoned (R407). -/
def writeLanes (s : State) (r : Nat) (vals : List (Nat × Lane × Bool)) : State :=
  let g := vals.foldl (fun g x => if x.2.2 then poisonV (putV g r x.1 x.2.1) r x.1 else putV g r x.1 x.2.1) (curGroup s)
  if vals.any (fun x => x.2.2) then consumed (setGroup s g) g else setGroup s g

/-! ### Strands: moving, dividing and merging -/

/-- The block after one covered word has been judged (R169). -/
def blockNext (b : Option Block) : Option Block :=
  match b with
  | none => none
  | some b => if b.left ≤ 1 then none else some { b with left := b.left - 1, pattern := b.pattern >>> 1 }

/-- The children of an entry. -/
def kidsOf (l : List Entry) (id : Nat) : List Entry := l.filter fun e => e.parent == some id

/-- How many strands are live (R20). -/
def liveCount (l : List Entry) : Nat := (l.filter fun e => e.mode == .live).length

/-- Live strands at their reconvergence PC wait to merge (R21); `mark` orders their arrivals. -/
def markArrived (mark : Nat) (l : List Entry) : List Entry :=
  l.map fun e => if e.mode == .live && e.reconv == some e.pc then { e with mode := .merging, arrived := mark } else e

/-- The child that arrived last. -/
def lastArrived (l : List Entry) : Entry :=
  l.foldl (fun a e => if a.arrived ≤ e.arrived then e else a) { }

/-- The reconvergence PC of a parent when it resumes: that of its own siblings, none for the base entry (log 9). -/
def outerReconv (l : List Entry) (p : Entry) : Option Word :=
  match p.parent with
  | none => none
  | some q => (findEntry l q).bind (·.reconv)

/-- Pop the children of one parent all of whose children wait to merge, and resume it (R21): at the reconvergence PC,
with the union of their masks, outside any block (R170), with the region flag (R292) and recorded phases (R35) of the
child that arrived last. -/
def mergeOne (l : List Entry) : List Entry :=
  match l.find? fun p => p.mode == .parent && !(kidsOf l p.id).isEmpty &&
      (kidsOf l p.id).all (fun k => k.mode == .merging) with
  | none => l
  | some p =>
    let kids := kidsOf l p.id
    let last := lastArrived kids
    let p' : Entry := { p with
      pc := last.pc, mask := kids.foldl (fun m k => m ||| k.mask) 0#64, reconv := outerReconv l p,
      mode := .pending, block := none, noPre := last.noPre, phases := last.phases, stall := 0,
      pend := p.pend ++ kids.flatMap (·.pend) }
    putEntry (l.filter fun e => e.parent != some p.id) p'

/-- The oldest pending entry becomes live while fewer than four strands are (R20). -/
def promoteOne (l : List Entry) : List Entry :=
  if liveCount l < Config.liveStrands then
    match l.filter (fun e => e.mode == .pending) with
    | [] => l
    | p :: r =>
      let o := r.foldl (fun a e => if e.id < a.id then e else a) p
      putEntry l { o with mode := .live }
  else l

/-- Remove entries without lanes; a parent without lanes has no children left (R202). -/
def dropEmpty (l : List Entry) : List Entry := l.filter fun e => e.mask != 0#64

/-- Merge and promote until nothing changes. -/
def settleStack : Nat → Nat → List Entry → List Entry
  | 0, _, l => l
  | n + 1, mark, l => settleStack n mark (promoteOne (mergeOne (markArrived mark (dropEmpty l))))

/-- Spilled entries once those are reloaded that eight or fewer resident ones ask for (R22): eight at a time, the last
spilled first. -/
def reloaded (spilled length : Nat) : Nat := min spilled ((length - 9) / 8 * 8)

/-- A group with its stack settled (R20, R21, R22). -/
def settleGroup (mark : Nat) (g : Group) : Group :=
  let l := settleStack (2 * g.stack.length + 2) mark g.stack
  { g with stack := l, spilled := reloaded g.spilled l.length }

/-- Move the issuing strand to a PC with a block, merging where it stands at its reconvergence PC (R21). -/
def moveTo (s : State) (pc : Word) (b : Option Block) : State :=
  let g := curGroup s
  let e := { strandOf g s.cur.entry with
    pc := pc, block := b, waitsOn := none, released := false, stage := 0, request := 0, spawnLane := 0, stall := 0 }
  let g := putStrand g e
  if !hmode g && e.reconv == some pc then setGroup s (settleGroup s.progress g) else setGroup s g

/-- Go on at next_pc; a covered word is consumed (R169). -/
def advance (s : State) : State :=
  let e := curStrand s
  moveTo s (nextPc e) (blockNext e.block)

/-- Transfer control, which ends a block (R169). -/
def transfer (s : State) (pc : Word) : State := moveTo s pc none

/-- Push one child of a strand (R19): stack and next identity before and after. -/
def pushChild (e : Entry) (rc : Option Word) (acc : List Entry × Nat) (d : Word × Word) : List Entry × Nat :=
  let m : EntryMode := if liveCount acc.1 < Config.liveStrands then .live else .pending
  let c : Entry :=
    { id := acc.2, parent := some e.id, pc := d.1, mask := d.2, reconv := rc, mode := m, noPre := e.noPre,
      phases := e.phases }
  (acc.1 ++ [c], acc.2 + 1)

/-- Divide the issuing strand by destination (R19, R200): it becomes a parent, and one child is pushed for each
(PC, mask), live while fewer than four strands are. A push beyond the total depth traps with no push made (R22). -/
def divide (s : State) (dests : List (Word × Word)) (rc : Option Word) : Act State :=
  let g := curGroup s
  let e := strandOf g s.cur.entry
  if Config.stackDepth < g.stack.length + dests.length then trapWith 0x05
  else
    let p : Entry := { e with mode := .parent, reconv := rc, block := none }
    let base := putEntry g.stack p
    let r := dests.foldl (fun acc d => pushChild e rc acc d) (base, g.nextEntry)
    .ok (setGroup s (settleGroup s.progress { g with stack := r.1, nextEntry := r.2 }))

/-! ### Traps -/

/-- The lanes of a group that have not exited. -/
def aliveLanes (g : Group) : Word := g.stack.foldl (fun m e => m ||| e.mask) 0#64

/-- Abort a launch (R361): no more teams are placed, its spawn records are discarded, its groups stop, and the
management core is told. Teams then retire and posts finish as their own steps say. -/
def abortLaunch (s : State) (seq : Nat) (info : List Nat) : State :=
  match tget s.launches seq with
  | none => s
  | some l =>
    if l.aborted then s
    else
      let s := { s with launches := tset s.launches seq { l with aborted := true } }
      let s := { s with cores := s.cores.map fun c =>
        (c.1, { c.2 with bins := c.2.bins.filter fun b => b.2.launch != seq }) }
      tellMgmt s 0 (seq :: info)

/-- Send a fatal report on every RUN port (R394, R427). -/
def reportFatal (s : State) : State :=
  s.ports.foldl (fun s p => if p.2.state = 3 then sendRaw s { kind := .fatal, dev := p.1 } else s) s

/-- The order of threads (R38): launch sequence number, then team and lane number; spawned threads follow, in spawn
order. -/
def threadOrder (s : State) (g : Group) (lane : Nat) : Nat :=
  launchKey s g * 2 ^ 100 +
    (match g.owner with
     | .team t => (tgetD s.teams t {}).num * 2 ^ 16 + lane
     | .spawned k => 2 ^ 60 + (tgetD s.spawned k {}).orders.getD lane 0)

/-- The lowest thread identifier among some lanes of a group. -/
def lowestThread (s : State) (g : Group) (lanes : List Nat) : Nat :=
  (lanes.map fun l => threadOrder s g (g.laneNo.getD l 0)).foldl min (2 ^ 200)

/-- The number of a group's team, all ones for a spawned group (R286). -/
def teamNumber (s : State) (g : Group) : Word :=
  match g.owner with
  | .team t => BitVec.ofNat 64 (tgetD s.teams t {}).num
  | .spawned _ => BitVec.allOnes 64

/-- The word that sr.tinfo holds for a trap (R286). -/
def tinfoWord (t : TrapInfo) : Word :=
  t.code.setWidth 64 ||| (BitVec.ofNat 64 (t.lane % 64) <<< 8) ||| (t.imm.setWidth 64 <<< 16)

/-- Index of an entry from the base of the stack (R358). -/
def entryIndex (l : List Entry) (id : Nat) : Nat := l.findIdx fun e => e.id == id

/-- The handler registers at entry (R358). -/
def handlerRegs (l : Launch) (g : Group) (e : Entry) (tinfo tpc taddr : Word) : Tab Word :=
  [(0, tinfo), (1, tpc), (2, taddr), (3, BitVec.ofNat 64 (entryIndex g.stack e.id)), (4, e.mask), (5, launchArgs l),
   (6, 0#64), (7, 0#64)]

/-- A stop by STOPALL is still held by a handler, be its group resident or saved (R370, R373, log 60). -/
def stopLive (s : State) (x : StopAll) : Bool :=
  s.groups.any fun g => x.handlers.contains g.1 && hmode g.2

/-- The groups of a launch that stand on some cores. -/
def launchGroups (s : State) (seq : Nat) (cores : List Nat) : Tab Group :=
  s.groups.filter fun g => launchKey s g.2 == seq && cores.contains g.2.core && (teamOf s g.2).phase != .saved

/-- A trap joins the stops of its launch on its core, and on a core with STOPALL set it stops its launch's other groups
(R370). -/
def stopOthers (s : State) (gid : Nat) (g : Group) : State :=
  let seq := launchKey s g
  let join (x : StopAll) : StopAll :=
    if x.launch == seq && x.cores.contains g.core then { x with handlers := sadd1 x.handlers gid } else x
  let live := (s.stops.filter (stopLive s)).map join
  if (tgetD (coreAt s g.core).debug 0x180 0#64).getLsbD 0 then
    let cores := sadd1 (teamOf s g).cores g.core
    let stopped := s.groups.filter fun x => x.2.owner == g.owner || (launchGroups s seq [g.core]).any (·.1 == x.1)
    let x : StopAll :=
      { launch := seq, core := g.core, owner := g.owner, cores := cores, groups := stopped.map (·.1),
        handlers := sadd1 (((launchGroups s seq cores).filter fun h => hmode h.2).map (·.1)) gid }
    { s with stops := live ++ [x] }
  else { s with stops := live }

/-- Handler entry in the trapped group's slot (R358). A GFUSE or a rendezvous wait that the trapped strand stood in is
left: after RETT it starts afresh (R29, R360). -/
def enterHandler (s : State) (gid entry : Nat) (t : TrapInfo) : State :=
  let g := tgetD s.groups gid {}
  let l := launchOf s g
  let e := strandOf g entry
  let tpc := t.tpc.getD e.pc
  let h : Handler :=
    { strand := { id := e.id, pc := launchHandler l, mask := aliveLanes g }
      regs := handlerRegs l g e (tinfoWord t) tpc t.addr
      trapped := e.id, tpc := tpc, tinfo := tinfoWord t, taddr := t.addr }
  let g := putStrand g { e with waitsOn := none, released := false }
  let g := { g with handler := some h, tcode := t.code, stepping := none, fuse := none,
                    spoison := g.spoison.filter (fun k => k < 128) }
  let s := stopOthers s gid g
  { s with groups := tset s.groups gid g }

/-- A fault is taken: what walks of the core and context had found, or will find, is forgotten, so that the access
walks again when it is issued again. -/
def dropFaults (s : State) (core ctx : Nat) : State :=
  { s with
    walkFaults := s.walkFaults.filter fun f => !(f.core == core && f.ctx == ctx)
    walks := s.walks.map fun w => if w.2.core == core && w.2.ctx == ctx then (w.1, { w.2 with dead := true }) else w }

/-- Take a trap (R358, R361): a trap without a handler, or in handler mode, aborts the launch. Poison that steers in a
team launched with CHK = 1 forces a check point instead (R408). -/
def takeTrap (s : State) (t : TrapInfo) : State :=
  let g := curGroup s
  let e := curStrand s
  let s := if t.code == 0x10#8 || t.code == 0x11#8 then dropFaults s g.core (launchOf s g).queue else s
  if t.code == 0x18#8 && chkOf s g then
    let s := consumed s g
    modTeam s g fun x => { x with force := some .poison }
  else
    let s := if t.code == 0x18#8 then consumed s g else s
    if launchHandler (launchOf s g) == 0#64 || hmode g then
      abortLaunch s (launchKey s g)
        [(teamNumber s g).toNat, g.core, g.slot, e.pc.toNat, t.code.toNat]
    else enterHandler s s.cur.gid s.cur.entry t

/-- The checks RETT makes on the stack (R289): every live and pending entry has an aligned PC and a nonempty mask
within the width. -/
def stackSound (g : Group) : Bool :=
  g.stack.all fun e => !(e.mode == .live || e.mode == .pending) ||
    (e.pc &&& 7#64 == 0#64 && e.mask != 0#64 && e.mask &&& ~~~(widthMask g.width) == 0#64)

/-- Leave handler mode (R360): the trapped strand stands at sr.tpc, exempt from breakpoints and watchpoints for one
instruction, and single-steps when SSTEP is set (R371). -/
def leaveHandler (g : Group) (h : Handler) : Group :=
  let fix (e : Entry) : Entry :=
    if e.id == h.trapped then
      if e.pc = h.tpc then { e with stall := 0 }
      else { e with pc := h.tpc, waitsOn := none, released := false, stall := 0, stage := 0, request := 0,
                    spawnLane := 0 }
    else { e with stall := 0 }
  { g with handler := none, stack := g.stack.map fix, exempt := sadd1 g.exempt h.trapped,
           stepping := if g.sstep then some h.trapped else none,
           spoison := g.spoison.filter fun k => k < 128 }

/-- Make a trap pending on a strand (R356); a strand that has merged leaves it to the newest live strand (log 11). -/
def pendTrap (s : State) (gid entry : Nat) (t : TrapInfo) : State :=
  match tget s.groups gid with
  | none => s
  | some g =>
    let id := if (findEntry g.stack entry).isSome then entry else ((g.stack.getLast?).map (·.id)).getD 0
    let st := g.stack.map fun e => if e.id == id then { e with pend := e.pend ++ [t], stall := 0 } else e
    { s with groups := tset s.groups gid { g with stack := st } }

/-! ### What follows an instruction -/

/-- Armed injections of a slot count the instructions its group issues (R420, R441). -/
def noteInjections (g : Group) (s : State) : State :=
  { s with injections := s.injections.map fun i =>
      if i.2.core == g.core && (i.2.slot == g.slot || g.held.contains i.2.slot) then
        (i.1, { i.2 with after := i.2.after - 1 })
      else i }

/-- The exemption of a strand that RETT resumed ends with its first instruction (R360). -/
def noteExempt (before : Group) (gid entry : Nat) (s : State) : State :=
  if hmode before then s
  else { s with groups := tmod s.groups gid fun g => { g with exempt := sdel1 g.exempt entry } }

/-- The entry that takes the single-step trap: the stepped one, the child nearest the top where it divided, or the parent
that its merge resumed (R371). -/
def stepEntry (l : List Entry) (old : Entry) : Option Entry :=
  match findEntry l old.id with
  | some e =>
    if e.mode == .parent then ((kidsOf l e.id).filter fun k => k.mode == .live).getLast? else some e
  | none => old.parent.bind (findEntry l)

/-- An instruction of the leading copy that another strand completed, recorded for the trailing copy (R417). -/
def recordFor (s : State) (g : Group) (e : Entry) (kind : Nat) (vals : List Word) : State :=
  let t := teamOf s g
  match t.mate with
  | some m =>
    if t.trailing then s
    else
      let v : LoadValue := { group := groupKey g, mask := e.mask, pc := e.pc, kind := kind, vals := vals }
      { s with teams := tmod s.teams m fun t => { t with values := t.values ++ [v] } }
  | none => s

/-- What follows an instruction that another strand, or an event, completed for a waiting strand: the counts, and, where
it was single-stepped, its trap, pending at its next boundary (R360, R371, R420). -/
def doneElsewhere (before : Group) (gid : Nat) (old : Entry) (s : State) : State :=
  let s := noteExempt before gid old.id (noteInjections before s)
  if before.stepping != some old.id then s
  else
    match (tget s.groups gid).bind fun g => stepEntry g.stack old with
    | none => s
    | some e =>
      let s := pendTrap s gid e.id { code := 0x32#8 }
      { s with groups := tmod s.groups gid fun g => { g with stepping := some e.id } }

/-- Do something as a given strand. -/
def asStrand (s : State) (gid entry : Nat) (f : State → State) : State :=
  { f { s with cur := { gid := gid, entry := entry } } with cur := s.cur }

/-- A completed instruction or step lets every stalled strand try again. -/
def progressed (s : State) : State := { s with progress := s.progress + 1 }

/-- The strand could not issue: only its mark changes (R70). -/
def stalled (s : State) : State := setStrand s { curStrand s with stall := s.progress + 1 }

/-- An instruction that traps at its own checks keeps nothing of a wait it stood in. -/
def dropWait (s : State) : State :=
  let e := curStrand s
  if e.stage = 0 then s
  else
    setStrand
      { s with
        convRequests := terase s.convRequests e.request
        posts := s.posts.filter fun p =>
          !(p.2.gid == s.cur.gid && p.2.entry == s.cur.entry && p.2.phase == PostPhase.waiting) }
      { e with stage := 0, request := 0 }

/-- The trap that the record gives the trailing copy's issue: the one its leading copy took (R417). -/
def recordedTrap (s : State) : Option TrapInfo :=
  if isTrailing s (curGroup s) then (headValue s s.cur.gid).bind (·.trap) else none

/-- The outcome of an instruction: its next state, the trap it takes, or its wait. -/
def finish_ (s : State) (a : Act State) : Host.Outcome State Fault Refusal :=
  match recordedTrap s with
  | some t => .next (progressed (takeTrap (popValue s) t))
  | none =>
    match a with
    | .ok s' => .next (progressed (record s s' none))
    | .error (.trap t) =>
      if isTrailing s (curGroup s) then .next (progressed (cannotFollow s))
      else if t.code == 0x18#8 && chkOf s (curGroup s) then .next (progressed (takeTrap s t))
      else
        let s' := dropWait s
        .next (progressed (takeTrap (record s' s' (some t)) t))
    | .error (.wait s') => .next (stalled s')

/-- The outcome of a device step: its next state where it is due; a step that is not due changes nothing (log 1). -/
def event_ (s : State) (a : Option State) : Host.Outcome State Fault Refusal :=
  match a with
  | some s' => .next (progressed s')
  | none => .next s

end Sys2Proof.Machine
end

