-- ==== Sys2Proof/Machine/Flags.lean ====
section
/-!
DEFINITION. The predicate computations: scalar relations, vector relations, float classes, and the combine types by
which a compare writes its two predicates.
-/

namespace Sys2Proof.Machine

/-- The relations of SCMP (R186). -/
def scmpHolds (rel : Nat) (a b : Word) : Bool :=
  match rel with
  | 0 => a == b
  | 1 => a != b
  | 2 => a.slt b
  | 3 => a.sle b
  | 4 => b.slt a
  | 5 => b.sle a
  | 6 => a.ult b
  | 7 => a.ule b
  | 8 => b.ult a
  | 9 => b.ule a
  | 10 => a &&& b != 0#64
  | _ => a &&& b == 0#64

/-- The relations of VCMP on signed or unsigned lanes (R156). -/
def vcmpHolds (rel : Nat) (unsigned : Bool) (a b : Lane) : Bool :=
  let lt (x y : Lane) : Bool := if unsigned then x.ult y else x.slt y
  match rel with
  | 0 => a == b
  | 1 => a != b
  | 2 => lt a b
  | 3 => !lt b a
  | 4 => lt b a
  | 5 => !lt a b
  | 6 => a &&& b != 0#32
  | _ => a &&& b == 0#32

/-- The relations of FCMP on values (R156): with a NaN, NE and UNO hold and the others do not. -/
def fcmpHolds (rel : Nat) (a b : FVal) : Bool :=
  match cmpVal a b with
  | none => rel == 1 || rel == 7
  | some o =>
    match rel with
    | 0 => o == .eq
    | 1 => o != .eq
    | 2 => o == .lt
    | 3 => o != .gt
    | 4 => o == .gt
    | 5 => o != .lt
    | 6 => true
    | _ => false

/-- The float format of a compare type (R156). -/
def ctypFmt (ctyp : Nat) : FFmt :=
  match ctyp with
  | 0 => fp32
  | 1 => fp16
  | _ => bf16

/-- The value a compare reads from a lane (R217). -/
def ctypValue (ctyp : Nat) (x : Lane) : FVal :=
  let f := ctypFmt ctyp
  floatValue f (x.toNat % (2 * f.sign))

/-- The class of a code (R218). -/
def floatClass (f : FFmt) (x : Nat) : Nat :=
  let neg := x / f.sign % 2 == 1
  let mag := x % f.sign
  let frac := mag % 2 ^ f.fb
  let e := mag / 2 ^ f.fb
  if mag = f.infCode && f.hasInf then (if neg then 0 else 7)
  else if mag > f.maxCode then (if frac < 2 ^ (f.fb - 1) then 8 else 9)
  else if mag = 0 then (if neg then 3 else 4)
  else if e = 0 then (if neg then 2 else 5)
  else if neg then 1 else 6

/-- What a compare writes to a lane of pd1 and pd2 (R168): combine type, guard, the values held before, the compare's
result. -/
def combine (ct : Nat) (g x y c : Bool) : Bool × Bool :=
  match ct with
  | 0 => if g then (c, !c) else (x, y)
  | 1 => (g && c, g && !c)
  | 2 => if g then (x && c, y || !c) else (x, y)
  | 3 => if g then (x || c, y && !c) else (x, y)
  | 4 => if g then (x && !c, y || c) else (x, y)
  | 5 => if g then (x || !c, y && c) else (x, y)
  | 6 => if g then (x != c, !(x != c)) else (x, y)
  | _ => (x && g && c, x && g && !c)

/-- The combine types that write every lane of the active mask whatever the guard (R168). -/
def combineAll (ct : Nat) : Bool := ct == 1 || ct == 7

/-- A compare's two predicates after it (R168), over the lanes of the strand's active mask. -/
def writeCompare (g : Group) (lanes guard : List Nat) (ct pd1 pd2 : Nat) (c : Nat → Bool) : Group :=
  let p1 := getP g pd1
  let p2 := getP g pd2
  let r := lanes.foldl (fun (m : Word × Word) l =>
    let q := combine ct (guard.contains l) (p1.getLsbD l) (p2.getLsbD l) (guard.contains l && c l)
    (setBit m.1 l q.1, setBit m.2 l q.2)) (p1, p2)
  putP (putP g pd1 r.1) pd2 r.2

end Sys2Proof.Machine
end

