-- ==== Sys2Proof/Machine/Operands.lean ====
section
/-!
DEFINITION. The operand forms: scalar sources and immediates, vector sources with a scalar in their place, and the
shapes of instruction that share them.
-/

namespace Sys2Proof.Machine

/-- A source field with its mode bit (R165). -/
def src {n : Nat} (r : BitVec n) (m : BitVec 1) : Nat × Bool := (r.toNat, bit1 m)

/-- imm32 sign-extended (R158). -/
def imm64 (i : BitVec 32) : Word := i.signExtend 64

/-- A scalar instruction: its sources, its destination, its result and the sources that carry poison (R178, R407). -/
def scalarOp (srcs : List (Nat × Bool)) (sd : Nat) (f : Group → Word) (s : State) : Act State := do
  let s ← begin_ { sr := srcs, sw := [sd] } none s
  dstFull [sd] [] s
  let g := curGroup s
  .ok (advance (writeScalar s sd (f g) (srcs.any fun x => poisonedS g x.1)))

/-- A register form of two sources (R179). -/
def scalarRR (o : SRegs) (f : Word → Word → Word) (s : State) : Act State :=
  scalarOp [src o.sa o.fa, src o.sb o.fb] o.sd.toNat (fun g => f (getS g o.sa.toNat) (getS g o.sb.toNat)) s

/-- An immediate form of two operands (R179). -/
def scalarRI (o : SImm) (f : Word → Word → Word) (s : State) : Act State :=
  scalarOp [src o.sa o.fa] o.sd.toNat (fun g => f (getS g o.sa.toNat) (imm64 o.imm)) s

/-- A uniform instruction that writes a uniform predicate (R178); poison in a source steers (R408). -/
def predOp (srcs : List (Nat × Bool)) (qd : Nat) (f : Group → Bool) (s : State) : Act State := do
  let s ← begin_ { sr := srcs, steerS := srcs.map (·.1) } none s
  let g := curGroup s
  .ok (advance (setGroup s (putQ g qd (f g))))

/-- The second source of a V-format word as a scalar or as a vector source (R152). -/
def bScalar (vbs : BitVec 1) (vb : BitVec 8) (fb : BitVec 1) : List (Nat × Bool) :=
  if bit1 vbs then [src vb fb] else []
/-- The second source as a vector register. -/
def bVector (vbs : BitVec 1) (vb : BitVec 8) (fb : BitVec 1) : List (Nat × Bool) :=
  if bit1 vbs then [] else [src vb fb]
/-- The second source in a lane: with vbs, bits [31:0] of the scalar (R152). -/
def bLane (g : Group) (vbs : BitVec 1) (vb : BitVec 8) (l : Nat) : Lane :=
  if bit1 vbs then (getS g vb.toNat).setWidth 32 else getV g vb.toNat l
/-- Whether the second source is poisoned in a lane. -/
def bPoison (g : Group) (vbs : BitVec 1) (vb : BitVec 8) (l : Nat) : Bool :=
  if bit1 vbs then poisonedS g vb.toNat else poisonedV g vb.toNat l

/-- A lane-wise instruction (R207): guard, sources, destination, and per lane its result and whether a source lane is
poisoned. With no active lane it has no effect (R166). -/
def vectorOp (gn : BitVec 1) (gp : BitVec 3) (sr vr : List (Nat × Bool)) (vd : Nat)
    (f : Group → Nat → Lane) (p : Group → Nat → Bool) (s : State) : Act State := do
  let g := curGroup s
  let lanes := guardLanes g (curStrand s) gn gp
  let s ← begin_ { sr := sr, vr := vr, vw := [vd] } (some lanes) s
  if lanes.isEmpty then .ok (advance s)
  else do
    dstFull [] [vd] s
    .ok (advance (writeLanes s vd (lanes.map fun l => (l, f g l, p g l))))

/-- Two lane-wise sources. -/
def vectorTwo (gn : BitVec 1) (gp : BitVec 3) (vd va vb : BitVec 8) (vbs fa fb : BitVec 1)
    (f : Lane → Lane → Lane) (s : State) : Act State :=
  vectorOp gn gp (bScalar vbs vb fb) (src va fa :: bVector vbs vb fb) vd.toNat
    (fun g l => f (getV g va.toNat l) (bLane g vbs vb l))
    (fun g l => poisonedV g va.toNat l || bPoison g vbs vb l) s

/-- Three lane-wise sources. -/
def vectorThree (gn : BitVec 1) (gp : BitVec 3) (vd va vb vc : BitVec 8) (vbs fa fb fc : BitVec 1)
    (f : Lane → Lane → Lane → Lane) (s : State) : Act State :=
  vectorOp gn gp (bScalar vbs vb fb) (src va fa :: src vc fc :: bVector vbs vb fb) vd.toNat
    (fun g l => f (getV g va.toNat l) (bLane g vbs vb l) (getV g vc.toNat l))
    (fun g l => poisonedV g va.toNat l || bPoison g vbs vb l || poisonedV g vc.toNat l) s

/-- One lane-wise source. -/
def vectorOne (gn : BitVec 1) (gp : BitVec 3) (vd va : BitVec 8) (fa : BitVec 1) (f : Lane → Lane) (s : State) :
    Act State :=
  vectorOp gn gp [] [src va fa] vd.toNat (fun g l => f (getV g va.toNat l)) (fun g l => poisonedV g va.toNat l) s

/-- A compare (R168): guard, combine type, destinations, sources, and the result in a lane. Poison steers (R408). -/
def compareOp (gn : BitVec 1) (gp ct pd1 pd2 : BitVec 3) (sr vr : List (Nat × Bool)) (c : Group → Nat → Bool)
    (s : State) : Act State := do
  let g := curGroup s
  let e := curStrand s
  let lanes := guardLanes g e gn gp
  let s ← begin_ { sr := sr, vr := vr, steerS := sr.map (·.1), steerV := vr.map (·.1) } (some lanes) s
  let g := curGroup s
  if lanes.isEmpty && !combineAll ct.toNat then .ok (advance s)
  else .ok (advance (setGroup s (writeCompare g (strandLanes g e) lanes ct.toNat pd1.toNat pd2.toNat (c g))))

end Sys2Proof.Machine
end

