-- ==== Sys2Proof/Machine/Trains.lean ====
section
/-!
DEFINITION. The trains of the on-die network: their sources, and the golden train (R81, R95 to R98).
-/

namespace Sys2Proof.Machine

/-- The home slice of a DRAM address (R81). -/
def homeSlice (p : Nat) : Nat :=
  let u := p / 512
  let st := u / 98
  let k := u % 98
  if st < Config.dramSize / 512 / 98 then (k + 17 * st) % 98 else k

/-- The source number of a home slice (R96). -/
def sliceSource (sl : Nat) : Nat := 196 + sl

/-- The slice that an access is sent to: the anchor of R95, of its lowest lane. -/
def anchorOf (o : Out) : Nat :=
  let pa := (o.lanes.headD {}).pa
  if o.space = 1 then 7 * ((pa - Config.vaultBase) / Config.vaultEach) + o.core % 14 / 2 else homeSlice pa

/-- A source's trains. -/
def sourceAt (s : State) (k : Nat) : Source := tgetD s.sources k {}

/-- The oldest train of a source: in flight, or at the head of its queue (R97). -/
def oldestTrain (s : State) (k : Nat) : Option Nat := ((sourceAt s k).flight ++ (sourceAt s k).inject).head?

/-- The first source from k on, in the order of R97, that has a train, and its oldest one. -/
def nextGolden (s : State) (k : Nat) : Option (Nat × Nat) :=
  ((List.range 294).map fun i => (k + i) % 294).findSome? fun j => (oldestTrain s j).map fun t => (j, t)

/-- The golden identity passes to source k or the next after it with a train (R97); with none it stays at k. -/
def passGolden (s : State) (k : Nat) : State :=
  match nextGolden s k with
  | some (j, t) => { s with golden := j, goldenTrain := some t, goldenHold := none }
  | none => { s with golden := k % 294, goldenTrain := none, goldenHold := none }

/-- The train is the golden one (R97). -/
def isGolden (s : State) (id : Nat) : Bool := s.goldenTrain == some id

/-- A new train waits at a source. It is golden where no train is, be it that none travels or that it is a landing write
that frees an occupied reserved place (R97, R98). -/
def newTrain (s : State) (src : Nat) (cargo : Cargo) (item : Nat) (home : Bool) : State :=
  let (id, s) := freshId s
  let q := sourceAt s src
  let s := { s with
    trains := tset s.trains id { src := src, cargo := cargo, item := item, home := home }
    sources := tset s.sources src { q with inject := q.inject ++ [id] } }
  if s.goldenTrain.isSome then s
  else if s.goldenHold.isSome then (if cargo == .landing then { s with goldenTrain := some id } else s)
  else { s with golden := src, goldenTrain := some id }

/-- A train is delivered: it leaves its source, and a golden one passes the identity on (R96, R97). -/
def dropTrain (s : State) (id : Nat) : State :=
  match tget s.trains id with
  | none => s
  | some t =>
    let q := sourceAt s t.src
    let s' := { s with
      trains := terase s.trains id
      sources := tset s.sources t.src { inject := sdel1 q.inject id, flight := sdel1 q.flight id } }
    if isGolden s id then passGolden s' (s.golden + 1) else s'

/-- A golden coach is back at its core, in the reserved place of the landing staging buffer: the identity stays until the
place is free (R98). -/
def holdGolden (s : State) (id : Nat) (item : Nat) : State :=
  if isGolden s id then { dropTrain s id with golden := s.golden, goldenTrain := none, goldenHold := some item }
  else dropTrain s id

/-- The reserved place that a coach may hold is free, unless landing writes have yet to empty it (R98). -/
def releasePlace (s : State) (item : Nat) : State :=
  if s.goldenHold == some item && s.goldenTrain.isNone then passGolden s (s.golden + 1) else s

end Sys2Proof.Machine
end

