-- ==== Sys2Proof/Machine/Cache.lean ====
section
/-!
DEFINITION. Translation (R82 to R86), memory behind the caches with its poison, the L1 with its write-backs (R78 to
R80, R118), and the instruction caches (R133).
-/

namespace Sys2Proof.Machine

/-! ### Translation -/

/-- The translation context of a group: that of its launch's queue (R86). -/
def ctxOf (s : State) (g : Group) : Nat := (launchOf s g).queue

/-- The size of a page by its SIZE code (R83). -/
def pageSize (code : Nat) : Nat :=
  match code with
  | 0 => 0x1000
  | 1 => 0x4000
  | 2 => 0x10000
  | 3 => 0x40000
  | 4 => 0x200000
  | 5 => 0x2000000
  | 6 => 0x40000000
  | _ => 0x400000000

/-- The level at which a SIZE code may stand (R84). -/
def sizeLevel (code : Nat) : Nat := if code < 4 then 0 else if code < 6 then 1 else 2

/-- Whether a page or table lies inside the range of every LOCKED or RUN port that grants the context (R345). -/
def inPortRange (s : State) (ctx lo size : Nat) : Bool :=
  s.ports.all fun p =>
    let q := p.2
    !((q.state == 2 || q.state == 3) && q.qmask.getLsbD ctx) ||
      (decide ((q.cfg.extractLsb' 16 10).toNat * 2 ^ 30 ≤ lo) &&
       decide (lo + size ≤ (q.cfg.extractLsb' 32 10).toNat * 2 ^ 30))

/-- The reserved bits of a table entry (R83). -/
def pteReserved : Word := 0x07F0000000000F9C#64

/-- How a walk ends: a page, or a fault code and whether a poisoned entry caused it (R85, R408). -/
inductive WalkEnd where
  | page (e : TlbEntry)
  | fault (code : Nat) (poison : Bool)
  deriving DecidableEq, Repr

/-- The leaf of a walk (R83 to R85): SIZE allowed at its level, low PFN bits 0, the page within DRAM and ranges. -/
def walkLeaf (s : State) (ctx : Nat) (va : Word) (level : Nat) (e : Word) : WalkEnd :=
  let code := (e.extractLsb' 61 3).toNat
  let size := pageSize code
  let pfn := (e.extractLsb' 12 40).toNat * 4096
  if 3 ≤ level || sizeLevel code != level || pfn % size != 0 then .fault 0x10 false
  else if Config.dramSize < pfn + size || !inPortRange s ctx pfn size then .fault 0x11 false
  else
    .page { ctx := ctx, vbase := va.toNat / size * size, size := size, pbase := pfn, x := e.getLsbD 60,
            w := e.getLsbD 59, mtype := (e.extractLsb' 5 2).toNat }

/-- A walk from the table of a level downward (R82 to R85); a table outside DRAM or the ranges is a protection fault
(log 12). -/
def walkFrom (s : State) (ctx : Nat) (va : Word) : Nat → Nat → WalkEnd
  | level, table =>
    if Config.dramSize < table + 4096 || !inPortRange s ctx table 4096 then .fault 0x11 false
    else
      let a := table + 8 * ((va.toNat / 2 ^ (12 + 9 * level)) % 512)
      let e := mword s.mem a
      if s.poison.contains (a / 8) then .fault 0x10 true
      else if !e.getLsbD 0 || e &&& pteReserved != 0#64 || e.getLsbD 6 then .fault 0x10 false
      else if e.getLsbD 1 then walkLeaf s ctx va level e
      else
        match level with
        | 0 => .fault 0x10 false
        | l + 1 =>
          if e.extractLsb' 61 3 != 0#3 then .fault 0x10 false
          else walkFrom s ctx va l ((e.extractLsb' 12 40).toNat * 4096)

/-- The walk of an address in a context (R82). -/
def walk (s : State) (ctx : Nat) (va : Word) : WalkEnd :=
  if va >>> 57 != 0#64 then .fault 0x10 false
  else walkFrom s ctx va 4 ((tgetD s.contexts ctx {}).root.toNat % 2 ^ 52 / 4096 * 4096)

/-- An access's use of a page: 0 read, 1 write, 2 fetch; whether the page allows it (R85). -/
def useAllowed (e : TlbEntry) (use : Nat) : Bool := use == 0 || (use == 1 && e.w) || (use == 2 && e.x)

/-- The entry covers an address of a context. -/
def covers (ctx : Nat) (va : Word) (e : TlbEntry) : Bool :=
  e.ctx == ctx && decide (e.vbase ≤ va.toNat) && decide (va.toNat < e.vbase + e.size)

/-- The entry of a core's or its cluster's TLB for an address (R85). -/
def tlbLookup (s : State) (core ctx : Nat) (va : Word) : Option TlbEntry :=
  match (coreAt s core).tlb.find? (covers ctx va) with
  | some e => some e
  | none => (tgetD s.tlb2 (clusterOf core) []).find? (covers ctx va)

/-- A TLB with an entry added; the oldest one leaves a full TLB (R85). -/
def tlbAdd (n : Nat) (e : TlbEntry) (l : List TlbEntry) : List TlbEntry := (e :: l.filter fun x => x != e).take n

/-- Install a page in the TLB of a cluster hub (R85). -/
def hubInstall (s : State) (g : Nat) (e : TlbEntry) : State :=
  { s with tlb2 := tset s.tlb2 g (tlbAdd Config.tlb2Size e (tgetD s.tlb2 g [])) }

/-- Install a page in both TLBs of a core (R85). -/
def tlbInstall (s : State) (core : Nat) (e : TlbEntry) : State :=
  hubInstall (modCore s core fun c => { c with tlb := tlbAdd Config.tlb1Size e c.tlb }) (clusterOf core) e

/-- Where an engine's translation stands (R85): at a core, at a cluster hub (a BTE), or at a block that has no TLB (the
distributor and the fabric ports, log 78). -/
inductive TlbPlace where
  | core (c : Nat)
  | hub (g : Nat)
  | bare
  deriving DecidableEq, Repr

/-- The entry that the TLBs of a place hold for an address. -/
def placeLookup (s : State) (p : TlbPlace) (ctx : Nat) (va : Word) : Option TlbEntry :=
  match p with
  | .core c => tlbLookup s c ctx va
  | .hub g => (tgetD s.tlb2 g []).find? (covers ctx va)
  | .bare => none

/-- Install a page in the TLBs of a place. -/
def placeInstall (s : State) (p : TlbPlace) (e : TlbEntry) : State :=
  match p with
  | .core c => tlbInstall s c e
  | .hub g => hubInstall s g e
  | .bare => s

/-- Physical address of an address in an entry's page. -/
def pageAddr (e : TlbEntry) (va : Word) : Nat := e.pbase + (va.toNat - e.vbase)

/-- The outcome of a translation at a core. -/
inductive Translated where
  | ok (pa mtype : Nat)
  | fault (code : Nat)
  | pending (s : State)
  deriving Repr

/-- Translate at a core (R85): a TLB hit is judged by its permissions; a walk that has ended in a fault reports it;
otherwise a walk is started and awaited. -/
def translate (s : State) (core ctx : Nat) (va : Word) (use : Nat) : Translated :=
  if va >>> 57 != 0#64 then .fault 0x10
  else
    match tlbLookup s core ctx va with
    | some e => if useAllowed e use then .ok (pageAddr e va) e.mtype else .fault 0x11
    | none =>
      let page := va.toNat / 4096
      match s.walkFaults.find? fun f => f.core == core && f.ctx == ctx && f.page == page && f.use == use with
      | some f => .fault f.code.toNat
      | none =>
        if s.walks.any fun w => w.2.core == core && w.2.ctx == ctx && w.2.va == page && w.2.use == use && !w.2.dead then
          .pending s
        else
          let (id, s) := freshId s
          .pending { s with walks := tset s.walks id { core := core, ctx := ctx, va := page, use := use } }

/-- Translate at once, as engines and the distributor do (R85): a TLB entry of the place, or a walk with no wait. -/
def translateNow (s : State) (p : TlbPlace) (ctx : Nat) (va : Word) (use : Nat) : Except Nat (Nat × Nat) :=
  match placeLookup s p ctx va with
  | some e => if useAllowed e use then .ok (pageAddr e va, e.mtype) else .error 0x11
  | none =>
    match walk s ctx va with
    | .fault c _ => .error c
    | .page e => if useAllowed e use then .ok (pageAddr e va, e.mtype) else .error 0x11

/-- What such a translation leaves: the page of a walk that succeeded, in the TLBs of the place (R85). -/
def notePage (s : State) (p : TlbPlace) (ctx : Nat) (va : Word) (use : Nat) : State :=
  match placeLookup s p ctx va, walk s ctx va with
  | none, .page e => if useAllowed e use then placeInstall s p e else s
  | _, _ => s

/-- The pages of pieces of virtual memory noted. -/
def notePages (s : State) (p : TlbPlace) (ctx use : Nat) (l : List (Nat × Nat)) : State :=
  (l.flatMap fun x => cutAt 4096 x.1 x.2).foldl (fun s x => notePage s p ctx (BitVec.ofNat 64 x.1) use) s

/-- An invalidation of a context covers an entry (R87). -/
def invCovers (n page : Nat) (all : Bool) (e : TlbEntry) : Bool :=
  e.ctx == n && (all || (decide (e.vbase ≤ page * 4096) && decide (page * 4096 < e.vbase + e.size)))

/-- A page that a walk found is covered by an invalidation that awaits the walk, so that it is discarded (R87). -/
def discarded (s : State) (id : Nat) (e : TlbEntry) : Bool :=
  s.contexts.any fun c => c.2.running.any fun r => r.walks.contains id && invCovers c.1 r.page r.all e

/-- A walk ends: no invalidation awaits it any more (R87). -/
def endWalk (s : State) (id : Nat) : State :=
  { s with
    walks := terase s.walks id
    contexts := s.contexts.map fun c => (c.1, { c.2 with running := c.2.running.map fun r =>
      { r with walks := sdel1 r.walks id } }) }

/-- TRANSLATION_WALK_DONE (R85): the page is installed in both TLBs, or the fault is kept for its asker; a walk whose
result is to be discarded leaves nothing (R87). -/
def execTranslationWalkDone (id : Nat) (s : State) : Host.Outcome State Fault Refusal :=
  event_ s (
    match tget s.walks id with
    | none => none
    | some w =>
      let seen := walk s w.ctx (BitVec.ofNat 64 (w.va * 4096))
      let gone := match seen with
        | .page e => discarded s id e
        | .fault _ _ => false
      let s := endWalk s id
      if w.dead || gone then some s
      else
        match seen with
        | .page e =>
          if useAllowed e w.use then some (tlbInstall s w.core e)
          else some { s with walkFaults :=
            s.walkFaults ++ [{ core := w.core, ctx := w.ctx, page := w.va, use := w.use, code := 0x11#8 }] }
        | .fault c poison =>
          let s := if poison then tellMgmt s 8 [w.ctx, w.va] else s
          some { s with walkFaults := s.walkFaults ++
            [{ core := w.core, ctx := w.ctx, page := w.va, use := w.use, code := BitVec.ofNat 8 c }] })

/-! ### Memory behind the caches -/

/-- The granules that n bytes at an address touch. -/
def granulesOf (a n : Nat) : List Nat := (List.range ((a + n - 1) / 8 + 1 - a / 8)).map (a / 8 + ·)

/-- The poisoned granules after a write of n bytes (R406, R407): a poisoned write poisons every granule it writes; a
granule fully overwritten by an aligned store of 8 bytes or more is poisoned no longer. -/
def poisonWrite (p : List Nat) (a n : Nat) (bad : Bool) : List Nat :=
  if n = 0 then p
  else (granulesOf a n).foldl (fun p k =>
    if bad then sadd1 p k
    else if 8 ≤ n && decide (a ≤ 8 * k) && decide (8 * k + 8 ≤ a + n) then sdel1 p k else p) p

/-- Each of n bytes of a memory with whether its granule is poisoned. -/
def bytesWith (m : Memory) (p : List Nat) (a n : Nat) : List (Byte × Bool) :=
  (List.range n).map fun k => (mget m (a + k), p.contains ((a + k) / 8))

/-- The notes after a store of n bytes: while an engine is at work, one for each 16-byte piece, with the bytes before and
after it (R127, R128). -/
def noteStore (s : State) (share : Option Nat) (a n : Nat) (old new : Nat → Nat → List (Byte × Bool)) : List StoreNote :=
  if s.copies.isEmpty && s.posts.isEmpty then []
  else s.notes ++ (cutAt 16 a n).map fun x => { share := share, addr := x.1, old := old x.1 x.2, new := new x.1 x.2 }

/-- Write bytes to DRAM or a vault, at its home slice or controller. -/
def memPut (s : State) (a : Nat) (b : List Byte) (bad : Bool) : State :=
  let m := mwrite s.mem a b
  let p := poisonWrite s.poison a b.length bad
  { s with mem := m, poison := p, notes := noteStore s none a b.length (bytesWith s.mem s.poison) (bytesWith m p) }

/-- Write bytes to a team's share. -/
def sharePut (s : State) (t a : Nat) (b : List Byte) (bad : Bool) : State :=
  let x := tgetD s.teams t {}
  let m := mwrite x.share a b
  let p := poisonWrite x.sharePoison a b.length bad
  { s with
    teams := tmod s.teams t fun x => { x with share := m, sharePoison := p }
    notes := noteStore s (some t) a b.length (bytesWith x.share x.sharePoison) (bytesWith m p) }

/-- Byte x of a memory once a note's bytes are laid over it. -/
def layNote (share : Option Nat) (a : Nat) (n : StoreNote) (l : List (Byte × Bool)) (v : List (Byte × Bool)) :
    List (Byte × Bool) :=
  if n.share = share then
    (List.range l.length).map fun k =>
      if n.addr ≤ a + k && a + k < n.addr + v.length then v.getD (a + k - n.addr) (0#8, false)
      else l.getD k (0#8, false)
  else l

/-- What an engine reads at an address (R127, R128): every byte as it is, less the stores noted from `since` on that the
engine does not see. -/
def engineBytes (s : State) (share : Option Nat) (since : Nat) (unseen : Nat → Bool) (a n : Nat) : List (Byte × Bool) :=
  let now := match share with
    | none => bytesWith s.mem s.poison a n
    | some t => bytesWith (tgetD s.teams t {}).share (tgetD s.teams t {}).sharePoison a n
  let l := (List.range s.notes.length).drop since
  let first := l.reverse.foldl (fun b k => let x := s.notes.getD k {}
                                          layNote share a x b x.old) now
  l.foldl (fun b k => let x := s.notes.getD k {}
                      if unseen k then b else layNote share a x b x.new) first

/-! ### The L1 -/

/-- Byte k of a line. -/
def lineByte (l : Line) (k : Nat) : Byte := l.data.extractLsb' (8 * k) 8

/-- A line with a byte put in, valid, and dirty or not. -/
def lineSet (l : Line) (k : Nat) (b : Byte) (dirty : Bool) : Line :=
  { l with
    data := (l.data &&& ~~~(0xFF#1024 <<< (8 * k))) ||| (b.setWidth 1024 <<< (8 * k))
    valid := withBit l.valid k true
    dirty := if dirty then withBit l.dirty k true else l.dirty }

/-- The bytes of a line that memory does not have yet: narrow-dirty ones, and those whose write-back is on its way. -/
def Line.kept (l : Line) : BitVec 128 := l.dirty ||| l.leaving

/-- A line without its clean bytes; none when nothing is left. -/
def dropClean (l : Line) : Option Line := if l.kept = 0#128 then none else some { l with valid := l.kept }

/-- A core's lines changed. -/
def modLines (s : State) (c : Nat) (f : Tab Line → Tab Line) : State := modCore s c fun x => { x with lines := f x.lines }

/-- Drop the clean bytes of the lines that satisfy a test (R79). -/
def dropCleanIf (s : State) (c : Nat) (p : Nat → Bool) : State :=
  modLines s c fun t => t.filterMap fun l => if p l.1 then (dropClean l.2).map fun x => (l.1, x) else some l

/-- The lines that n bytes at an address touch. -/
def linesOf (a n : Nat) : List Nat := (List.range ((a + n - 1) / 128 + 1 - a / 128)).map (a / 128 + ·)

/-- The sectors that n bytes at an address touch. -/
def sectorsOf (a n : Nat) : List Nat := (List.range ((a + n - 1) / 32 + 1 - a / 32)).map (a / 32 + ·)

/-- A core's L1 holds every one of n bytes. -/
def l1Holds (s : State) (c a n : Nat) : Bool :=
  (List.range n).all fun k => (tget (coreAt s c).lines ((a + k) / 128)).any fun l => l.valid.getLsbD ((a + k) % 128)

/-- What a core sees of n bytes of one access through its L1, each with its poison. A byte that memory does not have yet is
the L1's; the others are the L1's where it holds all n, else memory's, so that an aligned store is seen whole (R109). -/
def l1View (s : State) (c a n : Nat) : List (Byte × Bool) :=
  let t := (coreAt s c).lines
  let all := l1Holds s c a n
  (List.range n).map fun k =>
    let x := a + k
    match tget t (x / 128) with
    | some l =>
      if all || l.kept.getLsbD (x % 128) then (lineByte l (x % 128), l.poison.getLsbD (x % 128 / 8))
      else (mget s.mem x, s.poison.contains (x / 8))
    | none => (mget s.mem x, s.poison.contains (x / 8))

/-- The lines of a core that may be dropped to make room: those that hold clean bytes only. -/
def cleanLines (s : State) (c : Nat) : List Nat :=
  ((coreAt s c).lines.filter fun l => l.2.kept == 0#128).map (·.1)

/-- A core's L1 can take a line (R2): it holds it, or has a place, or a clean line to drop. -/
def l1Room (s : State) (c line : Nat) : Bool :=
  (tget (coreAt s c).lines line).isSome || decide ((coreAt s c).lines.length < Config.l1Lines) ||
    !(cleanLines s c).isEmpty

/-- Make a place for a line in a full L1: a clean line, freely chosen, is dropped (R2). -/
def l1Place (s : State) (c line : Nat) : State :=
  if (tget (coreAt s c).lines line).isSome || (coreAt s c).lines.length < Config.l1Lines then s
  else
    let (k, s) := pickFree (cleanLines s c) s
    modLines s c fun t => t.filter fun l => l.1 != k || l.2.kept != 0#128

/-- A line with its bytes of a sector as memory has them, but for those that memory does not have yet (R78). -/
def fillSector (s : State) (sec : Nat) (l : Line) : Line :=
  (List.range 32).foldl (fun (l : Line) k =>
    let x := 32 * sec + k
    if l.kept.getLsbD (x % 128) then l
    else
      let l := lineSet l (x % 128) (mget s.mem x) false
      if s.poison.contains (x / 8) then { l with poison := withBit l.poison (x % 128 / 8) true } else l) l

/-- Bring the sectors of n bytes into a core's L1, clean, where it does not hold them all and has room (R2, R78). -/
def l1Fill (s : State) (c a n : Nat) : State :=
  if l1Holds s c a n then s
  else
    (sectorsOf a n).foldl (fun s sec =>
      let line := sec / 4
      if l1Room s c line then
        let s := l1Place s c line
        modLines s c fun t => tset t line (fillSector s sec (tgetD t line {}))
      else s) s

/-- Poison of a line after a write of n bytes at an offset; a small write keeps the poison that memory holds. -/
def linePoison (s : State) (l : Line) (a n : Nat) (bad : Bool) : Line :=
  (granulesOf a n).foldl (fun (l : Line) k =>
    let j := k % 16
    if bad then { l with poison := withBit l.poison j true }
    else if 8 ≤ n then { l with poison := withBit l.poison j false }
    else if s.poison.contains k then { l with poison := withBit l.poison j true } else l) l

/-- Update the bytes that a core's L1 holds, which stay as clean as they were (R78). -/
def l1Patch (s : State) (c a : Nat) (b : List Byte) (bad : Bool) : State :=
  (linesOf a b.length).foldl (fun s line =>
    match tget (coreAt s c).lines line with
    | none => s
    | some l =>
      let l' := (List.range b.length).foldl (fun (l : Line) k =>
        let x := a + k
        if x / 128 = line && l.valid.getLsbD (x % 128) then lineSet l (x % 128) (b.getD k 0#8) false else l) l
      modLines s c fun t => tset t line (linePoison s l' a b.length bad)) s

/-- A narrow store into a core's L1 (R78): its sector becomes narrow-dirty and the latest of the write-back order; a
line that becomes narrow-dirty sends an owner notice (R80). Accesses of 16 bytes or fewer lie in one sector. -/
def l1Store (s : State) (c a : Nat) (b : List Byte) (bad : Bool) (owner : Owner) : State :=
  let line := a / 128
  let sec := a / 32
  let s := l1Place s c line
  let l := tgetD (coreAt s c).lines line {}
  let fresh := l.dirty == 0#128
  let l' := (List.range b.length).foldl (fun (l : Line) k => lineSet l ((a + k) % 128) (b.getD k 0#8) true) l
  let l' := linePoison s l' a b.length bad
  let old := (coreAt s c).dirty.find? fun d => d.sector == sec
  let (id, s) := match old with
    | some d => (d.id, s)
    | none => freshId s
  let os := (old.map (·.owners)).getD []
  let d : Dirty := { id := id, sector := sec, owners := if os.contains owner then os else os ++ [owner],
                     asked := (old.map (·.asked)).getD false, stores := (old.map (·.stores)).getD [] ++ [(a, b)] }
  let s := modCore s c fun x =>
    { x with lines := tset x.lines line l', dirty := (x.dirty.filter fun y => y.sector != sec) ++ [d] }
  if fresh then
    let (nid, s) := freshId s
    newTrain { s with notices := tset s.notices nid { core := c, line := line, away := true } } c .notice nid false
  else s

/-! ### Write-backs -/

/-- Send the oldest dirty sector of a core when one is asked for and none is on its way (R118); its bytes stay in the L1
until the slice has performed them. -/
def pump (s : State) (c : Nat) : State :=
  let x := coreAt s c
  match x.sending, x.dirty with
  | none, d :: rest =>
    if x.dirty.any (·.asked) then
      let l := tgetD x.lines (d.sector / 4) {}
      let o := d.sector % 4 * 32
      let (order, s) := freshId s
      let w : WriteBack :=
        { core := c, sector := d.sector, owners := d.owners, order := order, data := l.data.extractLsb' (8 * o) 256,
          mask := l.dirty.extractLsb' o 32, poison := l.poison.extractLsb' (d.sector % 4 * 4) 4,
          stores := d.stores, away := true }
      let l' : Line := { l with dirty := l.dirty &&& ~~~(0xFFFFFFFF#128 <<< o)
                                leaving := l.leaving ||| (l.dirty &&& (0xFFFFFFFF#128 <<< o)) }
      let s := modCore s c fun y =>
        { y with lines := tset y.lines (d.sector / 4) l', dirty := rest, sending := some d.id }
      newTrain { s with writeBacks := tset s.writeBacks d.id w } c .writeBack d.id false
    else s
  | _, _ => s

/-- Ask a core to write back the dirty sectors that satisfy a test, and older ones with them (R118). -/
def askWriteBack (s : State) (c : Nat) (p : Nat → Bool) : State :=
  pump (modCore s c fun x => { x with dirty := x.dirty.map fun d => if p d.sector then { d with asked := true } else d }) c

/-- The dirty sectors of a core that satisfy a test, and those on their way. -/
def pendingWb (s : State) (c : Nat) (p : Nat → Bool) : List Nat :=
  ((coreAt s c).dirty.filter fun d => p d.sector).map (·.id) ++
  (s.writeBacks.filter fun w => w.2.core == c && p w.2.sector).map (·.1)

/-- The notes of a write-back: of the stores whose bytes it brings, or of the sector where they are not known (R128). -/
def noteWriteBack (s : State) (w : WriteBack) (m : Memory) (p : List Nat) : List StoreNote :=
  let a := w.sector * 32
  if s.copies.isEmpty && s.posts.isEmpty then []
  else if w.stores.isEmpty then
    s.notes ++ (cutAt 16 a 32).map fun x =>
      { addr := x.1, old := bytesWith s.mem s.poison x.1 x.2, new := bytesWith m p x.1 x.2 }
  else
    s.notes ++ (w.stores.foldl (fun (acc : List StoreNote × Memory) x =>
      let next := mwrite acc.2 x.1 x.2
      (acc.1 ++ [{ addr := x.1, old := bytesWith acc.2 s.poison x.1 x.2.length,
                   new := bytesWith next p x.1 x.2.length }], next)) ([], s.mem)).1

/-- Perform a write-back at its slice: the dirty bytes and the poison of their granules (R80, R406). -/
def performWriteBack (s : State) (w : WriteBack) : State :=
  let a := w.sector * 32
  let m := (List.range 32).foldl (fun m k =>
    if w.mask.getLsbD k then mset m (a + k) (w.data.extractLsb' (8 * k) 8) else m) s.mem
  let p := (List.range 4).foldl (fun p j =>
    let part := w.mask.extractLsb' (8 * j) 8
    if part = 0#8 then p
    else if w.poison.getLsbD j then sadd1 p (a / 8 + j)
    else if part = 0xFF#8 then sdel1 p (a / 8 + j) else p) s.poison
  { s with mem := m, poison := p, notes := noteWriteBack s w m p }

/-- A write-back has been performed: its bytes in the core's L1 are clean. -/
def leftL1 (s : State) (w : WriteBack) : State :=
  let o := w.sector % 4 * 32
  modLines s w.core fun t => tmod t (w.sector / 4) fun l => { l with leaving := l.leaving &&& ~~~(0xFFFFFFFF#128 <<< o) }

/-! ### Instruction caches -/

/-- A cache of words with one more; a full one loses a word, freely chosen (R2). -/
def putWord (n : Nat) (t : Tab Word) (k : Nat) (w : Word) (s : State) : Tab Word × State :=
  if (tget t k).isSome || t.length < n then (tset t k w, s)
  else
    let (j, s) := pickFree (t.map (·.1)) s
    (tset (terase t j) k w, s)

/-- Keep a word in a core's instruction cache and in its cluster's. -/
def keepWord (s : State) (c k : Nat) (w : Word) : State :=
  let (t, s) := putWord Config.icacheWords (coreAt s c).icache k w s
  let s := modCore s c fun x => { x with icache := t }
  let (t, s) := putWord Config.cicacheWords (tgetD s.cicache (clusterOf c) []) k w s
  { s with cicache := tset s.cicache (clusterOf c) t }

/-- A word as the instruction caches give it to a core: a cached word that memory no longer holds may or may not be
fetched again (R133). -/
def cachedWord (s : State) (c k : Nat) (now : Word) : Word × State :=
  let cached := match tget (coreAt s c).icache k with
    | some w => some w
    | none => tget (tgetD s.cicache (clusterOf c) []) k
  match cached with
  | none => (now, keepWord s c k now)
  | some w =>
    if w = now then (w, keepWord s c k w)
    else
      let (b, s) := takeBit s
      let w := if b then now else w
      (w, keepWord s c k w)

/-- The instruction word at a physical address, as a core fetches it (R133): a word that it has fetched and buffered, or
the caches'. -/
def fetchAt (s : State) (c pa : Nat) : Word × State :=
  let k := pa / 8
  let now := mword s.mem pa
  let take (s : State) : Word × State :=
    let (w, s) := cachedWord s c k now
    (w, modCore s c fun x => { x with fetched := tset x.fetched k w })
  match tget (coreAt s c).fetched k with
  | none => take s
  | some w =>
    if w = now then take s
    else
      let (b, s) := takeBit s
      if b then take s else (w, s)

end Sys2Proof.Machine
end

