-- ==== Sys2Proof/Machine/Record.lean ====
section
/-!
DEFINITION. Context records: the demand of a launch record, the sections of a context record and of its checkpoint area,
what a save writes into them and what a restore reads back, and the spill of divergence stacks (R22, R47, R60, R66, R71,
R73, R263, R362, R413). The manual places each section, and the scalar registers, vector rows, share and matrix values within
theirs; the bytes whose place it leaves open are free values (log 50).
-/

namespace Sys2Proof.Machine

/-! ### What a launch record asks for -/

/-- The initial width w₀ (R47). -/
def rWidth (r : BitVec 1024) : Nat := 4 * 2 ^ recField r 176 3
/-- LANES. -/
def rLanes (r : BitVec 1024) : Nat := recField r 160 15
/-- TEAMS. -/
def rTeams (r : BitVec 1024) : Nat := recField r 128 32
/-- SCRG. -/
def rScrg (r : BitVec 1024) : Nat := recField r 208 8
/-- POOLN. -/
def rPooln (r : BitVec 1024) : Nat := recField r 320 16
/-- PRIO. -/
def rPrio (r : BitVec 1024) : Nat := recField r 180 2
/-- RED. -/
def rRed (r : BitVec 1024) : Bool := r.getLsbD 185
/-- GANG. -/
def rGang (r : BitVec 1024) : Bool := r.getLsbD 184
/-- u = max(w₀, 16) (R60). -/
def rUnit (r : BitVec 1024) : Nat := max (rWidth r) 16
/-- The blocks of R16. -/
def rUnits (r : BitVec 1024) : Nat := (rLanes r + rUnit r - 1) / rUnit r
/-- Group slots of a block (R60, R352). -/
def rUnitSlots (r : BitVec 1024) : Nat := rUnit r / min (rWidth r) 16
/-- Vector registers declared. -/
def rV (r : BitVec 1024) : Nat := 8 * (recField r 192 5 + 1)
/-- Rows of a block (R60). -/
def rUnitRows (r : BitVec 1024) : Nat := rV r * (rUnit r / 16)
/-- Copies of a team: two of a redundant one (R62). -/
def rCopies (r : BitVec 1024) : Nat := if rRed r then 2 else 1

/-- A size rounded up to 4 KiB. -/
def up4k (n : Nat) : Nat := (n + 4095) / 4096 * 4096

/-! ### The sections of a context record -/

/-- Group slots of a team, G (R60). -/
def rSlots (r : BitVec 1024) : Nat := rUnits r * rUnitSlots r
/-- Rows of a team, N (R60). -/
def rRows (r : BitVec 1024) : Nat := rUnits r * rUnitRows r
/-- Where the vector rows stand in a record (R66). -/
def rowsAt (r : BitVec 1024) : Nat := 4096 + up4k (18432 * rSlots r)
/-- Where the share image stands in a record (R66). -/
def shareAt (r : BitVec 1024) : Nat := rowsAt r + up4k (64 * rRows r)
/-- Where the landed coaches stand in a record (R66). -/
def coachesAt (r : BitVec 1024) : Nat := shareAt r + up4k (2048 * rScrg r)
/-- Where the matrix state stands in a record (R66). -/
def matrixAt (r : BitVec 1024) : Nat := coachesAt r + up4k (1152 * recField r 216 13)
/-- Bytes of the matrix state (R66). -/
def matrixSize (r : BitVec 1024) : Nat := if r.getLsbD 187 then 540672 else 0
/-- Where the checkpoint area stands in a record (R66). -/
def checkAt (r : BitVec 1024) : Nat := matrixAt r + matrixSize r
/-- Bytes of a snapshot (R413). -/
def snapshotSize (r : BitVec 1024) : Nat :=
  4096 + 18432 * rSlots r + 64 * rRows r + 2048 * rScrg r + matrixSize r

/-- The size S of a context record (R66, R413). -/
def recordSize (r : BitVec 1024) : Nat :=
  checkAt r + (if r.getLsbD 186 then up4k (snapshotSize r) + 524288 + 8192 else 0)

/-- Every 4 KiB page of n bytes may be written. -/
def pagesWritable (s : State) (ctx va n : Nat) : Bool :=
  (List.range (n / 4096)).all fun k =>
    match translateNow s .bare ctx (BitVec.ofNat 64 (va + 4096 * k)) 1 with
    | .ok _ => true
    | .error _ => false

/-- The launch record of a team's launch. -/
def teamRecord (s : State) (t : Nat) : BitVec 1024 := (tgetD s.launches (tgetD s.teams t {}).launch {}).record

/-- The virtual address of a team's context record (R66). -/
def recordVa (s : State) (t : Nat) : Nat :=
  recField (teamRecord s t) 256 57 + (tgetD s.teams t {}).record * recordSize (teamRecord s t)

/-- The translation context of a team's launch. -/
def teamCtx (s : State) (t : Nat) : Nat := (tgetD s.launches (tgetD s.teams t {}).launch {}).queue

/-- Every page of a team's record may be written: software must make it so, and the device writes no record of which a page
may not (R66, log 50). -/
def recordOk (s : State) (t : Nat) : Bool := pagesWritable s (teamCtx s t) (recordVa s t) (recordSize (teamRecord s t))

/-- Write bytes into a team's record from an offset on, page by page. -/
def recordPut (s : State) (t off : Nat) (b : List Byte) : State :=
  let va := recordVa s t + off
  (cutAt 4096 va b.length).foldl (fun s x =>
    match translateNow s .bare (teamCtx s t) (BitVec.ofNat 64 x.1) 1 with
    | .ok p => memPut s p.1 ((b.drop (x.1 - va)).take x.2) false
    | .error _ => s) s

/-- Read n bytes of a team's record from an offset on, with their poison. -/
def recordGet (s : State) (t off n : Nat) : List (Byte × Bool) :=
  (cutAt 4096 (recordVa s t + off) n).flatMap fun x =>
    match translateNow s .bare (teamCtx s t) (BitVec.ofNat 64 x.1) 0 with
    | .ok p => bytesWith s.mem s.poison p.1 x.2
    | .error _ => List.replicate x.2 (0#8, false)

/-- Bytes of free content, and the state that has drawn them. -/
def freeBytes (s : State) (n : Nat) : List Byte × State :=
  ((List.range n).map (Config.freeByte s.freeNo), { s with freeNo := s.freeNo + 1 })

/-- Write n bytes of free content into a team's record. -/
def recordFree (s : State) (t off n : Nat) : State :=
  let (b, s) := freeBytes s n
  recordPut s t off b

/-! ### Group areas and vector rows -/

/-- The slots of a group: its own and those it holds. -/
def slotItems (g : Group) : List Nat := g.slot :: g.held

/-- Groups in team group order. -/
def inTeamOrder (gs : List Group) : List Group :=
  gs.mergeSort fun a b => decide (a.laneNo.headD 0 ≤ b.laneNo.headD 0)

/-- The groups of a team, in team group order. -/
def teamGroups (s : State) (t : Nat) : List Group :=
  inTeamOrder ((s.groups.filter fun g => g.2.owner == .team t).map (·.2))

/-- The number of a group's area in its team's record: its slot's place among the team's slots, in team group order
(R66, log 50). -/
def areaNo (s : State) (t : Nat) (g : Group) : Nat :=
  ((teamGroups s t).takeWhile fun x => groupKey x != groupKey g).foldl (fun n x => n + (slotItems x).length) 0

/-- Where a group's area stands in its team's record. -/
def areaAt (s : State) (t : Nat) (g : Group) : Nat := 4096 + 18432 * areaNo s t g

/-- The lanes of a group that lie in one block of rows: from column `col` of its rows on, the group's lanes from `lo` on. -/
structure RowSeg where
  block : Nat := 0
  col : Nat := 0
  group : Nat := 0
  lo : Nat := 0
  n : Nat := 0
  deriving DecidableEq, Repr, Inhabited

/-- The next segment of a block of rows, after those before it. -/
def addSeg (gk w len : Nat) (acc : List RowSeg) (x : Nat × Nat) : List RowSeg :=
  let col := (acc.filter fun y => y.block == x.1).foldl (fun n y => n + y.n) 0
  acc ++ [{ block := x.1, col := col, group := gk, lo := x.2 * (w / len), n := w / len }]

/-- The segments of a team's rows, in group order (R66). -/
def rowSegs (gs : List Group) : List RowSeg :=
  gs.foldl (fun acc g => g.rowBlocks.zipIdx.foldl (addSeg (groupKey g) g.width g.rowBlocks.length) acc) []

/-- The place of a lane of a register in the vector-row section: register r of the b-th block of rows is its row r. -/
def laneOffset (v : Nat) (blocks : List Nat) (y : RowSeg) (r i : Nat) : Nat :=
  64 * (v * blocks.idxOf y.block + r) + 4 * (y.col + i)

/-- The blocks of rows of a team, in group order. -/
def teamBlocks (gs : List Group) : List Nat := (gs.flatMap (·.rowBlocks)).eraseDups

/-- The vector-row section (R66): lanes that no group has hold free content. -/
def rowBytes (v : Nat) (gs : List Group) (free : Nat → Byte) : List Byte :=
  let segs := rowSegs gs
  (teamBlocks gs).zipIdx.flatMap fun b => (List.range v).flatMap fun r => (List.range 16).flatMap fun c =>
    match segs.find? fun y => y.block == b.1 && decide (y.col ≤ c) && decide (c < y.col + y.n) with
    | some y =>
      match gs.find? fun g => groupKey g == y.group with
      | some g => leBytes (getV g r (y.lo + (c - y.col))).toNat 4
      | none => (List.range 4).map fun k => free (64 * (v * b.2 + r) + 4 * c + k)
    | none => (List.range 4).map fun k => free (64 * (v * b.2 + r) + 4 * c + k)

/-- The scalar registers of a group area (R66). -/
def scalarBytes (g : Group) : List Byte := (List.range 128).flatMap fun r => wordBytes8 (tgetD g.sregs r 0#64)

/-- Write a group's area: its scalar registers, and free content for its slot state, stack and handler (R66, R362). -/
def putArea (t : Nat) (s : State) (g : Group) : State :=
  let a := areaAt s t g
  recordFree (recordPut (recordFree s t a 256) t (a + 256) (scalarBytes g)) t (a + 1280) 17152

/-- What a save writes (R66, R71): header, group areas, vector rows, share image and landed coaches; the matrix state is
written by its own operation. -/
def saveRecord (s : State) (t : Nat) : State :=
  if !recordOk s t then s
  else
    let r := teamRecord s t
    let gs := teamGroups s t
    let s := gs.foldl (putArea t) (recordFree s t 0 4096)
    let rows := rowBytes (rV r) gs (Config.freeByte s.freeNo)
    let s := recordPut { s with freeNo := s.freeNo + 1 } t (rowsAt r) rows
    let s := recordPut s t (shareAt r) (mread (tgetD s.teams t {}).share 0 (2048 * rScrg r))
    recordFree s t (coachesAt r) (1152 * recField r 216 13)

/-- The scalar registers of a group as its area holds them: a poisoned granule poisons its register (R73, R405). -/
def loadArea (s : State) (t : Nat) (g : Group) : Group :=
  let a := areaAt s t g + 256
  (List.range 128).foldl (fun g r =>
    let l := recordGet s t (a + 8 * r) 8
    let g := { g with sregs := tset g.sregs r (BitVec.ofNat 64 (leNat (l.map (·.1)))) }
    if l.any (·.2) then { g with spoison := sadd1 g.spoison r } else g) g

/-- The vector registers of a group as the row section holds them (R73, R405). -/
def loadRows (s : State) (t : Nat) (gs : List Group) (g : Group) : Group :=
  let r := teamRecord s t
  let mine := (rowSegs gs).filter fun y => y.group == groupKey g
  mine.foldl (fun g y => (List.range (rV r)).foldl (fun g k => (List.range y.n).foldl (fun g i =>
    let l := recordGet s t (rowsAt r + laneOffset (rV r) (teamBlocks gs) y k i) 4
    let g := { g with vregs := tset g.vregs (laneKey k (y.lo + i)) (BitVec.ofNat 32 (leNat (l.map (·.1)))) }
    if l.any (·.2) then poisonV g k (y.lo + i) else g) g) g) g

/-- What a restore reads back (R73): every group's registers, and the share. -/
def loadRecord (s : State) (t : Nat) : State :=
  if !recordOk s t then s
  else
    let r := teamRecord s t
    let gs := teamGroups s t
    let share := recordGet s t (shareAt r) (2048 * rScrg r)
    let bad := (List.range (256 * rScrg r)).filter fun k => (share.getD (8 * k) (0#8, false)).2
    { s with
      groups := s.groups.map fun g =>
        if g.2.owner == .team t then (g.1, loadRows s t gs (loadArea s t g.2)) else g
      teams := tmod s.teams t fun x => { x with
        share := mwrite x.share 0 (share.map (·.1)), sharePoison := bad.foldl sadd1 x.sharePoison } }

/-! ### The checkpoint area -/

/-- A team's snapshot is written to its checkpoint area, after the stores it held and its redundancy state (R413): the
manual gives the sizes, and no place within them. -/
def saveSnapshot (s : State) (t : Nat) : State :=
  if !recordOk s t then s
  else
    let r := teamRecord s t
    recordFree s t (checkAt r) (up4k (snapshotSize r) + 524288 + 8192)

/-- A team's snapshot meets an uncorrectable error when it is read (R413). -/
def snapshotLost (s : State) (t : Nat) : Bool :=
  recordOk s t && (recordGet s t (checkAt (teamRecord s t)) (snapshotSize (teamRecord s t))).any (·.2)

/-! ### Spilled stacks -/

/-- Entries of a group's stack that n pushes spill (R22): eight at a time, so that no more than 32 are resident. -/
def spillsOf (g : Group) (n : Nat) : Nat := (g.stack.length + n - g.spilled - 32 + 7) / 8 * 8

/-- Spill the oldest resident entries of the issuing group for n pushes (R22): each takes 32 bytes of its group's context
area, of a layout that the manual does not give (log 37). A spawned group has no record (R66). -/
def spill (n : Nat) (s : State) : State :=
  let g := curGroup s
  let k := spillsOf g n
  if k = 0 then s
  else
    let s := setGroup s { g with spilled := g.spilled + k }
    match g.owner with
    | .team t => if recordOk s t then recordFree s t (areaAt s t g + 1280 + 32 * g.spilled) (32 * k) else s
    | .spawned _ => s

end Sys2Proof.Machine
end

