-- ==== Sys2Proof/Machine/Points.lean ====
section
/-!
DEFINITION. Rendezvous points: which point a number means, how an arrival changes it, and how a flip lets the strands that
wait on it go on (R33 to R37, R351).
-/

namespace Sys2Proof.Machine

/-- The team of an owner spans more than one core. -/
def spanning (s : State) (o : Owner) : Bool :=
  match o with
  | .team t => decide (1 < (tgetD s.teams t {}).cores.length)
  | .spawned _ => false

/-- The launch is a gang grid (R47). -/
def gangOf (s : State) (g : Group) : Bool := (launchOf s g).record.getLsbD 184

/-- The point that a number means to a group's team: its own, or the grid's (R33); true for device scope. Where another
team of a gang grid has set the number at device scope, the team's own point wins, and a team BINIT over the grid's
point is a second one (log 74). -/
def pointOf (s : State) (g : Group) (b : Nat) : Option (Bool × Point) :=
  let p := tgetD (teamOf s g).points b {}
  let d := tgetD (launchOf s g).points b {}
  if p.init then some (false, p) else if d.init then some (true, d) else none

/-- Replace a point of a team or of its grid. -/
def putPoint (s : State) (g : Group) (b : Nat) (device : Bool) (p : Point) : State :=
  if device then { s with launches := tmod s.launches (launchKey s g) fun l => { l with points := tset l.points b p } }
  else modTeam s g fun t => { t with points := tset t.points b p }

/-- A point after an arrival of n lanes, none when it would take the count past the expected count (R34, R36). -/
def arrivePoint (p : Point) (n : Nat) : Option Point :=
  if p.expected < p.arrived + n then none
  else if p.arrived + n = p.expected then some { p with arrived := 0, phase := !p.phase }
  else some { p with arrived := p.arrived + n }

/-- An arrival of the strand at point b is not yet counted. -/
def arrivalPending (e : Entry) (b : Nat) : Bool := e.phases.any fun x => 24 ≤ x.1 && x.1 % 24 == b

/-- The record of a device-scope arrival, an external action (R416, R419). -/
def foldArrival (s : State) (b : Nat) (op : Byte) : State :=
  match pointOf s (curGroup s) b with
  | some (true, _) => foldRecord s [op]
  | _ => s

/-- The end of the issuing strand's wait on a point: an acquire at the point's scope (R35), and the next instruction. -/
def passPoint (s : State) (b : Nat) (device : Bool) : State :=
  let g := curGroup s
  let sync := (curStrand s).stage == 1
  let s := advance (if device || spanning s g.owner then dropCleanIf s g.core fun _ => true else s)
  if sync then foldArrival s b 0xD6#8 else s

/-- A strand that waits on a point whose phase has flipped: its instruction is complete, so that it may issue again from
the next cycle (R351); where its group is in handler mode or its team saved, the wait ends when it may go on. -/
def releaseStrand (b : Nat) (device : Bool) (s : State) (x : Nat × Nat) : State :=
  match tget s.groups x.1 with
  | none => s
  | some g =>
    let e := (findEntry g.stack x.2).getD {}
    if hmode g || (teamOf s g).phase == .saving || (teamOf s g).phase == .saved then
      { s with groups := tset s.groups x.1 { g with stack := putEntry g.stack { e with released := true } } }
    else
      let s := recordFor (asStrand s x.1 x.2 fun s => passPoint s b device) g e 0 []
      doneElsewhere g x.1 e s

/-- The strands that wait on a point in another phase than its present one, in the order of groups and stacks. -/
def pointWaiters (s : State) (g : Group) (b : Nat) (device ph : Bool) : List (Nat × Nat) :=
  s.groups.flatMap fun x =>
    let mine := if device then launchKey s x.2 == launchKey s g else x.2.owner == g.owner
    if mine && (pointOf s x.2 b).any (fun p => p.1 == device) then
      (x.2.stack.filter fun e => e.waitsOn == some b && !e.released && !arrivalPending e b &&
        (tget e.phases b).any fun q => q != ph).map fun e => (x.1, e.id)
    else []

/-- Replace a point; where its phase has flipped, the strands that wait on it go on (R34, R351). -/
def turnPoint (s : State) (g : Group) (b : Nat) (device : Bool) (old new : Point) : State :=
  let s := putPoint s g b device new
  if new.phase == old.phase then s
  else (pointWaiters s g b device new.phase).foldl (releaseStrand b device) s

end Sys2Proof.Machine
end

