-- ==== Sys2Proof/Machine/Control.lean ====
section
/-!
DEFINITION. Branches, jumps, calls, returns, loops, exit, width changes and PBLK (R191 to R206).
-/

namespace Sys2Proof.Machine

/-- PC + 8 × sext(offset) (R191). -/
def target {n : Nat} (pc : Word) (off : BitVec n) : Word := pc + (off.signExtend 64 <<< 3)

/-- The return stack after a call (R195); the newest entry stands first, and the oldest of nine is dropped. -/
def pushReturn (l : List Word) (x : Word) : List Word := (x :: l).take 8

/-- The return stack after a return to a target (R195). -/
def popReturn (l : List Word) (x : Word) : List Word :=
  match l with
  | [] => []
  | y :: r => if y = x then r else []

/-- The state with the issuing group's return stack changed. -/
def modReturns (s : State) (f : List Word → List Word) : State :=
  let g := curGroup s
  setGroup s { g with rstack := f g.rstack }

/-- A register target must be a multiple of 8 (R193); the trap reports the target. -/
def alignedTarget (t : Word) : Act Unit := if t &&& 7#64 == 0#64 then .ok () else trapLane 0x12 0 t

/-- BRQ (R191). -/
def execBrq (o : BrqOp) (s : State) : Host.Outcome State Fault Refusal :=
  finish_ s (
    if getQ (curGroup s) o.q.toNat != bit1 o.neg then .ok (transfer s (target (curStrand s).pc o.off))
    else .ok (advance s))

/-- Divide the issuing strand by destination (R19, R200), after the spill that its pushes need (R22). -/
def divideStrand (s : State) (dests : List (Word × Word)) (rc : Option Word) : Act State :=
  divide (spill dests.length s) dests rc

/-- BRV (R19, R192). -/
def execBrv (o : BrvOp) (s : State) : Host.Outcome State Fault Refusal :=
  finish_ s (do
    let g := curGroup s
    let e := curStrand s
    let t := guardLanes g e o.gn o.gp
    let s ← begin_ { hcode := 0x05 } (some t) s
    let m := maskOf t
    let all := maskOf (strandLanes g e)
    if t.isEmpty then .ok (advance s)
    else if m = all then .ok (transfer s (target e.pc o.off))
    else divideStrand s [(target e.pc o.off, m), (nextPc e, e.mask &&& ~~~m)] (some (target e.pc o.rcv)))

/-- JMP to an offset (R193). -/
def execJmp (o : JmpOp) (s : State) : Host.Outcome State Fault Refusal :=
  finish_ s (.ok (transfer s (target (curStrand s).pc o.off)))

/-- JMP to a register (R193). -/
def execJmpReg (o : JmpRegOp) (s : State) : Host.Outcome State Fault Refusal :=
  finish_ s (do
    let s ← begin_ { sr := [src o.sa o.fa], steerS := [o.sa.toNat] } none s
    let t := getS (curGroup s) o.sa.toNat
    alignedTarget t
    .ok (transfer s t))

/-- CALL to an offset (R196). -/
def execCall (o : CallOp) (s : State) : Host.Outcome State Fault Refusal :=
  finish_ s (do
    let s ← begin_ { sw := [o.sl.toNat] } none s
    dstFull [o.sl.toNat] [] s
    let e := curStrand s
    .ok (transfer (modReturns (writeScalar s o.sl.toNat (nextPc e) false) fun l => pushReturn l (nextPc e))
      (target e.pc o.off)))

/-- CALL to a register: the target is read before the link is written (R196). -/
def execCallReg (o : CallRegOp) (s : State) : Host.Outcome State Fault Refusal :=
  finish_ s (do
    let s ← begin_ { sr := [src o.sa o.fa], sw := [o.sl.toNat], steerS := [o.sa.toNat] } none s
    let t := getS (curGroup s) o.sa.toNat
    alignedTarget t
    dstFull [o.sl.toNat] [] s
    let e := curStrand s
    .ok (transfer (modReturns (writeScalar s o.sl.toNat (nextPc e) false) fun l => pushReturn l (nextPc e)) t))

/-- RET (R197). -/
def execRet (o : RetOp) (s : State) : Host.Outcome State Fault Refusal :=
  finish_ s (do
    let s ← begin_ { sr := [src o.sl o.fl], steerS := [o.sl.toNat] } none s
    let t := getS (curGroup s) o.sl.toNat
    alignedTarget t
    .ok (transfer (modReturns s fun l => popReturn l t) t))

/-- LOOP (R201). -/
def execLoop (o : LoopOp) (s : State) : Host.Outcome State Fault Refusal :=
  finish_ s (do
    let s ← begin_ { sr := [src o.sl o.fl], sw := [o.sl.toNat], steerS := [o.sl.toNat] } none s
    dstFull [o.sl.toNat] [] s
    let n := getS (curGroup s) o.sl.toNat - 1#64
    let pc := (curStrand s).pc
    let s := writeScalar s o.sl.toNat n false
    if n = 0#64 then .ok (advance s) else .ok (transfer s (target pc o.off)))

/-- The address a code pointer denotes in an instruction at a PC (R198). -/
def codePointer (pc : Word) (c : Lane) : Word := ((pc >>> 35) <<< 35) + (c.setWidth 64 <<< 3)

/-- The destinations of a strand's lanes, in the order of their lowest lanes, each with its mask (R200). -/
def destinations (lanes : List Nat) (f : Nat → Word) : List (Word × Word) :=
  lanes.foldl (fun acc l =>
    if acc.any (fun d => d.1 == f l) then acc.map fun d => if d.1 == f l then (d.1, setBit d.2 l true) else d
    else acc ++ [(f l, setBit 0#64 l true)]) []

/-- Move to the one destination, or divide the strand (R200). -/
def goTo (s : State) (dests : List (Word × Word)) (rc : Option Word) : Act State :=
  match dests with
  | [d] => .ok (transfer s d.1)
  | _ => divideStrand s dests rc

/-- Where the lanes of a vector transfer go: guarded lanes by their pointer, the others to next_pc (R199). -/
def vectorDests (s : State) (lanes : List Nat) (va : Nat) : List (Word × Word) :=
  let g := curGroup s
  let e := curStrand s
  destinations (strandLanes g e) fun l => if lanes.contains l then codePointer e.pc (getV g va l) else nextPc e

/-- JMPV (R199, R200). -/
def execJmpv (o : JmpvOp) (s : State) : Host.Outcome State Fault Refusal :=
  finish_ s (do
    let lanes := guardLanes (curGroup s) (curStrand s) o.gn o.gp
    let s ← begin_ { vr := [src o.va o.fa], steerV := [o.va.toNat], hcode := 0x05 } (some lanes) s
    if lanes.isEmpty then .ok (advance s)
    else goTo s (vectorDests s lanes o.va.toNat) (some (target (curStrand s).pc o.rcv)))

/-- CALLV: each active lane's link is the code pointer of next_pc (R199, R200). -/
def execCallv (o : CallvOp) (s : State) : Host.Outcome State Fault Refusal :=
  finish_ s (do
    let lanes := guardLanes (curGroup s) (curStrand s) o.gn o.gp
    let s ← begin_ { vr := [src o.va o.fa], vw := [o.vd.toNat], steerV := [o.va.toNat], hcode := 0x05 } (some lanes) s
    if lanes.isEmpty then .ok (advance s)
    else do
      let e := curStrand s
      let d := vectorDests s lanes o.va.toNat
      dstFull [] [o.vd.toNat] s
      let link : Lane := (nextPc e >>> 3).setWidth 32
      let s' := modReturns (writeLanes s o.vd.toNat (lanes.map fun l => (l, link, false)))
        fun l => pushReturn l (nextPc e)
      goTo s' d (some (nextPc e)))

/-- RETV: at most four destinations; the children merge where the strand itself would have (R199, R200). -/
def execRetv (o : RetvOp) (s : State) : Host.Outcome State Fault Refusal :=
  finish_ s (do
    let lanes := guardLanes (curGroup s) (curStrand s) o.gn o.gp
    let s ← begin_ { vr := [src o.va o.fa], steerV := [o.va.toNat], hcode := 0x05 } (some lanes) s
    if lanes.isEmpty then .ok (advance s)
    else do
      let g := curGroup s
      let e := curStrand s
      let d := vectorDests s lanes o.va.toNat
      need (decide (d.length ≤ 4)) 0x06
      let links := destinations lanes fun l => codePointer e.pc (getV g o.va.toNat l)
      let s' := modReturns s fun l =>
        match links with
        | [x] => popReturn l x.1
        | _ => []
      goTo s' d e.reconv)

/-! ### The end of lanes and groups -/

/-- An initialised team-scope point after k lanes of its team have exited (R36). -/
def pointExit (k : Nat) (p : Point) : Point :=
  if p.init && !p.device then
    let x := p.expected - k
    if x ≤ p.arrived then { p with expected := x, arrived := 0, phase := !p.phase } else { p with expected := x }
  else p

/-- The state after k lanes of a group's team have exited. -/
def exitPoints (s : State) (g : Group) (k : Nat) : State :=
  (teamOf s g).points.foldl (fun s p => turnPoint s g p.1 false p.2 (pointExit k p.2)) s

/-- The access will write a register of its group (R41). -/
def fillsRegister (o : Out) : Bool :=
  match o.kind with
  | .load | .atomic | .xcvt => !o.done
  | _ => false

/-- A reply of the group, ordinary or by coach, has not landed. -/
def awaitsReply (s : State) (gid : Nat) : Bool := s.outs.any fun o => o.2.gid == gid && fillsRegister o.2

/-- A coach of the group is abroad. -/
def coachAbroad (s : State) (gid : Nat) : Bool :=
  s.outs.any fun o => o.2.gid == gid && fillsRegister o.2 && o.2.coach.isSome

/-- Rows that no group holds any more leave the file (R32). -/
def dropRows (s : State) : State :=
  { s with rowBlocks := s.rowBlocks.filter fun b => s.groups.any fun g => g.2.rowBlocks.contains b.1 }

/-- Free the slot of an ended group whose replies have landed (R202); a team launched with CHK = 1 keeps it until its
next check point passes. -/
def freeEnded (s : State) (gid : Nat) : State :=
  match tget s.groups gid with
  | none => s
  | some g =>
    if g.ended && !awaitsReply s gid && !chkOf s g then dropRows { s with groups := terase s.groups gid } else s

/-- The slots of an aligned block of n slots around a slot (R27). -/
def blockSlots (slot n : Nat) : List Nat := (List.range n).map fun k => slot / n * n + k

/-- The group seated in a slot of a core, a saved team's groups apart. -/
def groupInSlot (s : State) (core slot : Nat) : Option (Nat × Group) :=
  s.groups.find? fun x => x.2.core == core && (x.2.slot == slot || x.2.held.contains slot) &&
    (match x.2.owner with
     | .team t => (tgetD s.teams t {}).phase != .saved
     | .spawned _ => true)

/-- A waiting partner's GFUSE ends with a code (R28): its destination is written and its strand goes on. -/
def giveCode (s : State) (gid : Nat) (g : Group) (f : FuseWait) (code : Nat) : State :=
  let e := (g.stack.head?).getD {}
  let write (s : State) : State :=
    let h := curGroup s
    advance (writeScalar (setGroup s { h with fuse := none }) f.sd (BitVec.ofNat 64 code) false)
  let s := recordFor (asStrand s gid e.id write) g e 5 [BitVec.ofNat 64 code]
  doneElsewhere g gid e s

/-- Give a GFUSE code to the groups of a block that belong to the same owner and are not fused (R28): an arrived partner
takes it at once, and one that has not arrived at its next GFUSE, whatever that names; a later code replaces one it has
not yet taken (log 76). -/
def postCode (s : State) (core slot n : Nat) (owner : Owner) (code : Nat) : State :=
  (blockSlots slot n).foldl (fun s k =>
    match groupInSlot s core k with
    | some (gid, g) =>
      if g.owner == owner && g.held.isEmpty && !g.ended then
        match g.fuse with
        | some f => giveCode s gid g f code
        | none => { s with groups := tset s.groups gid { g with fuseCode := some code } }
      else s
    | none => s) s

/-- A partner of the slot's block of n waits at a GFUSE.n. -/
def fuseWaits (s : State) (core slot n : Nat) (owner : Owner) : Bool :=
  (blockSlots slot n).any fun k =>
    match groupInSlot s core k with
    | some (_, p) => p.owner == owner && (p.fuse.map (·.n)) == some n
    | none => false

/-- A group ends while partners wait at a GFUSE: they receive code 1, or a lower code that holds (R28, R206). -/
def exitFuse (s : State) (g : Group) : State :=
  [2, 4].foldl (fun s n =>
    if fuseWaits s g.core g.slot n g.owner then postCode s g.core g.slot n g.owner 1 else s) s

/-- The message that unbinds a party's role at a home of another device: a delegation that no request awaits (R282, R285). -/
def unbindFar (s : State) (x : Word × Nat × Nat) : State :=
  let f (lo n : Nat) : Nat := (x.1.extractLsb' lo n).toNat
  sendOut s { kind := .conversation, dev := f 56 8, nums := [0, 1024, 0, 3, x.2.2, f 48 8, f 0 8, f 32 16, x.2.1, 0] }

/-- The roles that a group holds become unbound, here and at the homes of other devices; their messages stay (R282). -/
def unbindParty (s : State) (gid : Nat) : State :=
  let me := s.fabric.frpos.toNat % 256
  let s := (tgetD s.groups gid {}).farRoles.foldl unbindFar s
  { s with convs := s.convs.map fun c =>
      (c.1, { c.2 with roles := c.2.roles.filter fun r => !(r.2.dev == me && r.2.gid == gid) }) }

/-- The last lane of a group has exited: it issues nothing more (R202); the last lane of a team launched with CHK = 1
forces a check point (R440). -/
def endGroup (s : State) (gid : Nat) : State :=
  match tget s.groups gid with
  | none => s
  | some g =>
    let s := { s with groups := tset s.groups gid { g with ended := true, fuse := none, parked := false } }
    let s := unbindParty (exitFuse s g) gid
    let s :=
      if chkOf s g && !isTrailing s g && s.groups.all (fun x => x.2.owner != g.owner || x.2.ended) then
        modTeam s g fun t => { t with force := some (t.force.getD .last) }
      else s
    freeEnded s gid

/-- The stack of a group without the listed lanes (R202). -/
def removeLanes (m : Word) (l : List Entry) : List Entry := l.map fun e => { e with mask := e.mask &&& ~~~m }

/-- EXIT (R202). -/
def execExit (o : ExitOp) (s : State) : Host.Outcome State Fault Refusal :=
  finish_ s (do
    let lanes := guardLanes (curGroup s) (curStrand s) o.gn o.gp
    let s ← begin_ { hcode := 0x05 } (some lanes) s
    if lanes.isEmpty then .ok (advance s)
    else
      let g := curGroup s
      let e := curStrand s
      let st := removeLanes (maskOf lanes) (putEntry g.stack { e with pc := nextPc e, block := none })
      let g := settleGroup s.progress { g with stack := st }
      let s := exitPoints (setGroup s g) g lanes.length
      if g.stack.isEmpty then .ok (endGroup s s.cur.gid) else .ok s)

/-- PBLK (R169, R205). -/
def execPblk (o : PblkOp) (s : State) : Host.Outcome State Fault Refusal :=
  let b : Block := { sample := getQ (curGroup s) o.q.toNat, left := o.cnt.toNat + 1, pattern := o.pat }
  finish_ s (.ok (moveTo s (nextPc (curStrand s)) (some b)))

/-! ### Width -/

/-- The split factor of a split code (R203). -/
def splitFactor (c : BitVec 2) : Nat := if c = 1#2 then 2 else 4

/-- The slots of a core that a group occupies or holds. -/
def slotsTaken (s : State) (core : Nat) : List Nat :=
  s.groups.flatMap fun x =>
    let away := match x.2.owner with
      | .team t => (tgetD s.teams t {}).phase == .saved
      | .spawned _ => false
    if x.2.core == core && !away then x.2.slot :: x.2.held else []

/-- The free slots of a core, lowest first. -/
def freeSlots (s : State) (core : Nat) : List Nat :=
  (List.range Config.slots).filter fun k => !(slotsTaken s core).contains k

/-- For each child of a split by n, the partner slots it takes over: its own slot first, where it has one (R25). -/
def childSlots (g : Group) (n k : Nat) : List Nat × Bool :=
  let all := g.slot :: g.held
  let pw := g.width / all.length
  let cw := g.width / n
  let mine := (List.range all.length).filter fun j => decide (k * cw ≤ j * pw) && decide (j * pw < (k + 1) * cw)
  (mine.map fun j => all.getD j 0, mine.any fun j => j * pw == k * cw)

/-- The children of a split by n that need a free slot (R25). -/
def needSlot (g : Group) (n : Nat) : List Nat := (List.range n).filter fun k => !(childSlots g n k).2

/-- The GSPLIT code (R26). -/
def splitCode (s : State) (g : Group) (n : Nat) : Nat :=
  if (freeSlots s g.core).length < (needSlot g n).length then 1
  else if 1 < g.stack.length then 2
  else if g.width / n < 4 then 3
  else 0

/-- A mask's bits from lane lo, n of them, moved to lane 0. -/
def maskPart (m : Word) (lo n : Nat) : Word := (m >>> lo) &&& widthMask n

/-- Lane-keyed entries of lanes lo to lo + n - 1, moved to lane 0. -/
def lanePart {α : Type} (t : Tab α) (lo n : Nat) : Tab α :=
  (t.filter fun x => decide (lo ≤ x.1 % 64) && decide (x.1 % 64 < lo + n)).map fun x => (x.1 - lo, x.2)

/-- Child k of a group split by n, in a slot (R24). What R24 does not name, every child takes from its parent: the phases
its strand has recorded, MCMASK and SSTEP, and the rest of a block; its own refusal count starts at 0; child 0 keeps a
single step and an exemption that are under way (log 72). -/
def childOf (g : Group) (n k slot : Nat) : Group :=
  let cw := g.width / n
  let lo := k * cw
  let m := g.rowBlocks.length
  let e := (g.stack.head?).getD {}
  { g with
    slot := slot
    held := (childSlots g n k).1.filter fun x => x ≠ slot
    width := cw
    laneNo := (g.laneNo.drop lo).take cw
    vregs := lanePart g.vregs lo cw
    vpoison := (lanePart (g.vpoison.map fun x => (x, ())) lo cw).map (·.1)
    preds := g.preds.map fun p => (p.1, maskPart p.2 lo cw)
    stack := [{ e with mask := maskPart e.mask lo cw, reconv := none }]
    rstack := [], ref := false, refusals := 0, fuse := none, fuseCode := none, mxOpen := [], batches := [], folds := []
    sig := if k = 0 then g.sig else 0#64
    stepping := if k = 0 then g.stepping else none
    exempt := if k = 0 then g.exempt else []
    farRoles := if k = 0 then g.farRoles else []
    rowBlocks := ((List.range m).filter fun j =>
      decide (lo < (j + 1) * (g.width / m)) && decide (j * (g.width / m) < lo + cw)).map fun j => g.rowBlocks.getD j 0 }

/-- Divide the issuing group into n children; `given` are the slots for those that need one (R24, R25). Once all are
there, those without lanes end (R202). -/
def splitGroup (s : State) (n : Nat) (given : List Nat) : State :=
  let g := curGroup s
  let needy := needSlot g n
  let slotOf (k : Nat) : Nat :=
    match needy.idxOf? k with
    | some i => given.getD i 0
    | none => (childSlots g n k).1.headD g.slot
  let put (x : State × List Nat) (k : Nat) : State × List Nat :=
    let c := childOf g n k (slotOf k)
    let (id, s) := if k = 0 then (x.1.cur.gid, x.1) else freshId x.1
    let stack := dropEmpty c.stack
    ({ s with groups := tset s.groups id { c with stack := stack } }, if stack.isEmpty then x.2 ++ [id] else x.2)
  let r := (List.range n).foldl put (s, [])
  r.2.foldl endGroup r.1

/-- The group's matrix instructions have completed (R294). -/
def matrixIdle (s : State) (gid : Nat) : Bool :=
  s.cores.all fun c => c.2.mxQueue.all fun x => x.2.gid != gid

/-- GSPLIT (R24 to R26, R203). -/
def execGsplit (o : WidthOp) (s : State) : Host.Outcome State Fault Refusal :=
  finish_ s (do
    let s ← begin_ { sw := [o.sd.toNat], hcode := 0x07 } none s
    dstFull [o.sd.toNat] [] s
    until_ (!awaitsReply s s.cur.gid && matrixIdle s s.cur.gid) s
    let g := curGroup s
    let n := splitFactor o.code
    let code := splitCode s g n
    let slots := (freeSlots s g.core).take (needSlot g n).length
    let v : List Word := BitVec.ofNat 64 code :: (if code = 0 then slots.map (BitVec.ofNat 64) else [])
    let (v, s) ← outside 5 v s
    let code := v.headD 0#64
    let taken := slotsTaken s g.core
    if isTrailing s g && code == 0#64 && (decide (1 < g.stack.length) || decide (g.width / n < 4) ||
        (v.drop 1).any fun k => taken.contains k.toNat) then
      waitHere (cannotFollow s)
    else
      let s := advance (writeScalar s o.sd.toNat code false)
      if code = 0#64 then .ok (splitGroup s n ((v.drop 1).map (·.toNat))) else .ok s)

/-- The size of the block in which the partners of a GFUSE.n stand: the larger one where a partner there waits at a
GFUSE.4 (R204). -/
def fuseBlock (s : State) (g : Group) (n : Nat) : Nat := if fuseWaits s g.core g.slot 4 g.owner then 4 else n

/-- The failures of a GFUSE in the block of a group that are known now (R28). -/
def fuseCodes (s : State) (g : Group) (n : Nat) : List Nat :=
  if (teamKey g).isNone then [5]
  else
    (if fuseBlock s g n != n then [4] else []) ++ (blockSlots g.slot n).flatMap fun k =>
      match groupInSlot s g.core k with
      | none => [1]
      | some (gid, p) =>
        (if p.owner != g.owner then [5]
         else if p.ended then [1]
         else
          (if !p.held.isEmpty || p.width != g.width || decide (64 < n * g.width) then [4] else []) ++
          (match p.fuse with
           | none => []
           | some f =>
            (if decide (1 < p.stack.length) then [2] else []) ++
            (if coachAbroad s gid then [3] else []) ++
            (if f.n != n then [4] else [])))

/-- Shift lane-keyed entries up by lo lanes. -/
def laneShift {α : Type} (t : Tab α) (lo : Nat) : Tab α := t.map fun x => (x.1 + lo, x.2)

/-- Merge two lane-keyed tables. -/
def tunion {α : Type} (a b : Tab α) : Tab α := b.foldl (fun t x => tset t x.1 x.2) a

/-- Partner p's lanes joined to a group from lane lo up (R27). REF and the recorded phases stay those of the group joined
to, partner 0; traps pending on p stay pending on the fused strand (log 77). -/
def joinLanes (g : Group) (lo : Nat) (p : Group) : Group :=
  { g with
    vregs := tunion g.vregs (laneShift p.vregs lo)
    vpoison := p.vpoison.foldl (fun l k => sadd1 l (k + lo)) g.vpoison
    vfull := g.vfull &&& p.vfull
    preds := (List.range 8).foldl (fun t k =>
      if k = 0 then t else tset t k (tgetD g.preds k 0#64 ||| (tgetD p.preds k 0#64 <<< lo))) g.preds
    laneNo := g.laneNo ++ p.laneNo
    width := g.width + p.width
    held := g.held ++ [p.slot]
    rowBlocks := g.rowBlocks ++ p.rowBlocks
    farRoles := g.farRoles ++ p.farRoles
    stack := g.stack.map fun e =>
      { e with mask := e.mask ||| (aliveLanes p <<< lo), pend := e.pend ++ p.stack.flatMap (·.pend) } }

/-- What other tables hold of a partner passes to the fused group. -/
def rebind (s : State) (old new : Nat) : State :=
  let f (k : Nat) : Nat := if k = old then new else k
  let e := (((tgetD s.groups new {}).stack.head?).map (·.id)).getD 0
  { s with
    teams := s.teams.map fun t => (t.1, { t.2 with arrivals := t.2.arrivals.map fun a =>
      (a.1, if a.2.gid = old then { a.2 with gid := new, entry := e } else a.2) })
    outs := s.outs.map fun o => (o.1, { o.2 with gid := f o.2.gid })
    copies := s.copies.map fun c => (c.1, { c.2 with gid := f c.2.gid })
    posts := s.posts.map fun p => (p.1, { p.2 with gid := f p.2.gid })
    convs := s.convs.map fun c => (c.1, { c.2 with roles := c.2.roles.map fun r =>
      (r.1, if r.2.dev = s.fabric.frpos.toNat % 256 then { r.2 with gid := f r.2.gid } else r.2) }) }

/-- The arrived groups of a block, in slot order. -/
def blockGroups (s : State) (g : Group) (n : Nat) : List (Nat × Group) :=
  (blockSlots g.slot n).filterMap fun k => groupInSlot s g.core k

/-- Fuse the groups of a block (R27): partner 0's destination reads 0 and partner 0 goes on after its GFUSE. What follows
an instruction follows each partner's: the single step of one is the fused strand's (R371). -/
def fuseGroups (s : State) (ps : List (Nat × Group)) (sd : Nat) : State :=
  match ps with
  | [] => s
  | (id, p0) :: rest =>
    let base : Group := { p0 with fuse := none, fuseCode := none }
    let step (x : Group × Nat) (p : Nat × Group) : Group × Nat := (joinLanes x.1 x.2 p.2, x.2 + p.2.width)
    let g := (rest.foldl step (base, p0.width)).1
    let g := putS g sd 0#64
    let g := { g with stack := g.stack.map fun e => { e with pc := nextPc e, block := blockNext e.block, stage := 0 } }
    let s := { s with groups := tset (rest.foldl (fun t p => terase t p.1) s.groups) id g }
    let s := rest.foldl (fun s p => rebind s p.1 id) s
    let head := (p0.stack.head?).getD {}
    let stepped := p0.stepping.isSome || rest.any fun p => p.2.stepping.isSome
    let s := if s.cur.gid = id then s else doneElsewhere { p0 with stepping := none } id head s
    let s := (rest.filter fun p => p.1 != s.cur.gid).foldl (fun s p => noteInjections p.2 s) s
    if s.cur.gid = id && p0.stepping.isSome || !stepped then s
    else
      let s := pendTrap s id head.id { code := 0x32#8 }
      { s with groups := tmod s.groups id fun g => { g with stepping := some head.id } }

/-- GFUSE (R27 to R29, R204). -/
def execGfuse (o : WidthOp) (s : State) : Host.Outcome State Fault Refusal :=
  finish_ s (do
    let s ← begin_ { sw := [o.sd.toNat], hcode := 0x07 } none s
    dstFull [o.sd.toNat] [] s
    let n := splitFactor o.code
    let g := curGroup s
    let give (s : State) (code : Nat) : Act State := do
      let (v, s) ← outside 5 [BitVec.ofNat 64 code] s
      let g := curGroup s
      let s := setGroup s { g with fuse := none, fuseCode := none }
      .ok (advance (writeScalar s o.sd.toNat (v.headD 0#64) false))
    if isTrailing s g then do
      let (v, s) ← outside 5 [] s
      if v.headD 0#64 != 0#64 then give s 0
      else
        let ps := blockGroups s g n
        if ps.any (fun p => p.1 != s.cur.gid && (headValue s p.1).isSome) then waitHere s
        else if ps.length = n && ps.all (fun p => p.2.held.isEmpty && decide (p.2.stack.length = 1)) then
          .ok (fuseGroups s ps ((v.getD 1 0#64).toNat))
        else waitHere (cannotFollow s)
    else
      match g.fuseCode with
      | some c => give s c
      | none =>
        let s := setGroup s { g with fuse := some { n := n, sd := o.sd.toNat } }
        match fuseCodes s (curGroup s) n with
        | [] =>
          let ps := blockGroups s g n
          if ps.length = n && ps.all (fun p => p.2.fuse.isSome && !awaitsReply s p.1 && matrixIdle s p.1) then do
            let sd := ((ps.head?.bind (·.2.fuse)).map (·.sd)).getD 0
            let (_, s) ← outside 5 [0#64, BitVec.ofNat 64 sd] s
            .ok (fuseGroups s ps sd)
          else waitHere s
        | c :: cs =>
          let code := cs.foldl min c
          give (postCode (setGroup s { curGroup s with fuse := none }) g.core g.slot (fuseBlock s g n) g.owner code) code)

end Sys2Proof.Machine
end

