-- ==== Sys2Proof/Machine/Outs.lean ====
section
/-!
DEFINITION. Accesses between their issue and their performance: what each waits for, its performance in DRAM, a vault,
the share or the L1, and the landing of its reply (R78, R79, R107 to R119, R236, R244).
-/

namespace Sys2Proof.Machine

/-- The scope an access acts at: at most team on a scratchpad address, device on a vault address (R107). -/
def actScope (space scope : Nat) : Nat := if space = 2 then min scope 2 else if space = 1 then 5 else scope

/-- Ordering code 1 or 3: an acquire. -/
def isAcq (ord : Nat) : Bool := ord % 2 == 1
/-- Ordering code 2 or 3: a release. -/
def isRel (ord : Nat) : Bool := 2 ≤ ord

/-- The access executes an atomic. -/
def isAtomic (k : OutKind) : Bool := k == .atomic || k == .xadd || k == .xcvt

/-- The access writes memory. -/
def writesMem (k : OutKind) : Bool := k == .store || k == .atomic || k == .xadd

/-- An L1 action follows from this scope: cluster or wider, or any scope in a team that spans cores (R79, R117). -/
def actsOnL1 (s : State) (o : Out) : Bool := 3 ≤ actScope o.space o.scope || spanning s o.owner

/-- A lane's access stays in the L1: global, team scope or narrower, memory type 0 (R78). -/
def inL1 (o : Out) (a : LaneAcc) : Bool := o.space == 0 && o.scope ≤ 2 && a.mtype == 0

/-- What executes an access (R115): the L1 of a core, the hub of a cluster, a home slice, a fabric port, a vault's
controller, or the banks of a share. -/
inductive ExecUnit where
  | core (c : Nat)
  | hub (g : Nat)
  | slice (k : Nat)
  | port
  | vault (v : Nat)
  | banks
  deriving DecidableEq, Repr

/-- The unit of one lane of an access (R78, R115). -/
def unitOf (s : State) (o : Out) (a : LaneAcc) : ExecUnit :=
  if o.space = 2 then .banks
  else if o.space = 1 then .vault ((a.pa - Config.vaultBase) / Config.vaultEach)
  else if isAtomic o.kind then
    if o.scope = 6 then .port
    else if o.scope ≤ 2 then (if spanning s o.owner then .hub (clusterOf o.core) else .core o.core)
    else if o.scope = 3 then .hub (clusterOf o.core)
    else .slice (homeSlice a.pa)
  else if inL1 o a then .core o.core
  else .slice (homeSlice a.pa)

/-- Two lane accesses of one thread touch a common byte. -/
def touches (o x : Out) (a b : LaneAcc) : Bool :=
  (o.scalar || x.scalar || a.laneNo == b.laneNo) && decide (a.pa < b.pa + x.size) && decide (b.pa < a.pa + o.size)

/-- Two accesses of common threads touch a common byte, and one of them writes it or both read it in one L1 (R113). -/
def clash (o x : Out) : Bool :=
  o.space == x.space && o.lanes.any fun a => x.lanes.any fun b => touches o x a b

/-- A thread of the two accesses is common. -/
def sameThread (o x : Out) : Bool := o.owner == x.owner && o.who.any x.who.contains

/-- An earlier access `o` is performed before a later access `x` of a common thread: after an acquire, before a
release, around a fence, or on a common byte (R120 to R126, R247). -/
def ordered (o x : Out) : Bool :=
  sameThread o x &&
    (match o.kind, x.kind with
     | .fence, .fence => true
     | .fence, _ => isAcq o.ord || writesMem x.kind || isRel x.ord
     | _, .fence => isRel x.ord || isAcq o.ord || (isAcq x.ord && (o.kind == .load || isAtomic o.kind))
     | _, _ => isAcq o.ord || isRel x.ord || clash o x)

/-- The write-backs of the issuing core that come before an access (R78, R79, R117). -/
def wantsWb (s : State) (o : Out) (sector : Nat) : Bool :=
  (isRel o.ord && (actsOnL1 s o || isAtomic o.kind)) ||
  (o.space == 0 && o.kind != .fence && o.lanes.any fun a =>
    if isAtomic o.kind then (linesOf a.pa o.size).contains (sector / 4)
    else !inL1 o a && (sectorsOf a.pa o.size).contains sector)

/-- The owner cores, other than the acquiring one, that an acquire promotes, each with the slice that asks it (R119). -/
def promotes (s : State) (o : Out) : List (Nat × Nat) :=
  if isAcq o.ord && 3 ≤ o.scope && o.space == 0 && o.kind != .fence then
    ((o.lanes.flatMap fun a => linesOf a.pa o.size).flatMap fun line =>
      (s.owners.flatMap fun t => t.2).filterMap fun e =>
        if e.1 = line && e.2 ≠ o.core then some (homeSlice (128 * line), e.2) else none).eraseDups
  else []

/-- Once what comes before an access is performed, its write-backs are asked for. -/
def stageOne (s : State) (id : Nat) : State :=
  match tget s.outs id with
  | none => s
  | some o =>
    if o.staged || !o.after.isEmpty then s
    else
      let wb := pendingWb s o.core (wantsWb s o)
      askWriteBack { s with outs := tupd s.outs id fun o => { o with staged := true, afterWb := wb } } o.core (wantsWb s o)

/-- Once the accesses that an arrival awaits are performed, its write-backs are asked for (R45, R79, R117). -/
def stageArrival (s : State) (t id : Nat) : State :=
  match tget (tgetD s.teams t {}).arrivals id with
  | none => s
  | some a =>
    if a.staged || !a.after.isEmpty then s
    else
      let ws := if a.wb then pendingWb s a.core (fun _ => true) else []
      let a := { a with staged := true, afterWb := ws }
      let s := { s with teams := tmod s.teams t fun x => { x with arrivals := tset x.arrivals id a } }
      if a.wb then askWriteBack s a.core (fun _ => true) else s

/-- Stage every access and arrival that is due. -/
def stageAll (s : State) : State :=
  let s := (s.outs.map (·.1)).foldl stageOne s
  s.teams.foldl (fun s t => t.2.arrivals.foldl (fun s a => stageArrival s t.1 a.1) s) s

/-- The access may be performed now. -/
def outReady (o : Out) : Bool := o.after.isEmpty && o.staged && o.afterWb.isEmpty && o.promos.isEmpty

/-- Send an access: it waits for the earlier ones it is ordered after. -/
def sendOut_ (s : State) (o : Out) : Nat × State :=
  let (id, s) := freshId s
  let after := (s.outs.filter fun x => ordered x.2 o).map (·.1)
  (id, stageOne { s with outs := tset s.outs id { o with after := after } } id)

/-- An access is complete: nothing waits for it any more. -/
def dropOut (s : State) (id : Nat) : State :=
  let s := { s with
    outs := (terase s.outs id).map fun o => (o.1, { o.2 with after := sdel1 o.2.after id })
    teams := s.teams.map fun t => (t.1, { t.2 with arrivals := t.2.arrivals.map fun a =>
      (a.1, { a.2 with after := sdel1 a.2.after id }) })
    contexts := s.contexts.map fun c => (c.1, { c.2 with running := c.2.running.map fun r =>
      { r with outs := sdel1 r.outs id } }) }
  stageAll s

/-! ### Performing -/

/-- The bytes of an address that a team's held stores have written, latest last (R414). -/
def heldByte (s : State) (o : Out) (x : Nat) : Option Byte :=
  match o.owner with
  | .spawned _ => none
  | .team t =>
    (tgetD s.teams t {}).held.foldl (fun acc h =>
      if h.space = o.space then
        h.lanes.foldl (fun acc a =>
          if a.pa ≤ x && x < a.pa + h.size then some (a.data.extractLsb' (8 * (x - a.pa)) 8) else acc) acc
      else acc) none

/-- What a lane's access finds at its address: bytes with poison (R75, R78, R414). -/
def laneView (s : State) (o : Out) (a : LaneAcc) (n : Nat) : List (Byte × Bool) :=
  let base :=
    if o.space = 2 then
      match o.owner with
      | .team t => bytesWith (tgetD s.teams t {}).share (tgetD s.teams t {}).sharePoison a.pa n
      | .spawned _ => bytesWith [] [] a.pa n
    else if inL1 o a && !isAtomic o.kind then l1View s o.core a.pa n
    else bytesWith s.mem s.poison a.pa n
  (List.range n).map fun k =>
    match (if o.space = 2 then none else heldByte s o (a.pa + k)) with
    | some b => (b, false)
    | none => base.getD k (0#8, false)

/-- The number that viewed bytes hold. -/
def viewNat (l : List (Byte × Bool)) : Nat := leNat (l.map (·.1))

/-- Which of the 4-byte pieces of viewed bytes are poisoned. -/
def viewPoison (l : List (Byte × Bool)) : BitVec 4 :=
  (List.range 4).foldl (fun x k => withBit x k (((l.drop (4 * k)).take 4).any (·.2))) 0#4

/-- Write a lane's bytes where its access performs them (R75, R78). -/
def lanePut (s : State) (o : Out) (a : LaneAcc) (b : List Byte) : State :=
  if o.space = 2 then
    match o.owner with
    | .team t => sharePut s t a.pa b a.poisoned
    | .spawned _ => s
  else if inL1 o a && o.kind == .store then l1Store s o.core a.pa b a.poisoned o.owner
  else
    let s := memPut s a.pa b a.poisoned
    if o.space = 1 then s
    else if o.kind == .store then l1Patch s o.core a.pa b a.poisoned
    else dropCleanIf s o.core fun l => (linesOf a.pa b.length).contains l

/-- The new value of an atomic (R243): operator by opcode, size in bits, value found, operand, swap value. -/
def atomicValue (op bits m b c : Nat) : Nat :=
  let w := 2 ^ bits
  let sg (x : Nat) : Int := if x < w / 2 then (x : Int) else (x : Int) - w
  match op with
  | 0x70 => (m + b) % w
  | 0x71 => (m + w - b) % w
  | 0x72 => if sg b < sg m then b else m
  | 0x73 => min m b
  | 0x74 => if sg m < sg b then b else m
  | 0x75 => max m b
  | 0x76 => m &&& b
  | 0x77 => m ||| b
  | 0x78 => m ^^^ b
  | 0x79 => b
  | 0x7A => if m = b then c else m
  | 0x7B => if b ≤ m then 0 else m + 1
  | 0x7C => if m = 0 || b < m then b else m - 1
  | 0x7D => (fadd32 0 false (BitVec.ofNat 32 m) (BitVec.ofNat 32 b)).toNat
  | 0x7E => (fmin32 (BitVec.ofNat 32 m) (BitVec.ofNat 32 b)).toNat
  | _ => (fmax32 (BitVec.ofNat 32 m) (BitVec.ofNat 32 b)).toNat

/-- What an atomic of another unit that is under way may have read before a lane of an atomic changes memory (R116): it may
then lose that change. -/
def noteEarly (s : State) (o : Out) (a : LaneAcc) : State :=
  let seen (x : Out) (b : LaneAcc) : LaneAcc :=
    if !b.did && b.early.isNone && unitOf s x b != unitOf s o a && decide (a.pa < b.pa + x.size) &&
        decide (b.pa < a.pa + o.size) then { b with early := some (laneView s x b x.size) }
    else b
  { s with outs := s.outs.map fun y =>
      if isAtomic y.2.kind && y.2.space == o.space && outReady y.2 && !y.2.away then
        (y.1, { y.2 with lanes := y.2.lanes.map (seen y.2) })
      else y }

/-- Perform one lane of an access, in place `k` of its lanes (R237, R244 to R246), once. -/
def performLane (s : State) (id k : Nat) : State :=
  match tget s.outs id with
  | none => s
  | some o =>
    let a := o.lanes.getD k {}
    if a.did then s
    else
      let put (s : State) (a : LaneAcc) : State :=
        { s with outs := tupd s.outs id fun o => { o with lanes := o.lanes.set k { a with did := true } } }
      let now := laneView s o a o.size
      let (view, s) := match a.early with
        | some v =>
          let (b, s) := takeBit s
          (if b then v else now, s)
        | none => (now, s)
      let got (s : State) : State := put s { a with res := BitVec.ofNat 128 (viewNat view), resPoison := viewPoison view }
      let change (s : State) (b : LaneAcc) (l : List Byte) : State := lanePut (noteEarly s o a) o b l
      match o.kind with
      | .fence => s
      | .store => put (lanePut s o a (leBytes a.data.toNat o.size)) a
      | .load =>
        let s := if inL1 o a then (if o.noAlloc then s else l1Fill s o.core a.pa o.size)
                 else if o.space = 0 then dropCleanIf s o.core fun l => (linesOf a.pa o.size).contains l else s
        got s
      | .atomic =>
        let m := viewNat view
        let bad := a.poisoned || view.any (·.2)
        let v := atomicValue o.op (8 * o.size) m a.data.toNat a.swap.toNat
        change (got s) { a with poisoned := bad } (leBytes v o.size)
      | .xadd =>
        let x := xaAdd (BitVec.ofNat 512 (viewNat view)) (a.data.setWidth 32)
        change (put s a) { a with poisoned := a.poisoned || view.any (·.2) } (leBytes x.toNat 64)
      | .xcvt =>
        let r := xaRead (BitVec.ofNat 512 (viewNat view))
        put s { a with res := r.setWidth 128, resPoison := if view.any (·.2) then 1#4 else 0#4 }

/-- The L1 action of an acquire: the issuing core's clean lines go (R79, R117). -/
def acquireL1 (s : State) (o : Out) : State :=
  if isAcq o.ord && actsOnL1 s o then dropCleanIf s o.core fun _ => true else s

/-- A lane's narrow store needs a line that a full L1 has no room for (R2). -/
def laneWantsRoom (s : State) (o : Out) (a : LaneAcc) : Bool :=
  o.kind == .store && inL1 o a && !l1Room s o.core (a.pa / 128)

/-- Perform an access: those of its lanes that have not been performed on their own, in increasing order, but for those
that a full L1 has no room for. -/
def performOut (s : State) (id : Nat) : State :=
  match tget s.outs id with
  | none => s
  | some o =>
    (List.range o.lanes.length).foldl (fun s k =>
      if laneWantsRoom s o (o.lanes.getD k {}) then s else performLane s id k) s

/-- Every lane of an access has been performed. -/
def allDone (o : Out) : Bool := o.lanes.all (·.did)

/-! ### On the network -/

/-- An access leaves its core on a train (R96): to a vault, or to a hub, home slice or port; a load that finds its bytes in
the L1, and a store that the L1 takes, do not. -/
def travels (s : State) (o : Out) : Bool :=
  o.space == 1 || (o.space == 0 && o.lanes.any fun a =>
    unitOf s o a != .core o.core || (o.kind == .load && !l1Holds s o.core a.pa o.size))

/-- The request of an access leaves its core. -/
def depart (s : State) (id : Nat) (o : Out) : State :=
  newTrain { s with outs := tupd s.outs id fun o => { o with sent := true, away := true } } o.core .access id false

/-- The answer to an access leaves the slice or router it went to. -/
def answer (s : State) (id : Nat) : State :=
  match tget s.outs id with
  | none => s
  | some o =>
    newTrain { s with outs := tupd s.outs id fun o => { o with sent := false, away := true } }
      (sliceSource (anchorOf o)) .access id true

/-- Before an acquire is performed the cores that own its lines are promoted (R119). -/
def promote (s : State) (id : Nat) (o : Out) : State :=
  (promotes s o).foldl (fun s y =>
    let (k, s) := freshId s
    let s := { s with
      promotions := tset s.promotions k { out := id, slice := y.1, core := y.2, away := true }
      outs := tmod s.outs id fun o => { o with promos := o.promos ++ [k] } }
    newTrain s (sliceSource y.1) .promotion k false) s

/-- A narrow store that is not performed needs a line that a full L1 has no room for (R2). -/
def wantsRoom (s : State) (o : Out) : Bool := o.lanes.any fun a => !a.did && laneWantsRoom s o a

/-- A full L1 evicts a line, freely chosen: it is written back (R2, R118). -/
def makeRoom (s : State) (c : Nat) : State :=
  let (k, s) := pickFree ((coreAt s c).lines.map (·.1)) s
  askWriteBack s c fun sec => sec / 4 == k

/-- An access that may be performed goes one step on (R96, R119): its request leaves, the cores that own its lines are
promoted, it is performed, its answer leaves, and last it ends as `f` says. -/
def outStep (s : State) (id : Nat) (o : Out) (f : State → State) : Option State :=
  if !outReady o || o.away then none
  else if allDone o then some (if o.sent then answer s id else f s)
  else if !o.sent && travels s o then some (depart s id o)
  else if !(promotes s o).isEmpty then some (promote s id o)
  else if wantsRoom s o then some (makeRoom s o.core)
  else
    let s := performOut s id
    some (if !(tget s.outs id).any allDone then s else if o.sent then answer s id else f s)

/-- An earlier lane of a store that is not performed writes a byte of this one, whose value is that of the highest lane
(R109). -/
def laneWaits (o : Out) (k : Nat) : Bool :=
  let a := o.lanes.getD k {}
  o.kind == .store && (o.lanes.take k).any fun b => !b.did && decide (b.pa < a.pa + o.size) && decide (a.pa < b.pa + o.size)

/-- The access of one lane is performed, apart from those of the other lanes (R109, R244). -/
def lanePerform (s : State) (id k : Nat) (o : Out) : Option State :=
  if !outReady o || o.away || o.lanes.length ≤ k || laneWaits o k || (!o.sent && travels s o) ||
      !(promotes s o).isEmpty || wantsRoom s o then none
  else some (performLane s id k)

/-! ### Landing a reply -/

/-- The registers a result of n bytes takes in a vector run (R234). -/
def runRegs (n : Nat) : Nat := max 1 (n / 4)

/-- A group's own scalar register written, handler mode or not. -/
def putOwnS (g : Group) (r : Nat) (v : Word) (bad : Bool) : Group :=
  { g with sregs := tset g.sregs r v, spoison := if bad then sadd1 g.spoison r else sdel1 g.spoison r }

/-- A scalar reply written, to a handler register where the handler asked for it. -/
def landScalar (g : Group) (o : Out) (v : Word) (bad : Bool) : Group :=
  if o.hreg then
    match g.handler with
    | some h => { g with handler := some { h with regs := tset h.regs o.reg v, full := withBit h.full o.reg true },
                         spoison := if bad then sadd1 g.spoison (128 + o.reg) else sdel1 g.spoison (128 + o.reg) }
    | none => g
  else markOwnS (putOwnS g o.reg v bad) o.reg true

/-- A lane's piece of a reply written (R236). -/
def landPiece (g : Group) (o : Out) (a : LaneAcc) (k : Nat) : Group :=
  let g := putV g (o.reg + k) a.lane (a.res.extractLsb' (32 * k) 32)
  if a.resPoison.getLsbD k then poisonV g (o.reg + k) a.lane else g

/-- The pieces of each active lane of a reply, as the load-value queue holds them (R417). -/
def replyVals (o : Out) : List Word :=
  o.lanes.flatMap fun a => if o.scalar then [a.res.setWidth 64]
    else (List.range o.nreg).map fun k => (a.res.extractLsb' (32 * k) 32).setWidth 64

/-- Which of those pieces are poisoned. -/
def replyBad (o : Out) : List Nat :=
  let bits := o.lanes.flatMap fun a => if o.scalar then [a.resPoison != 0#4]
    else (List.range o.nreg).map fun k => a.resPoison.getLsbD k
  (List.range bits.length).filter fun i => bits.getD i false

/-- Bytes of the landing record of an escort: 0xE0 or 0xE1 and the escort registers, per active lane (R419, R443). -/
def escortRecord (g : Group) (tag : Byte) (lanes : List Nat) (base count : Nat) : List Byte :=
  lanes.flatMap fun l => tag :: (List.range count).flatMap fun k => leBytes (getV g (base + k) l).toNat 4

/-- The landing of an escorted access whose record is still to be folded (R443). -/
def noteLanding (g : Group) (id : Nat) (o : Out) (base count : Nat) : Group :=
  { g with folds := tmod g.folds id fun f =>
      { f with landed := true, bytes := escortRecord g 0xE1#8 (o.lanes.map (·.lane)) base count } }

/-- Write an access's reply into its group's registers and mark them full (R236); poison among it is consumed. -/
def landReply (s : State) (id : Nat) : State :=
  match tget s.outs id with
  | none => s
  | some o =>
    let s := fillValue s id (replyVals o) (replyBad o)
    match tget s.groups o.gid with
    | none => s
    | some g =>
      let bad := o.lanes.any fun a => a.resPoison != 0#4
      let g :=
        if o.scalar then
          let a := o.lanes.headD {}
          landScalar g o (a.res.setWidth 64) (a.resPoison != 0#4)
        else
          let g := o.lanes.foldl (fun g a => (List.range o.nreg).foldl (fun g k => landPiece g o a k) g) g
          (List.range o.nreg).foldl (fun g k => markV g (o.reg + k) true) g
      let g := match tget g.folds id with
        | some f => noteLanding g id o (f.regs.headD 0) (f.regs.length - o.nreg)
        | none => g
      let s := { s with groups := tset s.groups o.gid g }
      if bad then consumed s g else s

/-- A reply has landed: the access is complete, and an ended group's slot may be freed (R202). -/
def landed (s : State) (id : Nat) : State :=
  match tget s.outs id with
  | none => s
  | some o => freeEnded (dropOut (landReply s id) id) o.gid

/-- LOAD_REPLY (R236): a seated load or atomic goes on, to the landing of its reply and the action of its acquire;
`evicted` means that the L1 no longer held the clean lines it touches. -/
def execLoadReply (id : Nat) (evicted : Bool) (s : State) : Host.Outcome State Fault Refusal :=
  event_ s (
    match tget s.outs id with
    | none => none
    | some o =>
      if fillsRegister o && o.coach.isNone then
        let s := if evicted && o.space == 0 then dropCleanIf s o.core fun l =>
          o.lanes.any fun a => (linesOf a.pa o.size).contains l else s
        outStep s id o fun s => landed (acquireL1 s o) id
      else none)

/-- STORE_ACKNOWLEDGED (R56, R236): a store, an XADD or a fence goes on, to its acknowledgement. -/
def execStoreAcknowledged (id : Nat) (s : State) : Host.Outcome State Fault Refusal :=
  event_ s (
    match tget s.outs id with
    | none => none
    | some o => if fillsRegister o then none else outStep s id o fun s => dropOut (acquireL1 s o) id)

end Sys2Proof.Machine
end

