-- ==== Sys2Proof/Machine/Memory.lean ====
section
/-!
DEFINITION. Loads, stores, prefetch, escorts, the exact accumulator and FENCE (R234 to R241, R245 to R247).
-/

namespace Sys2Proof.Machine

/-! ### Addresses and checks -/

/-- The address a lane forms (R234). -/
def laneAddr (g : Group) (sb : Nat) (va : BitVec 8) (osc : BitVec 2) (l : Nat) : Word :=
  getS g sb + ((getV g va.toNat l).signExtend 64 <<< osc.toNat)

/-- The addresses of the active lanes. -/
def laneAddrs (g : Group) (lanes : List Nat) (sb : Nat) (va : BitVec 8) (osc : BitVec 2) : List (Nat × Word) :=
  lanes.map fun l => (l, laneAddr g sb va osc l)

/-- Every address is a multiple of the access size, else a misaligned trap at the lowest lane (R234, R235). -/
def checkAligned (n : Nat) (as : List (Nat × Word)) : Act Unit :=
  match as.find? fun x => x.2.toNat % n != 0 with
  | some x => trapLane 0x12 x.1 x.2
  | none => .ok ()

/-- The access record of a lane at a translated address. -/
def accAt (g : Group) (l : Nat) (va : Word) (pa mt : Nat) : LaneAcc :=
  { lane := l, laneNo := g.laneNo.getD l 0, va := va, pa := pa, mtype := mt }

/-- Translate the lanes in increasing order (R85, R235): a fault below every pending walk traps; otherwise pending
walks are waited for. -/
def translateLanes (g : Group) (ctx use : Nat) : List (Nat × Word) → List LaneAcc → Bool → State → Act (List LaneAcc)
  | [], acc, pend, s => if pend then holdHere s else .ok acc
  | (l, va) :: r, acc, pend, s =>
    match translate s g.core ctx va use with
    | .ok pa mt => translateLanes g ctx use r (acc ++ [accAt g l va pa mt]) pend s
    | .fault c => if pend then translateLanes g ctx use r acc pend s else trapLane c l va
    | .pending s' => translateLanes g ctx use r acc true s'

/-- Bits [63:57] of a virtual address are not all 0 (R82). -/
def highBits (va : Word) : Bool := va.extractLsb' 57 7 != 0#7

/-- The checks of global addresses (R82, R235). -/
def resolveGlobal (s : State) (g : Group) (use : Nat) (as : List (Nat × Word)) : Act (List LaneAcc) :=
  match as.find? fun x => highBits x.2 with
  | some x => trapLane 0x10 x.1 x.2
  | none => translateLanes g (ctxOf s g) use as [] false s

/-- The vault range of a context (R86). -/
def vaultOk (s : State) (ctx : Nat) (off : Word) (n : Nat) : Bool :=
  let r := (tgetD s.contexts ctx {}).vlt
  decide ((r.toNat % 256) * 0x200000 ≤ off.toNat) && decide (off.toNat + n ≤ (r.toNat / 256 % 256) * 0x200000) &&
  decide (off.toNat + n ≤ Config.vaultSize)

/-- The checks of vault offsets (R76). -/
def resolveVault (s : State) (g : Group) (n : Nat) (as : List (Nat × Word)) : Act (List LaneAcc) :=
  match as.find? fun x => !vaultOk s (ctxOf s g) x.2 n with
  | some x => trapLane 0x11 x.1 x.2
  | none => .ok (as.map fun x => accAt g x.1 x.2 (Config.vaultBase + x.2.toNat) 0)

/-- The checks of share offsets (R76). -/
def resolveShare (s : State) (g : Group) (n : Nat) (as : List (Nat × Word)) : Act (List LaneAcc) :=
  match as.find? fun x => decide (shareSize s g < x.2.toNat + n) with
  | some x => trapLane 0x11 x.1 x.2
  | none => .ok (as.map fun x => accAt g x.1 x.2 x.2.toNat 0)

/-- The checks of addresses by space: 0 global, 1 vault, 2 share. -/
def resolve (s : State) (g : Group) (space use n : Nat) (as : List (Nat × Word)) : Act (List LaneAcc) :=
  match space with
  | 0 => resolveGlobal s g use as
  | 1 => resolveVault s g n as
  | _ => resolveShare s g n as

/-- A debug register of a core by its offset (R367). -/
def debugReg (s : State) (core off : Nat) (reset : Word) : Word := tgetD (coreAt s core).debug off reset

/-- GEN, GRP, CEN and CTX of a breakpoint's or watchpoint's control word match a group (R368, R369). -/
def debugMatch (s : State) (g : Group) (c : Word) (gen cen : Nat) : Bool :=
  (!c.getLsbD gen || (c.extractLsb' 16 8).toNat == g.slot) &&
  (!c.getLsbD cen || (c.extractLsb' 8 6).toNat == ctxOf s g)

/-- Watchpoint k matches a lane's access (R369). -/
def watchLane (s : State) (g : Group) (k use n : Nat) (x : Nat × Word) : Bool :=
  let off := 0x100 + 0x20 * k
  let c := debugReg s g.core (off + 8) 0#64
  let len := (c.extractLsb' 4 4).toNat
  let lo := (debugReg s g.core off 0#64).toNat / 2 ^ len * 2 ^ len
  (if use = 0 then c.getLsbD 0 else if use = 1 then c.getLsbD 1 else c.getLsbD 0 || c.getLsbD 1) &&
  debugMatch s g c 2 3 && (debugReg s g.core (off + 0x10) (BitVec.allOnes 64)).getLsbD x.1 &&
  decide (x.2.toNat < lo + 2 ^ len) && decide (lo < x.2.toNat + n)

/-- The watchpoint check: after every other check, before any access (R369); use 0 read, 1 write, 2 both. -/
def checkWatch (s : State) (g : Group) (use n : Nat) (as : List (Nat × Word)) : Act Unit :=
  if hmode g || g.exempt.contains s.cur.entry then .ok ()
  else
    match as.find? fun x => (List.range 4).any fun k => watchLane s g k use n x with
    | some x => trapLane 0x31 x.1 x.2
    | none => .ok ()

/-- A vault access at system scope (R77); judged before the addresses (log 13). -/
def checkScope (space scope : Nat) : Act Unit := need (!(space == 1 && scope == 6)) 0x08

/-! ### Issuing -/

/-- The lane numbers in the team of a strand's lanes. -/
def laneNumbers (g : Group) (lanes : List Nat) : List Nat := lanes.map fun l => g.laneNo.getD l 0

/-- The access of the issuing strand, before its kind and operands are filled in. -/
def accessOf (s : State) (g : Group) (space scope ord size : Nat) (who : List Nat) (lanes : List LaneAcc) : Out :=
  { owner := g.owner, gid := s.cur.gid, entry := s.cur.entry, core := g.core, ctx := ctxOf s g,
    pc := (curStrand s).pc, space := space, scope := scope, ord := ord, size := size, who := laneNumbers g who,
    lanes := lanes }

/-- A team's external actions among memory instructions (R416): a release at cluster scope or wider, and atomics on
global or vault memory. -/
def externalMem (kind : OutKind) (space scope ord : Nat) : Bool :=
  (isRel ord && 3 ≤ actScope space scope) || (isAtomic kind && space != 2)

/-- The record a store folds (R419). -/
def storeRecord (n : Nat) (lanes : List LaneAcc) : List Byte :=
  lanes.flatMap fun a => wordBytes8 a.va ++ [BitVec.ofNat 8 n] ++ leBytes a.data.toNat n

/-- Poison among the data of a store or atomic sets PC and PW (R407). -/
def notePoison (s : State) (lanes : List LaneAcc) : State :=
  if lanes.any (·.poisoned) then wrotePoison (consumed s (curGroup s)) (curGroup s) else s

/-- A store leaves the strand: into the held-store buffer of a team launched with CHK = 1 (R414), else as an access.
The trailing copy only folds it (R439). -/
def issueStore (s : State) (o : Out) : Act State :=
  let g := curGroup s
  let done (s : State) : Act State := .ok (advance (foldRecord (notePoison s o.lanes) (storeRecord o.size o.lanes)))
  if isTrailing s g then
    done (if o.space = 2 then
      o.lanes.foldl (fun s a => lanePut s { o with kind := .store } a (leBytes a.data.toNat o.size)) s else s)
  else if chkOf s g && o.space != 2 then
    if externalMem .store o.space o.scope o.ord then do
      let s ← afterCheck .action s
      done (sendOut_ s { o with kind := .store }).2
    else if 256 ≤ (teamOf s g).held.length then forceCheck .fullBuffer s
    else
      done (modTeam s g fun t => { t with held := t.held ++
        [{ gid := s.cur.gid, core := g.core, space := o.space, scope := o.scope, size := o.size, lanes := o.lanes }] })
  else done (sendOut_ s { o with kind := .store }).2

/-- The registers of a run. -/
def runOf (r k : Nat) : List Nat := (List.range k).map (r + ·)

/-- Bytes of an access by its size code (R234). -/
def sizeBytes (z : BitVec 3) : Nat := 2 ^ z.toNat

/-- The data of a lane in a run of registers, the lowest address in the first (R234). -/
def runData (g : Group) (r k l : Nat) : BitVec 512 :=
  (List.range k).foldl (fun x i => x ||| ((getV g (r + i) l).setWidth 512 <<< (32 * i))) 0#512

/-- A lane of a run is poisoned. -/
def runPoison (g : Group) (r k l : Nat) : Bool := (List.range k).any fun i => poisonedV g (r + i) l

/-- A vector store (R236, R237). -/
def storeOp (space : Nat) (gn : BitVec 1) (gp : BitVec 3) (size : BitVec 3) (vd va : BitVec 8) (sb : BitVec 7)
    (scope : BitVec 3) (ord : BitVec 2) (fea fed : BitVec 1) (osc : BitVec 2) (s : State) : Act State := do
  let lanes := guardLanes (curGroup s) (curStrand s) gn gp
  let n := sizeBytes size
  let data := runOf vd.toNat (runRegs n)
  let s ← begin_ { sr := [src sb fea], vr := src va fea :: data.map (fun r => (r, bit1 fed)), steerS := [sb.toNat],
                   steerV := [va.toNat] } (some lanes) s
  if lanes.isEmpty then .ok (advance s)
  else do
    let g := curGroup s
    checkScope space scope.toNat
    let as := laneAddrs g lanes sb.toNat va osc
    checkAligned n as
    let accs ← resolve s g space 1 n as
    checkWatch s g 1 n as
    let accs := accs.map fun a =>
      { a with data := runData g vd.toNat (runRegs n) a.lane, poisoned := runPoison g vd.toNat (runRegs n) a.lane }
    issueStore s (accessOf s g space scope.toNat ord.toNat n lanes accs)

/-- Mark the destination of a seated access empty and send it (R236); the leading copy of a redundant team notes that
its record awaits the reply (R417). -/
def sendSeated (s : State) (o : Out) : State :=
  let g := curGroup s
  let g := if o.scalar then markS g o.reg false else (runOf o.reg o.nreg).foldl (fun g r => markV g r false) g
  let r := sendOut_ (setGroup s g) o
  if (teamOf s g).mate.isSome then { r.2 with obtained := some { kind := 1, out := r.1 } } else r.2

/-- The trailing copy takes a reply from the record (R417) and writes it at once; a coach that returned with a fault
left no values, and the destination stays. -/
def takeReply (s : State) (o : Out) : Act State := do
  let (v, s) ← outside 1 [] s
  let bad := ((headValue s s.cur.gid).getD {}).bad
  let s' :=
    if v.isEmpty then s
    else if o.scalar then writeScalar s o.reg (v.headD 0#64) (bad.contains 0)
    else (List.range o.nreg).foldl (fun s k =>
      writeLanes s (o.reg + k) ((List.range o.lanes.length).map fun i =>
        ((o.lanes.getD i {}).lane, (v.getD (i * o.nreg + k) 0#64).setWidth 32, bad.contains (i * o.nreg + k)))) s
  .ok s'

/-! ### Escorts -/

/-- Whose allowance a group's coaches are charged to: its team's, or a spawned group's own (R42, R43). -/
def sameAccount (g : Group) (gid : Nat) (o : Out) : Bool :=
  match g.owner with
  | .team t => o.owner == .team t
  | .spawned _ => o.gid == gid

/-- Carriages abroad among the accesses that satisfy a test (R42). -/
def abroadCount (s : State) (p : Out → Bool) : Nat :=
  s.outs.foldl (fun n o => match o.2.coach with
    | some c => if p o.2 then n + c.carriages else n
    | none => n) 0

/-- The lowest free coach tag of a core (R104). -/
def freeTag (s : State) (core : Nat) : Option Nat :=
  (List.range Config.tags).find? fun t => !(s.outs.any fun o => o.2.core == core &&
    (match o.2.coach with
     | some c => c.tag == t
     | none => false))

/-- Carriages of an escort of `count` registers at a width (R42). -/
def carriagesOf (count w : Nat) : Nat := (count * w * 4 + 63) / 64

/-- A refusal: the REF bit and the count (R42, R43, R99). -/
def refuseEscort (s : State) (gid : Nat) : State :=
  match tget s.groups gid with
  | none => s
  | some g =>
    let g := { g with ref := true, refusals := match g.owner with
      | .spawned _ => g.refusals + 1
      | .team _ => g.refusals }
    modTeam { s with groups := tset s.groups gid g } g fun t => { t with refusals := t.refusals + 1 }

/-- Send an access with its escort (R241): the tag and carriages are taken, the escort and destination registers
become empty, and a parked group leaves the file. The coach leaves the core once what comes before its access is performed
(R132). -/
def sendCoach (s : State) (o : Out) (base count tag : Nat) (park : Bool) : State :=
  let g := curGroup s
  let regs := runOf base count
  let payload := regs.foldl (fun t r => (List.range g.width).foldl (fun t l => tset t (laneKey r l) (getV g r l)) t) []
  let bad := regs.flatMap fun r => ((List.range g.width).filter (poisonedV g r)).map (laneKey r)
  let c : Coach :=
    { base := base, count := count, park := park, payload := payload, poison := bad, tag := tag,
      gen := tgetD (coreAt s o.core).tagGens tag 0, carriages := carriagesOf count g.width, anchor := anchorOf o }
  let s := sendSeated s { o with coach := some c }
  let g := regs.foldl (fun g r => markV g r false) (curGroup s)
  setGroup s { g with parked := g.parked || park }

/-- An escorted instruction of another strand of the core is at its address checks (R350). -/
def checkHeld (s : State) (g : Group) : Bool :=
  match (coreAt s g.core).checking with
  | none => false
  | some (gid, entry, pc) =>
    !(gid == s.cur.gid && entry == s.cur.entry) &&
    (match tget s.groups gid with
     | none => false
     | some h => h.core == g.core && !hmode h && (teamOf s h).phase != .saved &&
       (findEntry h.stack entry).any fun e => e.pc == pc && e.stall != 0)

/-- The address checks of an escorted instruction: while they wait, no later one of the core is charged or refused
(R350). -/
def escortChecks (effective : Bool) (s : State) (checks : Act (List LaneAcc)) : Act (List LaneAcc × State) :=
  let g := curGroup s
  let put (s : State) (x : Option (Nat × Nat × Word)) : State := modCore s g.core fun c => { c with checking := x }
  if !effective || isTrailing s g then checks.map fun l => (l, s)
  else if checkHeld s g then holdHere s
  else
    match checks with
    | .ok l => .ok (l, put s none)
    | .error (.wait s') => waitHere (put s' (some (s.cur.gid, s.cur.entry, (curStrand s).pc)))
    | .error e => .error e

/-- A redundant team's fold at the issue of an escorted access, and its landing record to come (R419, R443). -/
def foldEscort (s : State) (o : Out) (lanes : List Nat) (base count key : Nat) (landed : Bool) : State :=
  let g := curGroup s
  if (teamOf s g).mate.isNone then s
  else
    let g := { g with
      sig := foldBytes g.sig (escortRecord g 0xE0#8 lanes base count)
      folds := tset g.folds key
        { regs := runOf base count ++ runOf o.reg o.nreg, landed := landed,
          bytes := if landed then escortRecord g 0xE1#8 lanes base count else [] } }
    setGroup s g

/-- Send a load or atomic: escorted where the escort takes effect and is not refused, else seated (R94, R241). -/
def issueLoad (s : State) (o : Out) (lanes : List Nat) (effective : Bool) (base count : Nat) (pk : Bool) : Act State :=
  let g := curGroup s
  if isTrailing s g then do
    let s := if effective then foldEscort s o lanes base count s.nextId true else s
    let s := if effective then { s with nextId := s.nextId + 1 } else s
    let s' ← takeReply s o
    .ok (advance s')
  else
    let s := if effective then foldEscort s o lanes base count s.nextId false else s
    let n := carriagesOf count g.width
    if !effective then .ok (advance (sendSeated s o))
    else
      let esca := recField (launchOf s g).record 216 13
      match freeTag s g.core with
      | some tag =>
        if abroadCount s (sameAccount g s.cur.gid) + n ≤ esca &&
            abroadCount s (fun x => x.core == g.core) + n ≤ Config.coreAllowance then
          .ok (advance (sendCoach s o base count tag (pk && decide (g.stack.length = 1))))
        else .ok (advance (sendSeated (refuseEscort s s.cur.gid) o))
      | none => .ok (advance (sendSeated (refuseEscort s s.cur.gid) o))

/-- A vector load (R236, R237), with its escort fields (R240, R241). -/
def loadOp (space : Nat) (gn : BitVec 1) (gp : BitVec 3) (size : BitVec 3) (vd va : BitVec 8) (sb : BitVec 7)
    (scope : BitVec 3) (ord : BitVec 2) (fea : BitVec 1) (osc : BitVec 2) (hint : BitVec 3) (eb : BitVec 8)
    (ec : BitVec 4) (pk : BitVec 1) (s : State) : Act State := do
  let lanes := guardLanes (curGroup s) (curStrand s) gn gp
  let n := sizeBytes size
  let dst := runOf vd.toNat (runRegs n)
  let esc := runOf eb.toNat ec.toNat
  let s ← begin_ { sr := [src sb fea], vr := [src va fea], vw := dst ++ esc, steerS := [sb.toNat],
                   steerV := [va.toNat] } (some lanes) s
  if lanes.isEmpty then .ok (advance s)
  else do
    let g := curGroup s
    checkScope space scope.toNat
    let as := laneAddrs g lanes sb.toNat va osc
    checkAligned n as
    let effective := ec != 0#4 && !hmode g && space != 2
    let (accs, s) ← escortChecks effective s (resolve s g space 0 n as)
    checkWatch s g 0 n as
    dstFull [] (dst ++ if effective then esc else []) s
    let o := { accessOf s g space scope.toNat ord.toNat n lanes accs with
      kind := .load, reg := vd.toNat, nreg := runRegs n, noAlloc := hint == 2#3 }
    issueLoad s o lanes effective eb.toNat ec.toNat (bit1 pk)

/-- LD (R237, R240, R241). -/
def execLd (o : LdOp) (s : State) : Host.Outcome State Fault Refusal :=
  finish_ s (loadOp 0 o.gn o.gp o.size o.vd o.va o.sb o.scope o.ord o.fea o.osc o.hint o.eb o.ec o.pk s)

/-- ST (R237). -/
def execSt (o : StOp) (s : State) : Host.Outcome State Fault Refusal :=
  finish_ s (storeOp 0 o.gn o.gp o.size o.vd o.va o.sb o.scope o.ord o.fea o.fed o.osc s)

/-- LDS (R237). -/
def execLds (o : LdsOp) (s : State) : Host.Outcome State Fault Refusal :=
  finish_ s (loadOp 2 o.gn o.gp o.size o.vd o.va o.sb o.scope o.ord o.fea o.osc 0#3 0#8 0#4 0#1 s)

/-- STS (R237). -/
def execSts (o : StsOp) (s : State) : Host.Outcome State Fault Refusal :=
  finish_ s (storeOp 2 o.gn o.gp o.size o.vd o.va o.sb o.scope o.ord o.fea o.fed o.osc s)

/-- LDV (R237). -/
def execLdv (o : LdsOp) (s : State) : Host.Outcome State Fault Refusal :=
  finish_ s (loadOp 1 o.gn o.gp o.size o.vd o.va o.sb o.scope o.ord o.fea o.osc 0#3 0#8 0#4 0#1 s)

/-- STV (R237). -/
def execStv (o : StsOp) (s : State) : Host.Outcome State Fault Refusal :=
  finish_ s (storeOp 1 o.gn o.gp o.size o.vd o.va o.sb o.scope o.ord o.fea o.fed o.osc s)

/-- The address of the scalar form (R157, R238). -/
def scalarAddr (g : Group) (sb : Nat) (disp : BitVec 8) (osc : BitVec 2) : Word :=
  getS g sb + (disp.signExtend 64 <<< osc.toNat)

/-- The lanes of a strand for a strand-level access, lane 0 standing in where it has none. -/
def scalarWho (s : State) : List Nat := strandLanes (curGroup s) (curStrand s)

/-- An access of the issuing strand's lanes that orders nothing: what it stands for, an earlier access of a common thread
is found with. -/
def strandProbe (s : State) : Out :=
  { kind := .fence, owner := (curGroup s).owner, who := laneNumbers (curGroup s) (scalarWho s) }

/-- An earlier acquire of the strand's threads is not yet performed: what R122 to R126 order after an acquire waits. -/
def acqPending (s : State) : Bool := s.outs.any fun o => sameThread o.2 (strandProbe s) && isAcq o.2.ord

/-- The watchpoint view of a strand-level access: every active lane names its address (R369). -/
def scalarWatch (s : State) (a : Word) : List (Nat × Word) := (scalarWho s).map fun l => (l, a)

/-- SLD (R238). -/
def execSld (o : SldOp) (s : State) : Host.Outcome State Fault Refusal :=
  finish_ s (do
    let n := sizeBytes o.size
    let s ← begin_ { sr := [src o.sb o.fea], sw := [o.vd.toNat], steerS := [o.sb.toNat] } none s
    let g := curGroup s
    let a := scalarAddr g o.sb.toNat o.disp o.osc
    checkAligned n [(0, a)]
    let accs ← resolve s g 0 0 n [(0, a)]
    checkWatch s g 0 n (scalarWatch s a)
    dstFull [o.vd.toNat] [] s
    let x := { accessOf s g 0 o.scope.toNat o.ord.toNat n (scalarWho s) accs with
      kind := .load, scalar := true, reg := o.vd.toNat, hreg := hmode g && o.vd.toNat < 8 }
    issueLoad s x [] false 0 0 false)

/-- SST (R238). -/
def execSst (o : SstOp) (s : State) : Host.Outcome State Fault Refusal :=
  finish_ s (do
    let n := sizeBytes o.size
    let s ← begin_ { sr := [src o.sb o.fea, src o.vd o.fed], steerS := [o.sb.toNat] } none s
    let g := curGroup s
    let a := scalarAddr g o.sb.toNat o.disp o.osc
    checkAligned n [(0, a)]
    let accs ← resolve s g 0 1 n [(0, a)]
    checkWatch s g 1 n (scalarWatch s a)
    let accs := accs.map fun x =>
      { x with data := (getS g o.vd.toNat).setWidth 512, poisoned := poisonedS g o.vd.toNat }
    issueStore s { accessOf s g 0 o.scope.toNat o.ord.toNat n (scalarWho s) accs with scalar := true })

/-- One lane of a PREFETCH: dropped when misaligned, untranslatable or not cached (R239). -/
def prefetchLane (s : State) (g : Group) (noAlloc : Bool) (va : Word) : State :=
  match translateNow s (.core g.core) (ctxOf s g) va 0 with
  | .ok (pa, mt) =>
    let s := notePage s (.core g.core) (ctxOf s g) va 0
    if noAlloc || mt != 0 || isTrailing s g then s else l1Fill s g.core (pa / 128 * 128) 128
  | .error _ => s

/-- PREFETCH: the line of each active lane comes into the L1, clean (R239). -/
def execPrefetch (o : PrefetchOp) (s : State) : Host.Outcome State Fault Refusal :=
  finish_ s (do
    let lanes := guardLanes (curGroup s) (curStrand s) o.gn o.gp
    let s ← begin_ { sr := [src o.sb o.fea], vr := [src o.va o.fea], steerS := [o.sb.toNat], steerV := [o.va.toNat] }
      (some lanes) s
    let g := curGroup s
    .ok (advance ((laneAddrs g lanes o.sb.toNat o.va o.osc).foldl (fun s x => prefetchLane s g (o.hint == 2#3) x.2) s)))

/-- The record an atomic or XADD folds (R419): opcode, address and operands. -/
def atomicRecord (op n : Nat) (cas : Bool) (lanes : List LaneAcc) : List Byte :=
  lanes.flatMap fun a => BitVec.ofNat 8 op :: wordBytes8 a.va ++ leBytes a.data.toNat n ++
    (if cas then leBytes a.swap.toNat n else [])

/-- The alignment of XADD and XCVT (R245). -/
def checkAligned64 (as : List (Nat × Word)) : Act Unit := checkAligned 64 as

/-- XADD (R149, R245). -/
def execXadd (o : XaddOp) (s : State) : Host.Outcome State Fault Refusal :=
  finish_ s (do
    let lanes := guardLanes (curGroup s) (curStrand s) o.gn o.gp
    let s ← begin_ { sr := [src o.sb o.fea], vr := [src o.va o.fea, src o.vd o.fed], steerS := [o.sb.toNat],
                     steerV := [o.va.toNat] } (some lanes) s
    if lanes.isEmpty then .ok (advance s)
    else do
      let g := curGroup s
      let as := laneAddrs g lanes o.sb.toNat o.va o.osc
      checkAligned64 as
      let accs ← resolve s g 0 1 64 as
      checkWatch s g 2 64 as
      let accs := accs.map fun a =>
        { a with data := (getV g o.vd.toNat a.lane).setWidth 512, poisoned := poisonedV g o.vd.toNat a.lane }
      let s ← afterCheck .action s
      let s := foldRecord (notePoison s accs) (atomicRecord 0x69 4 false accs)
      if isTrailing s g then .ok (advance s)
      else
        .ok (advance (sendOut_ s { accessOf s g 0 o.scope.toNat o.ord.toNat 64 lanes accs with
          kind := .xadd, op := 0x69 }).2))

/-- XCVT (R149, R246). -/
def execXcvt (o : XcvtOp) (s : State) : Host.Outcome State Fault Refusal :=
  finish_ s (do
    let lanes := guardLanes (curGroup s) (curStrand s) o.gn o.gp
    let s ← begin_ { sr := [src o.sb o.fea], vr := [src o.va o.fea], vw := [o.vd.toNat], steerS := [o.sb.toNat],
                     steerV := [o.va.toNat] } (some lanes) s
    if lanes.isEmpty then .ok (advance s)
    else do
      let g := curGroup s
      let as := laneAddrs g lanes o.sb.toNat o.va o.osc
      checkAligned64 as
      let accs ← resolve s g 0 0 64 as
      checkWatch s g 0 64 as
      dstFull [] [o.vd.toNat] s
      let s ← afterCheck .action s
      let s := foldRecord s (0x6A#8 :: wordBytes8 (getS g o.sb.toNat))
      issueLoad s { accessOf s g 0 o.scope.toNat o.ord.toNat 64 lanes accs with
        kind := .xcvt, op := 0x6A, reg := o.vd.toNat } lanes false 0 0 false)

/-- FENCE (R247): an access without bytes that its orderings wait on. -/
def execFence (o : FenceOp) (s : State) : Host.Outcome State Fault Refusal :=
  finish_ s (do
    let g := curGroup s
    let s ← (if externalMem .fence 0 o.scope.toNat o.ord.toNat then afterCheck .action s else .ok s)
    let s := if externalMem .fence 0 o.scope.toNat o.ord.toNat then foldRecord s [0xDC#8] else s
    if isTrailing s g then .ok (advance s)
    else
      .ok (advance (sendOut_ s { accessOf s g 0 o.scope.toNat o.ord.toNat 0 (scalarWho s) [] with kind := .fence }).2))

end Sys2Proof.Machine
end

