-- ==== Sys2Proof/Machine/Atomic.lean ====
section
/-!
DEFINITION. The atomics (R242 to R244).
-/

namespace Sys2Proof.Machine

/-- The escort fields of an atomic take effect: vault addresses, and global addresses at die scope or wider (R94). -/
def atomEscorts (space scope : Nat) : Bool := space == 1 || (space == 0 && 4 ≤ scope)

/-- An atomic by its opcode (R242 to R244). -/
def atomOp (op : Nat) (o : AtomOp) (s : State) : Act State := do
  let lanes := guardLanes (curGroup s) (curStrand s) o.gn o.gp
  let n := sizeBytes o.size
  let k := runRegs n
  let cas := op == 0x7A
  let dst := runOf o.vd.toNat k
  let data := runOf o.vd.toNat (if cas then 2 * k else k)
  let esc := runOf o.eb.toNat o.ec.toNat
  let space := o.space.toNat
  let s ← begin_ { sr := [src o.sb o.fea], vr := src o.va o.fea :: data.map (fun r => (r, bit1 o.fed)),
                   vw := dst ++ esc, steerS := [o.sb.toNat], steerV := [o.va.toNat] } (some lanes) s
  if lanes.isEmpty then .ok (advance s)
  else do
    let g := curGroup s
    checkScope space o.scope.toNat
    let as := laneAddrs g lanes o.sb.toNat o.va o.osc
    checkAligned n as
    let effective := o.ec != 0#4 && !hmode g && atomEscorts space o.scope.toNat
    let (accs, s) ← escortChecks effective s (resolve s g space 1 n as)
    checkWatch s g 2 n as
    dstFull [] (if effective then esc else []) s
    let accs := accs.map fun a =>
      { a with data := runData g o.vd.toNat k a.lane
               swap := (runData g (o.vd.toNat + k) k a.lane).setWidth 64
               poisoned := runPoison g o.vd.toNat (if cas then 2 * k else k) a.lane }
    let s ← (if space != 2 then afterCheck .action s else .ok s)
    let s := foldRecord (notePoison s accs) (atomicRecord op n cas accs)
    let x := { accessOf s g space o.scope.toNat o.ord.toNat n lanes accs with
      kind := .atomic, op := op, reg := o.vd.toNat, nreg := k }
    issueLoad s x lanes effective o.eb.toNat o.ec.toNat (bit1 o.pk)

/-- ATOM.add: add (R243). -/
def execAtomAdd (o : AtomOp) (s : State) : Host.Outcome State Fault Refusal := finish_ s (atomOp 0x70 o s)

/-- ATOM.sub: subtract (R243). -/
def execAtomSub (o : AtomOp) (s : State) : Host.Outcome State Fault Refusal := finish_ s (atomOp 0x71 o s)

/-- ATOM.min: signed minimum (R243). -/
def execAtomMin (o : AtomOp) (s : State) : Host.Outcome State Fault Refusal := finish_ s (atomOp 0x72 o s)

/-- ATOM.minu: unsigned minimum (R243). -/
def execAtomMinu (o : AtomOp) (s : State) : Host.Outcome State Fault Refusal := finish_ s (atomOp 0x73 o s)

/-- ATOM.max: signed maximum (R243). -/
def execAtomMax (o : AtomOp) (s : State) : Host.Outcome State Fault Refusal := finish_ s (atomOp 0x74 o s)

/-- ATOM.maxu: unsigned maximum (R243). -/
def execAtomMaxu (o : AtomOp) (s : State) : Host.Outcome State Fault Refusal := finish_ s (atomOp 0x75 o s)

/-- ATOM.and: AND (R243). -/
def execAtomAnd (o : AtomOp) (s : State) : Host.Outcome State Fault Refusal := finish_ s (atomOp 0x76 o s)

/-- ATOM.or: OR (R243). -/
def execAtomOr (o : AtomOp) (s : State) : Host.Outcome State Fault Refusal := finish_ s (atomOp 0x77 o s)

/-- ATOM.xor: XOR (R243). -/
def execAtomXor (o : AtomOp) (s : State) : Host.Outcome State Fault Refusal := finish_ s (atomOp 0x78 o s)

/-- ATOM.exch: exchange (R243). -/
def execAtomExch (o : AtomOp) (s : State) : Host.Outcome State Fault Refusal := finish_ s (atomOp 0x79 o s)

/-- ATOM.cas: compare and swap (R243). -/
def execAtomCas (o : AtomOp) (s : State) : Host.Outcome State Fault Refusal := finish_ s (atomOp 0x7A o s)

/-- ATOM.inc: increment up to a bound (R243). -/
def execAtomInc (o : AtomOp) (s : State) : Host.Outcome State Fault Refusal := finish_ s (atomOp 0x7B o s)

/-- ATOM.dec: decrement from a bound (R243). -/
def execAtomDec (o : AtomOp) (s : State) : Host.Outcome State Fault Refusal := finish_ s (atomOp 0x7C o s)

/-- ATOM.fadd: FP32 add (R243). -/
def execAtomFadd (o : AtomOp) (s : State) : Host.Outcome State Fault Refusal := finish_ s (atomOp 0x7D o s)

/-- ATOM.fmin: FP32 minimum (R243). -/
def execAtomFmin (o : AtomOp) (s : State) : Host.Outcome State Fault Refusal := finish_ s (atomOp 0x7E o s)

/-- ATOM.fmax: FP32 maximum (R243). -/
def execAtomFmax (o : AtomOp) (s : State) : Host.Outcome State Fault Refusal := finish_ s (atomOp 0x7F o s)

end Sys2Proof.Machine
end

