-- ==== Sys2Proof/Machine/Tile.lean ====
section
/-!
DEFINITION. Tiles (R88 to R90, R248 to R252, R273), fill-barrier arrivals (R92) and the copies of TLOAD and TSTORE.
-/

namespace Sys2Proof.Machine

/-! ### Entries of the tile table -/

/-- STATE of a tile entry: 0 empty, 1 filling, 2 ready, 3 draining (R88). -/
def tState (e : BitVec 128) : Nat := (e.extractLsb' 0 2).toNat
/-- DEF of a tile entry. -/
def tDef (e : BitVec 128) : Bool := e.getLsbD 2
/-- ESIZE of a tile entry. -/
def tEsize (e : BitVec 128) : Nat := (e.extractLsb' 8 2).toNat
/-- Bytes of an element. -/
def tBytes (e : BitVec 128) : Nat := 2 ^ tEsize e
/-- Base offset in the share. -/
def tBase (e : BitVec 128) : Nat := 64 * (e.extractLsb' 16 12).toNat
/-- Rows of a tile. -/
def tRows (e : BitVec 128) : Nat := (e.extractLsb' 32 11).toNat + 1
/-- Columns of a tile. -/
def tCols (e : BitVec 128) : Nat := (e.extractLsb' 48 11).toNat + 1
/-- Offset of the tile's fill barrier. -/
def tBar (e : BitVec 128) : Nat := 8 * (e.extractLsb' 64 15).toNat
/-- Bytes of a row of elements. -/
def tRowBytes (e : BitVec 128) : Nat := tCols e * tBytes e
/-- The row stride (R88). -/
def tStride (e : BitVec 128) : Nat := (tRowBytes e + 15) / 16 * 16
/-- The end of the tile in the share. -/
def tEnd (e : BitVec 128) : Nat := tBase e + tRows e * tStride e
/-- The offset of element (i, j) (R88). -/
def tElem (e : BitVec 128) (i j : Nat) : Nat := tBase e + i * tStride e + j * tBytes e
/-- Bytes of all elements. -/
def tSize (e : BitVec 128) : Nat := tRows e * tRowBytes e
/-- A tile entry in another state. -/
def withState (e : BitVec 128) (st : Nat) : BitVec 128 := (e &&& ~~~3#128) ||| BitVec.ofNat 128 (st % 4)

/-- Tile n of a team. -/
def tileAt (t : Team) (n : Nat) : BitVec 128 := tgetD t.tiles n 0#128

/-- Replace tile n of a team. -/
def putTile (s : State) (t n : Nat) (e : BitVec 128) : State :=
  { s with teams := tmod s.teams t fun x => { x with tiles := tset x.tiles n e } }

/-- Set the state of tile n of a team. -/
def setTile (s : State) (t n st : Nat) : State :=
  { s with teams := tmod s.teams t fun x => { x with tiles := tset x.tiles n (withState (tileAt x n) st) } }

/-- Written states of a tile that a handler still holds are forgotten: the last byte of a fill, drain or TSTORE sets the
tile's state, whatever was written (R289). -/
def forgetWritten (s : State) (t n : Nat) : State :=
  { s with groups := s.groups.map fun x =>
      if x.2.owner = .team t then
        (x.1, { x.2 with handler := x.2.handler.map fun h => { h with tileStates := terase h.tileStates n } })
      else x }

/-- The last byte of a fill, drain or TSTORE sets the state of tile n (R89, R289). -/
def endTile (s : State) (t n st : Nat) : State := setTile (forgetWritten s t n) t n st

/-- An instruction may name the tile: it is defined, its element size exists and it lies in the share (R88, R289). -/
def tileUsable (share : Nat) (e : BitVec 128) : Bool := tDef e && decide (tEsize e < 3) && decide (tEnd e ≤ share)

/-- An MLDW or MSTREAM that has not finished names the tile (R273). -/
def tileHeld (s : State) (t n : Nat) : Bool :=
  s.cores.any fun c => c.2.mxQueue.any fun o =>
    o.2.team == t && o.2.tile == n && (o.2.kind == .mldw || o.2.kind == .mstream)

/-- A fill or drain may start on the tile: the cells of R89 that do not wait, and R273. -/
def mayFill (s : State) (t n : Nat) : Bool :=
  let st := tState (tileAt (tgetD s.teams t {}) n)
  (st == 0 || st == 2) && !tileHeld s t n

/-- An access of the issuing group to these bytes of a space is not yet performed (R127, R131). -/
def ownAccess (s : State) (space : Nat) (segs : List (Nat × Nat)) : Bool :=
  s.outs.any fun o => o.2.gid == s.cur.gid && o.2.space == space && o.2.lanes.any fun a =>
    segs.any fun x => decide (a.pa < x.1 + x.2) && decide (x.1 < a.pa + o.2.size)

/-! ### Fill barriers -/

/-- EXP of a fill barrier (R91). -/
def barExp (b : Word) : Nat := (b.extractLsb' 0 31).toNat
/-- ARR of a fill barrier. -/
def barArr (b : Word) : Nat := (b.extractLsb' 32 31).toNat
/-- PH of a fill barrier. -/
def barPhase (b : Word) : Bool := b.getLsbD 63
/-- A fill barrier from its fields; bit 31 stays as it is. -/
def barWord (old : Word) (ph : Bool) (arr exp : Nat) : Word :=
  BitVec.ofNat 64 exp ||| (old &&& 0x80000000#64) ||| (BitVec.ofNat 64 arr <<< 32) |||
    (if ph then 0x8000000000000000#64 else 0#64)

/-- Judge a barrier once: when EXP > 0 and ARR ≥ EXP, ARR falls by EXP and PH flips (R92). -/
def barJudge (b : Word) (arr exp : Nat) : Word :=
  if 0 < exp && decide (exp ≤ arr) then barWord b (!barPhase b) (arr - exp) exp else barWord b (barPhase b) arr exp

/-- A barrier after an arrival of n bytes (R92). -/
def barAfter (b : Word) (n : Nat) : Word := barJudge b (min (barArr b + n) 0x7FFFFFFF) (barExp b)

/-- A 64-bit word of a team's share. -/
def shareWord (s : State) (t off : Nat) : Word := mword (tgetD s.teams t {}).share off

/-- Write a 64-bit word of a team's share. -/
def putShareWord (s : State) (t off : Nat) (w : Word) : State := sharePut s t off (wordBytes8 w) false

/-- An arrival of n bytes at a fill barrier of a team's share; `member` where it is that of a post that ends with
status 1 (R92, R431). -/
def barrierArrive (s : State) (t off n : Nat) (member : Bool) : State :=
  let b := shareWord s t off
  let b' := barAfter b n
  let s := putShareWord s t off b'
  if barPhase b' = barPhase b then s
  else { s with teams := tmod s.teams t fun x =>
    { x with mflips := if member then sadd1 x.mflips off else sdel1 x.mflips off } }

/-! ### Translation for engines -/

/-- Translate pieces of virtual memory, none of which crosses a 4 KiB boundary, for the copy engine of a core: a TLB entry
or a walk, which the TLBs keep; a fault is reported as an access's is (R85, R235). -/
def translatePieces (g : Group) (use : Nat) : List (Word × Nat) → State → Act (List (Nat × Nat) × State)
  | [], s => .ok ([], s)
  | (va, n) :: r, s =>
    if highBits va then trapLane 0x10 0 va
    else
      let ctx := ctxOf s g
      let next (pa : Nat) (s : State) : Act (List (Nat × Nat) × State) := do
        let (rest, s) ← translatePieces g use r s
        .ok ((pa, n) :: rest, s)
      match translateNow s (.core g.core) ctx va use with
      | .ok (pa, _) => next pa (notePage s (.core g.core) ctx va use)
      | .error _ =>
        match translate s g.core ctx va use with
        | .ok pa _ => next pa s
        | .fault c => trapLane c 0 va
        | .pending s' => holdHere s'

/-- The rows of a region of virtual memory, cut at page boundaries. -/
def regionPieces (base stride : Word) (rows n : Nat) : List (Word × Nat) :=
  (List.range rows).flatMap fun r =>
    (cutAt 4096 (base + BitVec.ofNat 64 r * stride).toNat n).map fun x => (BitVec.ofNat 64 x.1, x.2)

/-- Bytes of pieces of memory, with their poison, as a copy engine of a team sees them: the stores noted from `since` on
less the unseen ones (R128), and the team's held stores (R414). -/
def segBytes (s : State) (t since : Nat) (unseen : Nat → Bool) (segs : List (Nat × Nat)) : List (Byte × Bool) :=
  let o : Out := { owner := .team t }
  segs.flatMap fun x =>
    let l := engineBytes s none since unseen x.1 x.2
    (List.range x.2).map fun k =>
      match heldByte s o (x.1 + k) with
      | some b => (b, false)
      | none => l.getD k (0#8, false)

/-- Bytes with their poison as the load-value queue holds them (R417). -/
def byteVals (l : List (Byte × Bool)) : List Word := l.map fun x => x.1.setWidth 64
/-- The poisoned ones. -/
def byteBad (l : List (Byte × Bool)) : List Nat := (List.range l.length).filter fun i => (l.getD i (0#8, false)).2

/-- Write bytes with poison into a share at an 8-aligned offset, granule by granule. -/
def shareWrite (s : State) (t : Nat) : Nat → List (Byte × Bool) → Nat → State
  | 0, _, _ => s
  | fuel + 1, l, a =>
    if l.isEmpty then s
    else
      let c := l.take 8
      shareWrite (sharePut s t a (c.map (·.1)) (c.any (·.2))) t fuel (l.drop 8) (a + 8)

/-- Row i of a tile from the source bytes of a TLOAD (R249). -/
def tloadRow (e : BitVec 128) (trans : Bool) (src : List (Byte × Bool)) (i : Nat) : List (Byte × Bool) :=
  let b := tBytes e
  if trans then (List.range (tCols e)).flatMap fun j => (src.drop (j * tRows e * b + i * b)).take b
  else (src.drop (i * tRowBytes e)).take (tRowBytes e)

/-- Deliver a TLOAD's bytes: the rows, then the arrival at the fill barrier, then the tile is ready (R90). -/
def deliverTile (s : State) (t n : Nat) (trans : Bool) (src : List (Byte × Bool)) : State :=
  let e := tileAt (tgetD s.teams t {}) n
  let s := (List.range (tRows e)).foldl (fun s i =>
    let row := tloadRow e trans src i
    shareWrite s t row.length row (tElem e i 0)) s
  let s := if tBar e + 8 ≤ 2048 * recField (tgetD s.launches (tgetD s.teams t {}).launch {}).record 208 8
    then barrierArrive s t (tBar e) (tSize e) false else s
  endTile s t n 2

/-! ### Instructions -/

/-- The shape that TDEF writes into an entry (R248). -/
def tdefEntry (base shape bar : Word) : BitVec 128 :=
  4#128 ||| ((shape.extractLsb' 32 2).setWidth 128 <<< 8) ||| ((base.extractLsb' 6 12).setWidth 128 <<< 16) |||
  ((shape.extractLsb' 0 11).setWidth 128 <<< 32) ||| ((shape.extractLsb' 16 11).setWidth 128 <<< 48) |||
  ((bar.extractLsb' 3 15).setWidth 128 <<< 64)

/-- The operands of TDEF are in order (R248). -/
def tdefOk (share : Nat) (base shape bar : Word) : Bool :=
  base.toNat % 64 == 0 && bar.toNat % 8 == 0 && shape &&& ~~~0x307FF07FF#64 == 0#64 &&
  decide (base.toNat < 64 * 4096) && decide (bar.toNat + 8 ≤ share) && decide ((shape.extractLsb' 32 2).toNat < 3) &&
  decide (tEnd (tdefEntry base shape bar) ≤ share)

/-- TDEF (R248). -/
def execTdef (o : TdefOp) (s : State) : Host.Outcome State Fault Refusal :=
  finish_ s (do
    let rs := [o.sa.toNat, o.sb.toNat, o.sd.toNat]
    let s ← begin_ { sr := [src o.sa o.fa, src o.sb o.fb, (o.sd.toNat, false)], steerS := rs } none s
    let g := curGroup s
    let n := o.t.toNat
    let base := getS g o.sa.toNat
    let shape := getS g o.sb.toNat
    let bar := getS g o.sd.toNat
    need (tdefOk (shareSize s g) base shape bar) 0x0A
    let t := (teamKey g).getD 0
    let old := tileAt (teamOf s g) n
    need (!(tDef old && tState old != 0) && !tileHeld s t n) 0x0A
    .ok (advance (putTile s t n (tdefEntry base shape bar))))

/-- s(sa) and s(sb) are multiples of the element size, else a misaligned trap (R249). -/
def checkRegion (b : Nat) (base stride : Word) : Act Unit := do
  checkAligned b [(0, base)]
  if stride.toNat % b = 0 then .ok () else trapLane 0x12 0 (base + stride)

/-- TLOAD (R249). -/
def execTload (o : TloadOp) (s : State) : Host.Outcome State Fault Refusal :=
  finish_ s (do
    let s ← begin_ { sr := [src o.sa o.fa, src o.sb o.fb], steerS := [o.sa.toNat, o.sb.toNat] } none s
    let g := curGroup s
    let n := o.t.toNat
    let t := (teamKey g).getD 0
    let e := tileAt (teamOf s g) n
    need (tileUsable (shareSize s g) e) 0x0A
    need (o.tr == 0#2 || tEsize e + 1 == o.tr.toNat) 0x0A
    until_ (mayFill s t n) s
    let base := getS g o.sa.toNat
    let stride := getS g o.sb.toNat
    checkRegion (tBytes e) base stride
    let trans := o.tr != 0#2
    holdUntil (!ownAccess s 2 [(tBase e, tEnd e - tBase e), (tBar e, 8)] && !acqPending s) s
    if isTrailing s g then do
      let (v, s) ← outside 7 [] s
      let bad := ((headValue s s.cur.gid).getD {}).bad
      let bytes := (List.range v.length).map fun i => ((v.getD i 0#64).setWidth 8, bad.contains i)
      .ok (advance (deliverTile s t n trans bytes))
    else do
      let (segs, s) ← translatePieces g 0
        (if trans then regionPieces base stride (tCols e) (tRows e * tBytes e)
         else regionPieces base stride (tRows e) (tRowBytes e)) s
      holdUntil (!ownAccess s 0 segs) s
      let hits (sec : Nat) : Bool := segs.any fun x => (sectorsOf x.1 x.2).contains sec
      holdUntil (pendingWb s g.core hits).isEmpty (askWriteBack s g.core hits)
      let (id, s) := freshId s
      let c : Copy := { load := true, team := t, gid := s.cur.gid, core := g.core, ctx := ctxOf s g, tile := n,
                        trans := trans, segs := segs, since := s.notes.length }
      let s := setTile { s with copies := tset s.copies id c } t n 1
      let s := if (teamOf s g).mate.isSome then { s with obtained := some { kind := 7, out := id } } else s
      .ok (advance s))

/-- TSTORE (R250). -/
def execTstore (o : TstoreOp) (s : State) : Host.Outcome State Fault Refusal :=
  finish_ s (do
    let s ← begin_ { sr := [src o.sa o.fa, src o.sb o.fb], steerS := [o.sa.toNat, o.sb.toNat] } none s
    let g := curGroup s
    let n := o.t.toNat
    let t := (teamKey g).getD 0
    let e := tileAt (teamOf s g) n
    need (tileUsable (shareSize s g) e) 0x0A
    until_ (tState e == 2 && !tileHeld s t n) s
    let base := getS g o.sa.toNat
    let stride := getS g o.sb.toNat
    checkRegion (tBytes e) base stride
    let record := 0xCA#8 :: wordBytes8 base ++ wordBytes8 stride
    holdUntil (!ownAccess s 2 [(tBase e, tEnd e - tBase e)] && !acqPending s) s
    if isTrailing s g then .ok (advance (foldRecord s record))
    else do
      let (segs, s) ← translatePieces g 1 (regionPieces base stride (tRows e) (tRowBytes e)) s
      holdUntil (!ownAccess s 0 segs) s
      let hits (sec : Nat) : Bool := segs.any fun x => (sectorsOf x.1 x.2).contains sec
      holdUntil (pendingWb s g.core hits).isEmpty (askWriteBack s g.core hits)
      let s ← afterCheck .action s
      let (id, s) := freshId s
      let c : Copy := { load := false, team := t, gid := s.cur.gid, core := g.core, ctx := ctxOf s g, tile := n,
                        segs := segs, since := s.notes.length }
      .ok (advance (foldRecord (setTile { s with copies := tset s.copies id c } t n 3) record)))

/-- TREL (R251). -/
def execTrel (o : TileOp) (s : State) : Host.Outcome State Fault Refusal :=
  finish_ s (do
    let g := curGroup s
    let n := o.t.toNat
    let t := (teamKey g).getD 0
    let e := tileAt (teamOf s g) n
    need (tileUsable (shareSize s g) e) 0x0A
    until_ (tState e % 2 == 0 && !tileHeld s t n) s
    .ok (advance (setTile s t n 0)))

/-- TSTAT (R251). -/
def execTstat (o : TstatOp) (s : State) : Host.Outcome State Fault Refusal :=
  finish_ s (do
    let s ← begin_ { sw := [o.sd.toNat] } none s
    let g := curGroup s
    let e := tileAt (teamOf s g) o.t.toNat
    need (tileUsable (shareSize s g) e) 0x0A
    dstFull [o.sd.toNat] [] s
    let (v, s) ← outside 4 [BitVec.ofNat 64 (4 + tState e)] s
    .ok (advance (writeScalar s o.sd.toNat (v.headD 0#64) false)))

/-! ### The end of a copy -/

/-- A team's copies and deliveries go on: it is not being saved (R252). -/
def copiesRun (s : State) (t : Nat) : Bool :=
  match tget s.teams t with
  | some x => x.phase == .resident || x.phase == .stopping
  | none => false

/-- Free bits for the stores noted from `since` on: which of them an engine does not see (R128). -/
def takeFates : Nat → Nat → State → Tab Bool × State
  | 0, _, s => ([], s)
  | n + 1, since, s =>
    let (b, s) := takeBit s
    let (t, s) := takeFates n (since + 1) s
    ((since, b) :: t, s)

/-- Drop a running copy; an invalidation no longer awaits it. -/
def dropCopy (s : State) (id : Nat) : State :=
  { s with
    copies := terase s.copies id
    contexts := s.contexts.map fun c => (c.1, { c.2 with running := c.2.running.map fun r =>
      { r with outs := sdel1 r.outs id } }) }

/-- The bytes of a copy in the order of its source or its rows: those copied before a pause, and the others as the engine
sees them now. -/
def copyBytes (s : State) (c : Copy) (unseen : Nat → Bool) : List (Byte × Bool) :=
  let e := tileAt (tgetD s.teams c.team {}) c.tile
  let now := if c.load then segBytes s c.team c.since unseen c.segs
    else (List.range (tRows e)).flatMap fun i => engineBytes s (some c.team) c.since unseen (tElem e i 0) (tRowBytes e)
  c.first ++ now.drop c.first.length

/-- Write bytes with poison to memory at pieces, granule by granule. -/
def segWrite (s : State) : List (Nat × Nat) → List (Byte × Bool) → State
  | [], _ => s
  | (a, n) :: r, l =>
    let b := l.take n
    segWrite (if b.isEmpty then s else memPut s a (b.map (·.1)) (b.any (·.2))) r (l.drop n)

/-- The pieces that remain after n bytes of pieces. -/
def dropSegs : List (Nat × Nat) → Nat → List (Nat × Nat)
  | [], _ => []
  | (a, n) :: r, k => if n ≤ k then dropSegs r (k - n) else (a + k, n - k) :: r

/-- Write the rows of a TSTORE from byte lo of its payload on, as far as the bytes go; the core's copies of the lines go. -/
def storeRows (s : State) (c : Copy) (lo : Nat) (l : List (Byte × Bool)) : State :=
  let s := segWrite s ((dropSegs c.segs lo).flatMap fun x => cutAt 8 x.1 x.2) (l.drop lo)
  dropCleanIf s c.core fun k => c.segs.any fun x => (linesOf x.1 x.2).contains k

/-- Write the elements of a tile whose source bytes a TLOAD has copied. -/
def loadElements (s : State) (c : Copy) (l : List (Byte × Bool)) : State :=
  let e := tileAt (tgetD s.teams c.team {}) c.tile
  let b := tBytes e
  (List.range (tRows e * tCols e)).foldl (fun s q =>
    let i := q / tCols e
    let j := q % tCols e
    let k := if c.trans then (j * tRows e + i) * b else i * tRowBytes e + j * b
    let x := (l.drop k).take b
    if x.length = b then sharePut s c.team (tElem e i j) (x.map (·.1)) (x.any (·.2)) else s) s

/-- A copy in progress pauses for a save at a 2 KiB boundary of copied bytes, which one is not known (R252). -/
def pauseCopy (s : State) (id : Nat) : State :=
  match tget s.copies id with
  | none => s
  | some c =>
    let (fates, s) := takeFates (s.notes.length - c.since) c.since s
    let l := copyBytes s c fun k => tgetD fates k false
    let (k, s) := pickFree ((List.range (l.length / 2048 + 1)).drop (c.first.length / 2048)) s
    let got := l.take (max c.first.length (2048 * k))
    let s := if c.load then loadElements s c got else storeRows s c c.first.length got
    { s with copies := tset s.copies id { c with first := got } }

/-- TLOAD_COPY_DONE (R90, R128): of the stores noted since its issue it does not see those whose bit is set in `early`. -/
def execTloadCopyDone (id early : Nat) (s : State) : Host.Outcome State Fault Refusal :=
  event_ s (
    match tget s.copies id with
    | none => none
    | some c =>
      if !c.load || !copiesRun s c.team then none
      else
        let bytes := copyBytes s c fun k => early.testBit (k - c.since)
        let s := fillValue s id (byteVals bytes) (byteBad bytes)
        some (dropCopy (deliverTile s c.team c.tile c.trans bytes) id))

/-- TSTORE_DONE: the rows, as the engine sees them in the share (R128), are performed in order, the core's copies of the
lines go, and the tile is ready (R250). -/
def execTstoreDone (id : Nat) (s : State) : Host.Outcome State Fault Refusal :=
  event_ s (
    match tget s.copies id with
    | none => none
    | some c =>
      if c.load || !copiesRun s c.team then none
      else
        let (fates, s) := takeFates (s.notes.length - c.since) c.since s
        let bytes := copyBytes s c fun k => tgetD fates k false
        let s := storeRows s c c.first.length bytes
        let g : Group := { owner := .team c.team }
        let s := if bytes.any (·.2) then wrotePoison (consumed s g) g else s
        some (dropCopy (endTile s c.team c.tile 2) id))

end Sys2Proof.Machine
end

