-- ==== Sys2Proof/Machine/Sync.lean ====
section
/-!
DEFINITION. Fill-barrier instructions (R91, R92, R253) and rendezvous points (R33 to R37, R45, R254).
-/

namespace Sys2Proof.Machine

/-! ### Fill barriers -/

/-- The offset of a fill barrier, checked (R253). -/
def barrierOffset (s : State) (off : Word) : Act Nat := do
  checkAligned 8 [(0, off)]
  if shareSize s (curGroup s) < off.toNat + 8 then trapLane 0x11 0 off else .ok off.toNat

/-- The fill barrier at an offset no longer reports a membership change (R431). -/
def clearFlip (s : State) (off : Nat) : State :=
  modTeam s (curGroup s) fun t => { t with mflips := sdel1 t.mflips off }

/-- FINIT (R253). -/
def execFinit (o : SaSbOp) (s : State) : Host.Outcome State Fault Refusal :=
  finish_ s (do
    let s ← begin_ { sr := [src o.sa o.fa, src o.sb o.fb], steerS := [o.sa.toNat, o.sb.toNat] } none s
    let g := curGroup s
    let off ← barrierOffset s (getS g o.sa.toNat)
    let n := (getS g o.sb.toNat).toNat
    need (decide (n ≤ 0x7FFFFFFF)) 0x0A
    holdUntil (!ownAccess s 2 [(off, 8)]) s
    let t := (teamKey g).getD 0
    .ok (advance (clearFlip (putShareWord s t off (barWord (shareWord s t off) false 0 n)) off)))

/-- FEXPECT (R253). -/
def execFexpect (o : SaSbOp) (s : State) : Host.Outcome State Fault Refusal :=
  finish_ s (do
    let s ← begin_ { sr := [src o.sa o.fa, src o.sb o.fb], steerS := [o.sa.toNat, o.sb.toNat] } none s
    let g := curGroup s
    let off ← barrierOffset s (getS g o.sa.toNat)
    let n := (getS g o.sb.toNat).toNat
    need (decide (n ≤ 0x7FFFFFFF)) 0x0A
    holdUntil (!ownAccess s 2 [(off, 8)]) s
    let t := (teamKey g).getD 0
    let b := shareWord s t off
    need (decide (barExp b + n ≤ 0x7FFFFFFF)) 0x0A
    let b' := barJudge b (barArr b) (barExp b + n)
    let s := putShareWord s t off b'
    .ok (advance (if barPhase b' != barPhase b then clearFlip s off else s)))

/-- A membership-change trap made pending on the strand, which stands after its wait, unless it is masked (R431). -/
def memberTrap (s : State) (changed : Bool) : State :=
  let g := curGroup s
  if changed && !g.mcmask && !hmode g then pendTrap s s.cur.gid s.cur.entry { code := 0x20#8 } else s

/-- FWAIT (R253): it ends when PH differs from the named phase. The core's clean lines go, so that no copy of the bytes
it acquires is older than they are (R129). -/
def execFwait (o : FwaitOp) (s : State) : Host.Outcome State Fault Refusal :=
  finish_ s (do
    let reg := o.reg == 1#1
    let s ← begin_ { sr := src o.sa o.fa :: (if reg then [src o.sb o.fb] else []), steerS := [o.sa.toNat] } none s
    let g := curGroup s
    let off ← barrierOffset s (getS g o.sa.toNat)
    let v := getS g o.sb.toNat
    need (!reg || v &&& ~~~1#64 == 0#64) 0x0A
    let ph := if reg then v.getLsbD 0 else o.ph == 1#1
    let t := teamOf s g
    until_ (isTrailing s g || (!ownAccess s 2 [(off, 8)] && barPhase (mword t.share off) != ph)) s
    holdUntil (!acqPending s) s
    let (c, s) ← outside 8 [if t.mflips.contains off then 1#64 else 0#64] s
    let s := dropCleanIf s g.core fun _ => true
    .ok (memberTrap (advance s) (c.headD 0#64 == 1#64)))

/-! ### Rendezvous points -/

/-- BINIT (R33, R37, R254). -/
def execBinit (o : BinitOp) (s : State) : Host.Outcome State Fault Refusal :=
  finish_ s (do
    let s ← begin_ { sr := [src o.sa o.fa], steerS := [o.sa.toNat], hcode := 0x09 } none s
    let g := curGroup s
    let b := o.b.toNat
    let device := o.scope == 5#3
    need ((teamKey g).isSome && (o.scope == 2#3 || (device && gangOf s g))) 0x08
    let n := (getS g o.sa.toNat).toNat
    need (decide (1 ≤ n) && decide (n ≤ if device then 2 ^ 32 - 1 else 16384)) 0x09
    match pointOf s g b with
    | none => .ok (advance (putPoint s g b device { init := true, device := device, expected := n }))
    | some (d, p) =>
      need (device && d && p.expected == n) 0x09
      .ok (advance s))

/-- The checks that BARV, BWAIT and BSYNC share (R385). -/
def checkPointUse (s : State) (b : Nat) : Act (Bool × Point) := do
  let g := curGroup s
  need (teamKey g).isSome 0x08
  match pointOf s g b with
  | none => trapWith 0x09
  | some p => .ok p

/-- A strand's recorded phases with an arrival at point b not yet counted. -/
def markArrival (l : Tab Bool) (id b : Nat) : Tab Bool :=
  tset (l.filter fun x => !(24 ≤ x.1 && x.1 % 24 == b)) (24 * id + b) true

/-- Recorded phases once the arrival is counted in a phase. -/
def unmarkArrival (l : Tab Bool) (id b : Nat) (ph : Bool) : Tab Bool :=
  match tget l (24 * id + b) with
  | some _ => tset (terase l (24 * id + b)) b ph
  | none => l

/-- Every strand that carries an arrival records the phase in which it is counted (R45). -/
def recordPhase (s : State) (id b : Nat) (ph : Bool) : State :=
  { s with groups := s.groups.map fun g =>
      (g.1, { g.2 with stack := g.2.stack.map fun e => { e with phases := unmarkArrival e.phases id b ph } }) }

/-- A barrier-misuse trap of an arrival judged when it was to be counted (R376, R385): pending with the PC of its BARV or
BSYNC (R360); a BSYNC that stands at it starts its wait no more. -/
def refuseArrival (s : State) (a : Arrival) : State :=
  let stop (e : Entry) : Entry :=
    if e.id == a.entry && e.pc == a.pc && e.stage == 1 && e.waitsOn == some a.point then
      { e with waitsOn := none, released := false, stage := 0 }
    else e
  let s := { s with groups := tmod s.groups a.gid fun g => { g with stack := g.stack.map stop } }
  pendTrap s a.gid a.entry { code := 0x09#8, tpc := some a.pc }

/-- Count an arrival of a team (R34, R45): an arrival that the point does not admit adds nothing and takes a
barrier-misuse trap. -/
def countArrival (s : State) (t id : Nat) : State :=
  match tget (tgetD s.teams t {}).arrivals id with
  | none => s
  | some a =>
    let g : Group := { owner := .team t }
    let s := { s with teams := tmod s.teams t fun x => { x with arrivals := terase x.arrivals id } }
    match pointOf s g a.point with
    | none => refuseArrival (recordPhase s id a.point false) a
    | some (d, p) =>
      let s := recordPhase s id a.point p.phase
      match arrivePoint p a.lanes with
      | some p' => turnPoint s g a.point d p p'
      | none => refuseArrival s a

/-- Counting the arrival would flip the phase of a point of its team's own (R411). -/
def wouldFlip (s : State) (t : Nat) (a : Arrival) : Bool :=
  match pointOf s { owner := .team t } a.point with
  | some (false, p) => p.arrived + a.lanes == p.expected
  | _ => false

/-- The arrival's accesses and write-backs are performed. -/
def arrivalDue (a : Arrival) : Bool := a.after.isEmpty && a.staged && a.afterWb.isEmpty

/-- The arrival of the issuing strand at a point (R34, R45): it is judged where it is counted (R376), which is at once
when nothing is awaited. The trailing copy arrives at no point: it goes on as its leading copy did (R417). -/
def arrive (b : Nat) (s : State) : Act State := do
  let g := curGroup s
  let (device, p) ← checkPointUse s b
  let n := (scalarWho s).length
  if isTrailing s g then .ok s
  else do
    let after := (s.outs.filter fun o => sameThread o.2 (strandProbe s)).map (·.1)
    let a : Arrival := { gid := s.cur.gid, entry := s.cur.entry, core := g.core, pc := (curStrand s).pc, point := b,
                         lanes := n, after := after, wb := device || spanning s g.owner }
    let atOnce := after.isEmpty && (!a.wb || (pendingWb s g.core fun _ => true).isEmpty)
    need (!atOnce || (arrivePoint p n).isSome) 0x09
    let t := (teamKey g).getD 0
    let s ← (if device then afterCheck .action s
             else if atOnce && wouldFlip s t a then afterCheck .flip s else .ok s)
    let (id, s) := freshId s
    let s := modTeam s g fun t => { t with arrivals := tset t.arrivals id a }
    let e := curStrand s
    let s := setStrand s { e with phases := markArrival e.phases id b }
    let s := stageArrival s t id
    let a := tgetD (tgetD s.teams t {}).arrivals id {}
    .ok (if arrivalDue a then countArrival s t id else s)

/-- The wait for a point's phase (R35), which a flip ends at once (R351). It starts once the strand's earlier acquires are
performed, as it is one itself (R123 to R126). -/
def waitPoint (b : Nat) (s : State) : Act State := do
  let g := curGroup s
  let (device, p) ← checkPointUse s b
  let e := curStrand s
  if isTrailing s g then .ok (passPoint s b device)
  else do
    holdUntil (!acqPending s) s
    let e := { e with waitsOn := some b, phases := if arrivalPending e b || (tget e.phases b).isSome then e.phases
                                                   else tset e.phases b p.phase }
    if e.released || (!arrivalPending e b && (tget e.phases b).any (· != p.phase)) then .ok (passPoint s b device)
    else waitHere (setStrand s e)

/-- BARV (R34, R254). -/
def execBarv (o : PointOp) (s : State) : Host.Outcome State Fault Refusal :=
  finish_ s (do
    let s ← begin_ { hcode := 0x09 } none s
    let s ← arrive o.b.toNat s
    .ok (advance (foldArrival s o.b.toNat 0xD4#8)))

/-- BWAIT (R35, R254). -/
def execBwait (o : PointOp) (s : State) : Host.Outcome State Fault Refusal :=
  finish_ s (do
    let s ← begin_ { hcode := 0x09 } none s
    waitPoint o.b.toNat s)

/-- BSYNC: BARV, then BWAIT (R35, R254). -/
def execBsync (o : PointOp) (s : State) : Host.Outcome State Fault Refusal :=
  finish_ s (do
    let s ← begin_ { hcode := 0x09 } none s
    let s ← (if (curStrand s).stage = 1 then .ok s
      else do
        let s ← arrive o.b.toNat s
        .ok (setStrand s { curStrand s with stage := 1 }))
    waitPoint o.b.toNat s)

/-- BARV_ARRIVAL_COUNTED (R45): the arrival's accesses have been performed. In a team launched with CHK = 1 an arrival
that flips the phase is counted by the check point it forces (R411). -/
def execBarvArrivalCounted (id : Nat) (s : State) : Host.Outcome State Fault Refusal :=
  event_ s (
    match s.teams.find? fun t => (tget t.2.arrivals id).isSome with
    | none => none
    | some (t, x) =>
      let a := tgetD x.arrivals id {}
      if !arrivalDue a then none
      else if chkOf s { owner := .team t } && !x.trailing && wouldFlip s t a then
        if x.force.isSome then none
        else some { s with teams := tmod s.teams t fun x => { x with force := some .flip, forcedBy := none } }
      else some (countArrival s t id))

end Sys2Proof.Machine
end

