-- ==== Sys2Proof/Machine/Queue.lean ====
section
/-!
DEFINITION. Queue objects in the share (R93, R255 to R258).
-/

namespace Sys2Proof.Machine

/-- The fields of a queue header (R93). -/
structure QHead where
  ssize : Nat := 0
  scnt : Nat := 0
  clc : BitVec 32 := 0#32
  wrc : BitVec 32 := 0#32
  rdc : BitVec 32 := 0#32
  deriving DecidableEq, Repr, Inhabited

/-- The header at an offset of a team's share. -/
def qHead (s : State) (t off : Nat) : QHead :=
  let a := shareWord s t off
  let b := shareWord s t (off + 8)
  { ssize := (a.extractLsb' 0 16).toNat, scnt := (a.extractLsb' 16 16).toNat, clc := a.extractLsb' 32 32,
    wrc := b.extractLsb' 0 32, rdc := b.extractLsb' 32 32 }

/-- Write a header. -/
def putHead (s : State) (t off : Nat) (h : QHead) : State :=
  let a : Word := BitVec.ofNat 64 h.ssize ||| (BitVec.ofNat 64 h.scnt <<< 16) ||| (h.clc.setWidth 64 <<< 32)
  let b : Word := h.wrc.setWidth 64 ||| (h.rdc.setWidth 64 <<< 32)
  putShareWord (putShareWord s t off a) t (off + 8) b

/-- The values of a header obey R93. -/
def qHeadOk (h : QHead) : Bool :=
  h.scnt != 0 && h.ssize % 16 == 0 && decide (16 ≤ h.ssize) && decide (h.ssize ≤ 32768)

/-- The share offset of slot i of the ring at a header (R93). -/
def qSlot (off : Nat) (h : QHead) (i : BitVec 32) : Nat := off + 16 + (i.toNat % h.scnt) * h.ssize

/-- A producer may commit (R93). -/
def qFree (h : QHead) : Bool := decide ((h.wrc - h.rdc).toNat < h.scnt)

/-- A consumer may claim (R93). -/
def qFull (h : QHead) : Bool := h.clc != h.wrc

/-- A BTE delivery into the object is pending (R93). -/
def deliveryPending (s : State) (t off : Nat) : Bool :=
  s.posts.any fun p => p.2.team == t && (p.2.phase == .queued || p.2.phase == .paused) &&
    p.2.bits.extractLsb' 22 2 == 3#2 && (p.2.bits.extractLsb' 128 57).toNat == off

/-- The key under which the membership change of a slot is kept (R431). -/
def slotMark (off : Nat) : Nat := 2 ^ 20 + off

/-- An offset that must be a multiple of 16, with n bytes in the share (R255, R257). -/
def queueRange (s : State) (off : Word) (n : Nat) : Act Nat := do
  checkAligned 16 [(0, off)]
  if shareSize s (curGroup s) < off.toNat + n then trapLane 0x11 0 off else .ok off.toNat

/-- The header that an instruction names, checked (R255). -/
def queueHeader (s : State) (off : Word) : Act (Nat × QHead) := do
  let h ← queueRange s off 16
  let q := qHead s ((teamKey (curGroup s)).getD 0) h
  need (qHeadOk q) 0x0B
  .ok (h, q)

/-- The slot of a header lies in the share (R76, R386), else its copy traps. -/
def slotInShare (s : State) (off : Nat) (h : QHead) (i : BitVec 32) : Act Nat :=
  let a := qSlot off h i
  if shareSize s (curGroup s) < a + h.ssize then trapLane 0x11 0 (BitVec.ofNat 64 a) else .ok a

/-- Wait until every earlier access of the strand is performed, as a team-scope release is (R117, R124). -/
def releaseReady (s : State) : Act Unit :=
  let g := curGroup s
  if isTrailing s g then .ok ()
  else if s.outs.any (fun o => sameThread o.2 (strandProbe s)) then holdHere s
  else if spanning s g.owner && !(pendingWb s g.core fun _ => true).isEmpty then
    holdHere (askWriteBack s g.core fun _ => true)
  else .ok ()

/-- The acquire of a queue claim (R117, R129): the core's clean lines go, so that no copy of the bytes it acquires, which
an engine may have delivered, is older than they are. -/
def acquireTeam (s : State) : State := dropCleanIf s (curGroup s).core fun _ => true

/-- Copy n bytes within a team's share, with their poison. -/
def shareCopy (s : State) (t src dst n : Nat) : State :=
  let x := tgetD s.teams t {}
  let l := bytesWith x.share x.sharePoison src n
  shareWrite s t l.length l dst

/-- QINIT (R256). -/
def execQinit (o : SaSbOp) (s : State) : Host.Outcome State Fault Refusal :=
  finish_ s (do
    let s ← begin_ { sr := [src o.sa o.fa, src o.sb o.fb], steerS := [o.sa.toNat, o.sb.toNat] } none s
    let g := curGroup s
    let off ← queueRange s (getS g o.sa.toNat) 16
    let v := getS g o.sb.toNat
    let h : QHead := { ssize := (v.extractLsb' 0 16).toNat, scnt := (v.extractLsb' 16 16).toNat }
    let t := (teamKey g).getD 0
    need (v >>> 32 == 0#64 && qHeadOk h && decide (off + 16 + h.scnt * h.ssize ≤ shareSize s g) &&
      !deliveryPending s t off) 0x0B
    holdUntil (!ownAccess s 2 [(off, 16)]) s
    let s := modTeam s g fun x => { x with mflips := x.mflips.filter fun k =>
      !(decide (slotMark (off + 16) ≤ k) && decide (k < slotMark (off + 16 + h.scnt * h.ssize))) }
    .ok (advance (putHead s t off h)))

/-- QPUSH, copy form (R257). -/
def execQpush (o : SaSbOp) (s : State) : Host.Outcome State Fault Refusal :=
  finish_ s (do
    let s ← begin_ { sr := [src o.sa o.fa, src o.sb o.fb], steerS := [o.sa.toNat, o.sb.toNat] } none s
    let g := curGroup s
    let t := (teamKey g).getD 0
    checkAligned 16 [(0, getS g o.sa.toNat), (0, getS g o.sb.toNat)]
    let (off, h) ← queueHeader s (getS g o.sa.toNat)
    let src ← queueRange s (getS g o.sb.toNat) h.ssize
    until_ (isTrailing s g || qFree h) s
    need (!deliveryPending s t off) 0x0B
    let slot ← slotInShare s off h h.wrc
    releaseReady s
    holdUntil (!ownAccess s 2 [(off, 16), (src, h.ssize), (slot, h.ssize)]) s
    let s := shareCopy s t src slot h.ssize
    .ok (advance (putHead s t off { h with wrc := h.wrc + 1#32 })))

/-- QPUSH.res: the offset of the next slot (R257). -/
def execQpushRes (o : QResOp) (s : State) : Host.Outcome State Fault Refusal :=
  finish_ s (do
    let s ← begin_ { sr := [src o.sa o.fa], sw := [o.sd.toNat], steerS := [o.sa.toNat] } none s
    let g := curGroup s
    let t := (teamKey g).getD 0
    let (off, h) ← queueHeader s (getS g o.sa.toNat)
    until_ (isTrailing s g || qFree h) s
    need (!deliveryPending s t off) 0x0B
    dstFull [o.sd.toNat] [] s
    holdUntil (!ownAccess s 2 [(off, 16)]) s
    let (v, s) ← outside 6 [BitVec.ofNat 64 (qSlot off h h.wrc)] s
    .ok (advance (writeScalar s o.sd.toNat (v.headD 0#64) false)))

/-- QPUSH.cmt: the next slot is committed (R257). -/
def execQpushCmt (o : QCmtOp) (s : State) : Host.Outcome State Fault Refusal :=
  finish_ s (do
    let s ← begin_ { sr := [src o.sa o.fa], steerS := [o.sa.toNat] } none s
    let g := curGroup s
    let t := (teamKey g).getD 0
    let (off, h) ← queueHeader s (getS g o.sa.toNat)
    need (!deliveryPending s t off && (isTrailing s g || qFree h)) 0x0B
    releaseReady s
    .ok (advance (putHead s t off { h with wrc := h.wrc + 1#32 })))

/-- The claim of a queue (R258): the membership change it observes is taken off the slot (R431). -/
def claimMark (s : State) (slot : Nat) : Act (Bool × State) := do
  let g := curGroup s
  let m := (teamOf s g).mflips.contains (slotMark slot)
  .ok (m, modTeam s g fun t => { t with mflips := sdel1 t.mflips (slotMark slot) })

/-- QWAIT (R258). -/
def execQwait (o : SdSaOp) (s : State) : Host.Outcome State Fault Refusal :=
  finish_ s (do
    let s ← begin_ { sr := [src o.sa o.fa], sw := [o.sd.toNat], steerS := [o.sa.toNat] } none s
    let g := curGroup s
    let t := (teamKey g).getD 0
    let (off, h) ← queueHeader s (getS g o.sa.toNat)
    until_ (isTrailing s g || qFull h) s
    dstFull [o.sd.toNat] [] s
    holdUntil (!ownAccess s 2 [(off, 16)] && !acqPending s) s
    let slot := qSlot off h h.clc
    let (m, s) ← claimMark s slot
    let (v, s) ← outside 6 [BitVec.ofNat 64 slot, if m then 1#64 else 0#64] s
    let s := acquireTeam (putHead s t off { h with clc := h.clc + 1#32 })
    .ok (memberTrap (advance (writeScalar s o.sd.toNat (v.headD 0#64) false)) (v.getD 1 0#64 == 1#64)))

/-- QREL (R258). -/
def execQrel (o : SaOp) (s : State) : Host.Outcome State Fault Refusal :=
  finish_ s (do
    let s ← begin_ { sr := [src o.sa o.fa], steerS := [o.sa.toNat] } none s
    let g := curGroup s
    let t := (teamKey g).getD 0
    let (off, h) ← queueHeader s (getS g o.sa.toNat)
    need (isTrailing s g || h.rdc != h.clc) 0x0B
    releaseReady s
    .ok (advance (putHead s t off { h with rdc := h.rdc + 1#32 })))

/-- QPOP: claim, copy and release in one step (R258). -/
def execQpop (o : SaSbOp) (s : State) : Host.Outcome State Fault Refusal :=
  finish_ s (do
    let s ← begin_ { sr := [src o.sa o.fa, src o.sb o.fb], steerS := [o.sa.toNat, o.sb.toNat] } none s
    let g := curGroup s
    let t := (teamKey g).getD 0
    checkAligned 16 [(0, getS g o.sa.toNat), (0, getS g o.sb.toNat)]
    let (off, h) ← queueHeader s (getS g o.sa.toNat)
    let dst ← queueRange s (getS g o.sb.toNat) h.ssize
    until_ (isTrailing s g || qFull h) s
    let slot ← slotInShare s off h h.clc
    releaseReady s
    holdUntil (!ownAccess s 2 [(off, 16), (dst, h.ssize), (slot, h.ssize)]) s
    let (m, s) ← claimMark s slot
    let (v, s) ← outside 6 [0#64, if m then 1#64 else 0#64] s
    let s := shareCopy s t slot dst h.ssize
    let s := acquireTeam (putHead s t off { h with clc := h.clc + 1#32, rdc := h.rdc + 1#32 })
    .ok (memberTrap (advance s) (v.getD 1 0#64 == 1#64)))

end Sys2Proof.Machine
end

