-- ==== Sys2Proof/Machine/Bte.lean ====
section
/-!
DEFINITION. Templates and posts: XTPL, XPOST, XQUERY, the targets of posts, their pauses and their ends
(R127 to R130, R274 to R278, R314, R397 to R402).
-/

namespace Sys2Proof.Machine

/-! ### Templates -/

/-- A field of a template (R274). -/
def tf (b : BitVec 512) (lo n : Nat) : Nat := (b.extractLsb' lo n).toNat
/-- KIND. -/
def tKind (b : BitVec 512) : Nat := tf b 0 4
/-- FMT. -/
def tFmt (b : BitVec 512) : Nat := tf b 4 4
/-- OP. -/
def tOp (b : BitVec 512) : Nat := tf b 8 4
/-- TR. -/
def tTr (b : BitVec 512) : Nat := tf b 12 2
/-- PRIO. -/
def tPrio (b : BitVec 512) : Nat := tf b 17 2
/-- RWT. -/
def tRwt (b : BitVec 512) : Bool := b.getLsbD 19
/-- REL. -/
def tRel (b : BitVec 512) : Bool := b.getLsbD 20
/-- SSP. -/
def tSsp (b : BitVec 512) : Bool := b.getLsbD 21
/-- DSP. -/
def tDsp (b : BitVec 512) : Nat := tf b 22 2
/-- DEV. -/
def tDev (b : BitVec 512) : Nat := tf b 24 8
/-- VIEW. -/
def tView (b : BitVec 512) : Nat := tf b 32 16
/-- SRC. -/
def tSrc (b : BitVec 512) : Nat := tf b 64 57
/-- DST. -/
def tDst (b : BitVec 512) : Nat := tf b 128 57
/-- SSTRIDE. -/
def tSstride (b : BitVec 512) : Nat := tf b 192 32
/-- DSTRIDE. -/
def tDstride (b : BitVec 512) : Nat := tf b 224 32
/-- ROWBYTES. -/
def tRowb (b : BitVec 512) : Nat := tf b 256 24
/-- ROWS. -/
def tRowsN (b : BitVec 512) : Nat := tf b 288 32
/-- AUX. -/
def tAux (b : BitVec 512) : Nat := tf b 320 57
/-- AUX2. -/
def tAux2 (b : BitVec 512) : Nat := tf b 384 64
/-- TSR. -/
def tTsr (b : BitVec 512) : BitVec 17 := b.extractLsb' 448 17
/-- TDL. -/
def tTdl (b : BitVec 512) : BitVec 17 := b.extractLsb' 480 17

/-- A completion target names something (R274). -/
def tgtV (t : BitVec 17) : Bool := t.getLsbD 16
/-- A completion target is a queue object. -/
def tgtQ (t : BitVec 17) : Bool := t.getLsbD 15
/-- The share offset of a completion target. -/
def tgtOff (t : BitVec 17) : Nat := 8 * (t.extractLsb' 0 15).toNat

/-- Every reserved bit of a template is 0 (R274). -/
def tplReserved (b : BitVec 512) : Bool :=
  tf b 497 15 == 0 && tf b 465 15 == 0 && tf b 377 7 == 0 && tf b 280 8 == 0 && tf b 185 7 == 0 && tf b 121 7 == 0 &&
  tf b 48 16 == 0

/-- A completion target is aligned and lies in the share (R276). -/
def targetOk (share : Nat) (t : BitVec 17) : Bool :=
  !tgtV t || (if tgtQ t then tgtOff t % 16 == 0 && decide (tgtOff t + 16 ≤ share) else decide (tgtOff t + 8 ≤ share))

/-- The collective kinds. -/
def isColl (k : Nat) : Bool := 6 ≤ k && k ≤ 9

/-- Operator and format of a kind are permitted: codes 14 and 15 are no format (R154), FMT gives the element size that TR
moves (R275, log 80), and the rows of a collective are whole elements (R318, R322). -/
def opFmtOk (b : BitVec 512) : Bool :=
  let op := tOp b
  let f := tFmt b
  let whole := f < 14 && tRowb b % (fmtBits f / 8) == 0
  match tKind b with
  | 0 => op == 0 && f < 14 && (tTr b == 0 || fmtBits f / 8 == 2 ^ (tTr b - 1))
  | 1 => op == 0 && f < 14
  | 5 => (decide (op < 13) && 4 ≤ f && decide (f < 8)) || (13 ≤ op && f == 8)
  | 6 | 7 => (((op == 0 || (2 ≤ op && op ≤ 8)) && decide (f < 8)) || (13 ≤ op && 8 ≤ f && f ≤ 10)) && whole
  | 8 | 9 => op == 0 && whole
  | _ => op == 0 && f == 0

/-- The fields that a kind does not name are 0 (R275). -/
def tplFields (b : BitVec 512) : Bool :=
  let k := tKind b
  (tAux b == 0 || k == 1 || k == 2 || k == 5) && (tAux2 b == 0 || k == 1 || k == 5) &&
  (k != 5 || tf b 192 128 == 0) && (k != 1 || tf b 249 31 == 0) &&
  (tDev b == 0 || k == 3 || k == 4 || k == 5 || k == 9) && (tView b == 0 || isColl k) &&
  (!tRwt b || ((k == 6 || k == 7) && tOp b == 13)) && (!tRel b || k == 3 || k == 5) &&
  (tDsp b == 0 || k == 0 || k == 4) && (!tSsp b || k == 0 || k == 2 || k == 3 || isColl k) &&
  (tTr b == 0 || (k == 0 && tDsp b == 2))

/-- XTPL accepts a template (R276). -/
def tplOk (share : Nat) (b : BitVec 512) : Bool :=
  let k := tKind b
  tplReserved b && decide (k < 10) && tplFields b && opFmtOk b && tf b 14 3 != 7 && tTr b != 3 &&
  (k == 1 || k == 5 || tRowb b != 0) && (tTr b == 0 || tRowb b % (fmtBits (tFmt b) / 8) == 0) &&
  targetOk share (tTsr b) && targetOk share (tTdl b)

/-- XTPL (R276). -/
def execXtpl (o : XtplOp) (s : State) : Host.Outcome State Fault Refusal :=
  finish_ s (do
    let regs := runOf o.sa.toNat 8
    let s ← begin_ { sr := regs.map (fun r => (r, bit1 o.fa)), steerS := regs } none s
    let g := curGroup s
    let b : BitVec 512 := (List.range 8).foldl (fun b k =>
      b ||| ((getS g (o.sa.toNat + k)).setWidth 512 <<< (64 * k))) 0#512
    need ((teamKey g).isSome && tplOk (shareSize s g) b) 0x13
    let old := tgetD (teamOf s g).templates o.i.toNat {}
    let new : Template := { old with bits := b, valid := true }
    .ok (advance (modTeam s g fun t => { t with templates := tset t.templates o.i.toNat new })))

/-- The word that XQUERY writes (R278). -/
def xqueryWord (t : Template) : Word :=
  BitVec.ofNat 64 ((t.done % 2 ^ 32) * 2 ^ 32 + (t.lstat % 256) * 2 ^ 16 + (t.pend % 256) * 2 ^ 8 +
    (if t.valid then 1 else 0))

/-- XQUERY (R278). -/
def execXquery (o : XqueryOp) (s : State) : Host.Outcome State Fault Refusal :=
  finish_ s (do
    let s ← begin_ { sw := [o.sd.toNat] } none s
    dstFull [o.sd.toNat] [] s
    let t := tgetD (teamOf s (curGroup s)).templates o.i.toNat {}
    let (v, s) ← outside 4 [xqueryWord t] s
    .ok (advance (writeScalar s o.sd.toNat (v.headD 0#64) false)))

/-! ### Posting -/

/-- The issuing team's BTE aperture (R74, R277). -/
def aperture (core : Nat) : Word := BitVec.ofNat 64 (Config.apertureBase + 0x10000 * clusterOf core)

/-- The kind takes a row range (R275). -/
def rowRange (k : Nat) : Bool := k != 5

/-- The row range of a post: first row and count, none where it is out of range (R277). -/
def postRows (b : BitVec 512) (arg : Nat) : Option (Nat × Nat) :=
  if rowRange (tKind b) then
    let f := arg / 2 ^ 26 % 2 ^ 26
    let c0 := arg % 2 ^ 26
    let c := if c0 = 0 then tRowsN b - f else c0
    if tRowsN b < f || tRowsN b < f + c then none else some (f, c)
  else some (0, 1)

/-- The checks of a post's destination object at XPOST (R277). -/
def postDestOk (s : State) (g : Group) (b : BitVec 512) (c : Nat) : Bool :=
  match tDsp b with
  | 2 =>
    let e := tileAt (teamOf s g) (tDst b % 64)
    tDef e && tRowb b * c == tSize e && tileUsable (shareSize s g) e
  | 3 => tDst b % 16 == 0 && decide (tDst b + 16 ≤ shareSize s g) &&
      (qHead s ((teamKey g).getD 0) (tDst b)).ssize == tRowb b
  | _ => true

/-- The posts of a virtual queue of a BTE. -/
def queueOf (s : State) (cl k : Nat) : List Nat := tgetD (tgetD s.btes cl {}).queues k []

/-- A virtual queue takes one more post (R277). -/
def queueRoom (s : State) (cl k : Nat) : Bool := decide ((queueOf s cl k).length < 64)

/-- The tile that a post delivers into may start to fill (R89, R273). -/
def postTileFree (s : State) (t : Nat) (b : BitVec 512) : Bool := tDsp b != 2 || mayFill s t (tDst b % 64)

/-- The record an XPOST folds (R419). -/
def postRecord (w : Word) (b : BitVec 512) : List Byte := 0xE1#8 :: wordBytes8 w ++ leBytes b.toNat 64

/-! ### What a post changes in its team -/

/-- Change the share of a team, that of the other copy of a redundant team, and those of their snapshots (R415). -/
def onShares (s : State) (t : Nat) (f : Memory × List Nat → Memory × List Nat) : State :=
  let one (x : Team) : Team :=
    let r := f (x.share, x.sharePoison)
    { x with
      share := r.1, sharePoison := r.2
      snap := x.snap.map fun y =>
        let q := f (y.share, y.sharePoison)
        { y with share := q.1, sharePoison := q.2 } }
  let s' := { s with teams := tmod s.teams t one }
  match (tgetD s.teams t {}).mate with
  | some m => { s' with teams := tmod s'.teams m one }
  | none => s'

/-- Write bytes to the shares. -/
def putShares (s : State) (t a : Nat) (l : List Byte) : State :=
  onShares s t fun m => (mwrite m.1 a l, poisonWrite m.2 a l.length false)

/-- Change the tile entries of a team and of its other copy, and of their snapshots. -/
def onTiles (s : State) (t n st : Nat) : State :=
  let put (l : Tab (BitVec 128)) : Tab (BitVec 128) := tset l n (withState (tgetD l n 0#128) st)
  let one (x : Team) : Team :=
    { x with tiles := put x.tiles, snap := x.snap.map fun y => { y with tiles := put y.tiles } }
  let s' := { s with teams := tmod s.teams t one }
  match (tgetD s.teams t {}).mate with
  | some m => { s' with teams := tmod s'.teams m one }
  | none => s'

/-- Change a template entry of a team and of its snapshot. -/
def onTemplate (s : State) (t i : Nat) (f : Template → Template) : State :=
  { s with teams := tmod s.teams t fun x =>
      { x with templates := tmod x.templates i f,
               snap := x.snap.map fun y => { y with templates := tmod y.templates i f } } }

/-! ### XPOST -/

/-- XPOST (R127, R277): the tile of a delivery starts to fill, and the strand waits until the BTE has accepted the post. The
post waits for every earlier access of its group (R121 to R127, log 81). -/
def execXpost (o : SaSbOp) (s : State) : Host.Outcome State Fault Refusal :=
  finish_ s (
    let e := curStrand s
    if e.stage = 1 then do
      until_ ((tget s.posts e.request).all fun p => p.phase != .waiting) s
      .ok (advance s)
    else do
      let s ← begin_ { sr := [src o.sa o.fa, src o.sb o.fb], steerS := [o.sa.toNat, o.sb.toNat], hcode := 0x01 } none s
      let g := curGroup s
      let w := getS g o.sb.toNat
      if isTrailing s g || getS g o.sa.toNat == aperture g.core then .ok () else trapLane 0x13 0 (getS g o.sa.toNat)
      let tidx := (w.extractLsb' 52 5).toNat
      let tm := tgetD (teamOf s g).templates tidx {}
      need (w >>> 57 == 0#64 && (teamKey g).isSome && tm.valid) 0x13
      let arg := w.toNat % 2 ^ 52
      let t := (teamKey g).getD 0
      match postRows tm.bits arg with
      | none => trapWith 0x13
      | some (f, c) =>
        need (postDestOk s g tm.bits c) 0x13
        if isTrailing s g then .ok (advance (foldRecord s (postRecord w tm.bits)))
        else do
          let cl := clusterOf g.core
          holdUntil (!acqPending s) s
          until_ (queueRoom s cl (tPrio tm.bits) && postTileFree s t tm.bits) s
          let s ← afterCheck .action s
          let s := if tDsp tm.bits = 2 then onTiles s t (tDst tm.bits % 64) 1 else s
          let (id, s) := freshId s
          let p : Post :=
            { cluster := cl, team := t, launch := launchKey s g, gid := s.cur.gid, entry := s.cur.entry,
              ctx := ctxOf s g, num := (teamOf s g).num, tidx := tidx, bits := tm.bits, arg := arg, first := f,
              count := c, core := g.core, awaits := (s.outs.filter fun x => x.2.gid == s.cur.gid).map (·.1) }
          let s := foldRecord { s with posts := tset s.posts id p } (postRecord w tm.bits)
          waitHere (setStrand s { curStrand s with stage := 1, request := id }))

/-! ### Targets -/

/-- Bytes of the payload of a post; those of a gather are known once it has read them. -/
def postBytes (p : Post) : Nat :=
  match tKind p.bits with
  | 1 => p.sent
  | 5 => fmtBits (tFmt p.bits) / 8
  | _ => p.count * tRowb p.bits

/-- An arrival of a post at a fill barrier (R92, R277). -/
def postArrive (s : State) (t off n : Nat) (member : Bool) : State :=
  let b := shareWord s t off
  let flips := barPhase (barAfter b n) != barPhase b
  let s := onShares s t fun m => (mwrite m.1 off (wordBytes8 (barAfter (mword m.1 off) n)), m.2)
  if flips then { s with teams := tmod s.teams t fun x =>
    { x with mflips := if member then sadd1 x.mflips off else sdel1 x.mflips off } }
  else s

/-- The status word of a queue target's slot (R277). -/
def statusBytes (n tidx st : Nat) : List Byte := leBytes (n + tidx * 2 ^ 64 + st * 2 ^ 72) 16

/-- A queue target can take a slot, or is no queue object at all. -/
def slotFree (s : State) (t off : Nat) : Bool :=
  let h := qHead s t off
  !qHeadOk h || qFree h

/-- Commit one slot of a queue object whose first bytes are given (R93, R277). -/
def commitSlot (s : State) (t off : Nat) (l : List Byte) (member : Bool) : State :=
  let h := qHead s t off
  if !qHeadOk h then s
  else
    let a := qSlot off h h.wrc
    let s := putShares s t a l
    let w : Word := (h.wrc + 1#32).setWidth 64 ||| (h.rdc.setWidth 64 <<< 32)
    let s := putShares s t (off + 8) (wordBytes8 w)
    if member then { s with teams := tmod s.teams t fun x => { x with mflips := sadd1 x.mflips (slotMark a) } } else s

/-- The two completion targets of a post. -/
def postTargets (p : Post) : List (BitVec 17) := [tTsr p.bits, tTdl p.bits].filter tgtV

/-- Every queue target of a post can take a slot. -/
def targetsReady (s : State) (p : Post) : Bool :=
  (postTargets p).all fun x => !tgtQ x || slotFree s p.team (tgtOff x)

/-- A post's team is resident, or gone: its objects can be reached, or need not be (R402). -/
def postTeamRuns (s : State) (p : Post) : Bool := (tget s.teams p.team).isNone || copiesRun s p.team

/-- Its BTE holds what a post does to the objects of a team that is saved, in the order of arrival (R277, R403). -/
def holdArrival (s : State) (t id what : Nat) : State :=
  { s with teams := tmod s.teams t fun x => { x with heldPosts := x.heldPosts ++ [(id, what)] } }

/-- The source-released fill barrier of a post receives its bytes (R129). -/
def arriveSource (s : State) (id : Nat) : State :=
  match tget s.posts id with
  | none => s
  | some p =>
    let t := tTsr p.bits
    if p.srcFired || !tgtV t || tgtQ t then s
    else { postArrive s p.team (tgtOff t) (postBytes p) false with
           posts := tset s.posts id { p with srcFired := true } }

/-- The source of a post has been read: its source-released fill barrier receives the post's bytes, on restore where its
team is saved (R129, R403). When it fires relative to the delivery of the last bytes the spec leaves open: here a local
transfer's fires as its last cart is written (log 79). -/
def fireSource (s : State) (id : Nat) : State :=
  match tget s.posts id with
  | none => s
  | some p =>
    let s := { s with posts := tset s.posts id { p with srcRead := true } }
    if copiesRun s p.team then arriveSource s id else holdArrival s p.team id 0

/-! ### The ends of posts -/

/-- Take a post out of its virtual queue. -/
def unqueue (s : State) (id : Nat) (p : Post) : State :=
  let b := tgetD s.btes p.cluster {}
  let k := tPrio p.bits
  { s with btes := tset s.btes p.cluster { b with queues := tset b.queues k (sdel1 (tgetD b.queues k []) id) } }

/-- A post is to finish with a status. -/
def endOne (s : State) (id st : Nat) : State :=
  match tget s.posts id with
  | none => s
  | some p =>
    if p.status.isSome || p.phase == .waiting then s
    else
      let s := unqueue { s with posts := tset s.posts id { p with status := some st, phase := .finished } } id p
      if copiesRun s p.team then s else holdArrival s p.team id 1

/-- A post is to finish; one with status 3 takes with it the later releasing posts of its BTE whose release has not
left (R401, R425). -/
def endPost (s : State) (id st : Nat) : State :=
  match tget s.posts id with
  | none => s
  | some p =>
    let s := endOne s id st
    if st = 3 then
      (s.posts.filter fun q => q.2.cluster == p.cluster && decide (p.seq < q.2.seq) && tRel q.2.bits &&
        !q.2.released).foldl (fun s q => endOne s q.1 3) s
    else s

/-- The fault record of R400. -/
def faultRecord (p : Post) (side devn va code : Nat) : List Byte :=
  leBytes (2 ^ 63 + code * 2 ^ 48 + devn * 2 ^ 40 + p.cluster * 2 ^ 32 + p.tidx * 2 ^ 22 + tPrio p.bits * 2 ^ 20 +
    side * 2 ^ 19 + tKind p.bits + p.num % 2 ^ 32 * 2 ^ 96 + va % 2 ^ 57 * 2 ^ 128 + p.launch * 2 ^ 192 +
    p.delivered * 2 ^ 256) 64

/-- Write the fault record of the posting team's queue (R399): a record that already holds a fault only notes the
overflow; an untranslatable one is told to the management core. -/
def writeRecord (s : State) (p : Post) (r : List Byte) : State :=
  let q := tgetD s.queues p.ctx {}
  let va := q.base + BitVec.ofNat 64 (128 * 2 ^ q.log2)
  match translateNow s (.hub p.cluster) p.ctx va 1 with
  | .error _ => tellMgmt s 5 (r.map (·.toNat))
  | .ok (pa, _) =>
    let s := notePage s (.hub p.cluster) p.ctx va 1
    let w := mword s.mem pa
    if w.getLsbD 63 then memPut s pa (wordBytes8 (w ||| 0x4000000000000000#64)) false else memPut s pa r false

/-- A queue object's status-2 slots of a post are committed as far as it has free slots (R277, R397). -/
def settleSlots (s : State) (id : Nat) : State :=
  match tget s.posts id with
  | none => s
  | some p =>
    if !copiesRun s p.team then s
    else
      p.slots.foldl (fun s x =>
        if slotFree s p.team x.1 then
          let s := commitSlot s p.team x.1 (statusBytes x.2 p.tidx 2) false
          { s with posts := tmod s.posts id fun q => { q with slots := q.slots.erase x } }
        else s) s

/-- A status-2 slot for each queue target of a post that paused after n bytes. -/
def pauseSlots (s : State) (id n : Nat) : State :=
  let offs (p : Post) : List (Nat × Nat) := ((postTargets p).filter tgtQ).map fun t => (tgtOff t, n)
  settleSlots { s with posts := tmod s.posts id fun p => { p with slots := p.slots ++ offs p } } id

/-- A post pauses (R397): its record, the management event, and a status-2 slot for each queue target, on restore where its
team is saved (R403). Poison sets PB (R408). -/
def pausePost (s : State) (id side devn va code : Nat) (far : Bool) : State :=
  match tget s.posts id with
  | none => s
  | some p =>
    let s := { s with posts := tset s.posts id { p with phase := .paused, far := far } }
    let s := writeRecord s p (faultRecord p side devn va code)
    let s := tellMgmt s 5 [p.launch, p.num, p.cluster, p.tidx, side, devn, va, code]
    let s := if copiesRun s p.team then pauseSlots s id p.delivered else holdArrival s p.team id (2 + p.delivered)
    let pb (s : State) (k : Nat) : State :=
      { s with teams := tmod s.teams k fun x => { x with chk := { x.chk with pb := true } } }
    if code = 0x18 then
      match (tgetD s.teams p.team {}).mate with
      | some m => pb (pb s p.team) m
      | none => pb s p.team
    else s

/-- The targets of a finishing post (R277): fill barriers unless the status is 3, and a slot for each queue object. -/
def fireTargets (s : State) (p : Post) (st : Nat) : State :=
  let fire (s : State) (t : BitVec 17) (n : Nat) (fired : Bool) : State :=
    if !tgtV t then s
    else if tgtQ t then commitSlot s p.team (tgtOff t) (statusBytes p.delivered p.tidx st) (st == 1)
    else if st = 3 || fired then s
    else postArrive s p.team (tgtOff t) n (st == 1)
  fire (fire s (tTsr p.bits) (if st = 1 && p.sent = 0 then 0 else postBytes p) p.srcFired) (tTdl p.bits) p.delivered false

/-- The end of a post reaches its team (R277): the tile of a delivery becomes ready or empty, the targets fire, and the entry
shows the status. -/
def endTeam (s : State) (id : Nat) (p : Post) (st : Nat) : State :=
  let n := tDst p.bits % 64
  let s := if tDsp p.bits = 2 then
      let s := onTiles (forgetWritten s p.team n) p.team n (if st = 3 then 0 else 2)
      match (tgetD s.teams p.team {}).mate with
      | some m => forgetWritten s m n
      | none => s
    else s
  let s := fireTargets s p st
  let s := onTemplate s p.team p.tidx fun t => { t with done := t.done + 1, lstat := st, pend := t.pend - 1 }
  { s with posts := tupd s.posts id fun p => { p with ended := true } }

/-- What a BTE holds for a team is applied (R403). -/
def applyOne (s : State) (x : Nat × Nat) : State :=
  match tget s.posts x.1 with
  | none => s
  | some p =>
    if x.2 = 0 then arriveSource s x.1
    else if x.2 = 1 then
      if !p.ended && p.slots.isEmpty && targetsReady s p then endTeam s x.1 p (p.status.getD 0) else s
    else pauseSlots s x.1 (x.2 - 2)

/-- A collective post is accepted and unfinished (R309, R435). -/
def collUnfinished (s : State) : Bool :=
  s.posts.any fun p => isColl (tKind p.2.bits) && p.2.phase != .waiting && p.2.status.isNone

end Sys2Proof.Machine
end

