-- ==== Sys2Proof/Machine/BteRun.lean ====
section
/-!
DEFINITION. How a BTE runs: acceptance, carts and their order, local transfers, remote requests and their answers, and
what this device does for requests of others (R127 to R130, R275, R277, R311 to R319, R397 to R401, R425, R426).
-/

namespace Sys2Proof.Machine

/-! ### Views as posts see them -/

/-- A packet of another device can come in: through a port in RUN (R312). -/
def linked (s : State) : Bool := s.ports.any fun p => p.2.state == 3

/-- The outcome of a step that a packet of another device brings. -/
def arrival_ (s : State) (a : Option State) : Host.Outcome State Fault Refusal := event_ s (if linked s then a else none)

/-- This device's number (R7, R308). -/
def devNo (s : State) : Nat := s.fabric.frpos.toNat % 256

/-- The members of the current view, rising (R309, R310). -/
def members (s : State) : List Nat :=
  if s.fabric.viewSet then (List.range 256).filter fun k => s.fabric.viewMap.getLsbD k else [devNo s]

/-- The number of the current view (R310). -/
def curView (s : State) : Nat := if s.fabric.viewSet then s.fabric.viewNum else 0

/-- View a is newer than view b: a wrapping difference below 0x8000 (R321). -/
def newerView (a b : Nat) : Bool :=
  let d := (a + 0x10000 - b % 0x10000) % 0x10000
  0 < d && decide (d < 0x8000)

/-- A proposal of a join is open (R435). -/
def joinOpen (s : State) : Bool := (s.fabric.agreement.proposal.map (·.joining)).getD false

/-- This device has accepted a proposal that is not yet committed (R429). -/
def agreementHeld (s : State) : Bool := s.fabric.agreement.answered && s.fabric.agreement.proposal.isSome

/-- The key of an instance: its context and number (R320). -/
def instKey (ctx k : Nat) : Nat := ctx * 2 ^ 40 + k

/-! ### Addresses of a payload -/

/-- The pieces of payload bytes lo to lo + n - 1, where the payload is cut into units of u bytes and `addr` gives the
address of each unit. -/
def unitPieces (u : Nat) (addr : Nat → Nat) (lo n : Nat) : List (Nat × Nat) :=
  if u = 0 || n = 0 then []
  else
    (List.range ((lo + n - 1) / u + 1 - lo / u)).map fun k =>
      let r := lo / u + k
      let a := max lo (r * u)
      (addr r + (a - r * u), min (lo + n) ((r + 1) * u) - a)

/-- Source rows of a post (R275). -/
def srcPieces (p : Post) (lo n : Nat) : List (Nat × Nat) :=
  unitPieces (tRowb p.bits) (fun r => tSrc p.bits + (p.first + r) * tSstride p.bits) lo n

/-- Destination rows of a post in global memory, in a share or on another device (R275). -/
def dstPieces (p : Post) (lo n : Nat) : List (Nat × Nat) :=
  unitPieces (tRowb p.bits) (fun r => tDst p.bits + (p.first + r) * tDstride p.bits) lo n

/-- The pieces of a tile that payload bytes go to; with TR the payload holds the tile column by column (R249, R277). -/
def tilePieces (e : BitVec 128) (tr lo n : Nat) : List (Nat × Nat) :=
  if tr = 0 then unitPieces (tRowBytes e) (fun i => tElem e i 0) lo n
  else unitPieces (2 ^ (tr - 1)) (fun q => tElem e (q % tRows e) (q / tRows e)) lo n

/-- The slots of a queue object that payload bytes go to: the rows from `lo` on fill the next slots (R277). -/
def slotPieces (off : Nat) (h : QHead) (rowb lo n : Nat) : List (Nat × Nat) :=
  unitPieces rowb (fun r => qSlot off h (h.wrc + BitVec.ofNat 32 (r - lo / rowb))) lo n

/-- How many bytes of pieces come before the first end of a 4 KiB page (R315). -/
def pageStop : Nat → List (Nat × Nat) → Nat
  | k, [] => k
  | k, (a, n) :: r => if 4096 ≤ a % 4096 + n then k + (4096 - a % 4096) else pageStop (k + n) r

/-- Physical pieces of virtual ones in a context, or the first address that fails and its code (R392). -/
def transPieces (s : State) (place : TlbPlace) (ctx use : Nat) : List (Nat × Nat) → Except (Nat × Nat) (List (Nat × Nat))
  | [] => .ok []
  | (va, n) :: r =>
    let cut := if n = 0 then [] else cutAt 4096 va n
    let step (acc : Except (Nat × Nat) (List (Nat × Nat))) (x : Nat × Nat) : Except (Nat × Nat) (List (Nat × Nat)) :=
      match acc with
      | .error e => .error e
      | .ok l =>
        match translateNow s place ctx (BitVec.ofNat 64 x.1) use with
        | .ok (pa, _) => .ok (l ++ [(pa, x.2)])
        | .error c => .error (x.1, c)
    match cut.foldl step (.ok []) with
    | .error e => .error e
    | .ok l =>
      match transPieces s place ctx use r with
      | .error e => .error e
      | .ok m => .ok (l ++ m)

/-- Pieces of a share, or the first that leaves it (R76). -/
def sharePieces (share : Nat) (l : List (Nat × Nat)) : Except (Nat × Nat) (List (Nat × Nat)) :=
  match l.find? fun x => decide (share < x.1 + x.2) with
  | some x => .error (x.1, 0x11)
  | none => .ok l

/-- The share of a post's team, in bytes. -/
def postShare (s : State) (p : Post) : Nat := 2048 * recField (tgetD s.launches p.launch {}).record 208 8

/-- Translate one side of a post: a share or global memory. -/
def sidePieces (s : State) (p : Post) (inShare : Bool) (use : Nat) (l : List (Nat × Nat)) :
    Except (Nat × Nat) (List (Nat × Nat)) :=
  if inShare then sharePieces (postShare s p) l else transPieces s (.hub p.cluster) p.ctx use l

/-- The bytes of pieces of a side, with their poison. -/
def sideBytes (s : State) (t : Nat) (inShare : Bool) (l : List (Nat × Nat)) : List (Byte × Bool) :=
  let x := tgetD s.teams t {}
  l.flatMap fun y => if inShare then bytesWith x.share x.sharePoison y.1 y.2 else bytesWith s.mem s.poison y.1 y.2

/-- Write bytes to pieces of a side. -/
def sideWrite (s : State) (t : Nat) (inShare : Bool) : List (Nat × Nat) → List Byte → State
  | [], _ => s
  | (a, n) :: r, b =>
    sideWrite (if inShare then putShares s t a (b.take n) else memPut s a (b.take n) false) t inShare r (b.drop n)

/-- Byte k of virtual pieces. -/
def pieceAddr : List (Nat × Nat) → Nat → Nat
  | [], _ => 0
  | (a, n) :: r, k => if k < n then a + k else pieceAddr r (k - n)

/-- A noted store touches pieces of a side. -/
def noteTouches (n : StoreNote) (share : Option Nat) (ps : List (Nat × Nat)) : Bool :=
  n.share == share && ps.any fun x => decide (x.1 < n.addr + n.new.length) && decide (n.addr < x.1 + x.2)

/-- A store that was noted after the post had read a byte of it is not seen; of the others that touch pieces a free bit
says whether one is, once for all carts (R128). -/
def noteFates (s : State) (p : Post) (share : Option Nat) (ps : List (Nat × Nat)) : Tab Bool × State :=
  ((List.range s.notes.length).drop p.since).foldl (fun (acc : Tab Bool × State) k =>
    let n := s.notes.getD k {}
    if !noteTouches n share ps || (tget acc.1 k).isSome then acc
    else if p.reads.any fun r => decide (r.2.2.2 ≤ k) && r.1 == share.isSome && noteTouches n share [(r.2.1, r.2.2.1)] then
      (tset acc.1 k true, acc.2)
    else
      let (b, s) := takeBit acc.2
      (tset acc.1 k b, s)) (p.fates, s)

/-- Read one side of a cart of a post: its bytes as the engine sees them (R127, R128), or the address and code that pause
the post; poison pauses it with code 0x18 (R397, R408). -/
def sideRead (s : State) (id : Nat) (inShare : Bool) (l : List (Nat × Nat)) :
    Except (Nat × Nat) (List Byte × State) :=
  let p := tgetD s.posts id {}
  match sidePieces s p inShare 0 l with
  | .error e => .error e
  | .ok ps =>
    let share := if inShare then some p.team else none
    let (fates, s') := noteFates s p share ps
    let b := ps.flatMap fun x => engineBytes s share p.since (fun k => tgetD fates k false) x.1 x.2
    if b.any (·.2) then .error (pieceAddr l (b.findIdx (·.2)), 0x18)
    else
      let s' := if inShare then s' else notePages s' (.hub p.cluster) p.ctx 0 l
      let p := { p with
        fates := fates, reads := p.reads ++ ps.map fun x => (inShare, x.1, x.2, s.notes.length) }
      .ok (b.map (·.1), { s' with posts := tset s'.posts id p })

/-! ### Local destinations -/

/-- The queue object that a post delivers into. -/
def postQueue (s : State) (p : Post) : QHead := qHead s p.team (tDst p.bits)

/-- Bytes of a post that its queue object has free slots for (R277). -/
def queueBytes (s : State) (p : Post) : Nat :=
  let h := postQueue s p
  if !qHeadOk h || h.ssize ≠ tRowb p.bits then 0
  else (h.scnt - (h.wrc - h.rdc).toNat) * h.ssize - p.sent % h.ssize

/-- The local destination of payload bytes: whether in a share, and its pieces. -/
def localDst (s : State) (p : Post) (lo n : Nat) : Bool × List (Nat × Nat) :=
  match tDsp p.bits with
  | 0 => (false, dstPieces p lo n)
  | 1 => (true, dstPieces p lo n)
  | 2 => (true, tilePieces (tileAt (tgetD s.teams p.team {}) (tDst p.bits % 64)) (tTr p.bits) lo n)
  | _ => (true, slotPieces (tDst p.bits) (postQueue s p) (tRowb p.bits) lo n)

/-- Commit the rows of a queue object that payload bytes lo to lo + n - 1 complete (R93, R277). -/
def commitRows (s : State) (p : Post) (lo n : Nat) : State :=
  if tDsp p.bits ≠ 3 then s
  else
    let h := postQueue s p
    let k := (lo + n) / tRowb p.bits - lo / tRowb p.bits
    let w : Word := (h.wrc + BitVec.ofNat 32 k).setWidth 64 ||| (h.rdc.setWidth 64 <<< 32)
    putShares s p.team (tDst p.bits + 8) (wordBytes8 w)

/-! ### Remote requests -/

/-- A request tag of a BTE that is free: not live, and not timed out within 2^27 cycles (R425, R426). -/
def freeRequest (s : State) (g : Nat) : Option Nat :=
  let b := tgetD s.btes g {}
  (List.range 1024).find? fun t =>
    match tget b.requests t with
    | none => true
    | some r => !r.live && (match r.deadAt with
      | none => true
      | some d => decide (d + 2 ^ 27 ≤ clockAt s (Config.clockBte g)))

/-- Change a request of a BTE. -/
def putRequest (s : State) (g tag : Nat) (r : Request) : State :=
  let b := tgetD s.btes g {}
  { s with btes := tset s.btes g { b with requests := tset b.requests tag r } }

/-- Runs of virtual memory as a packet's numbers. -/
def runNums (l : List (Nat × Nat)) : List Nat := l.flatMap fun x => [x.1, x.2]

/-- The kind of packet that a request travels in. -/
def requestPacket (kind : Nat) : PacketKind :=
  match kind with
  | 0 => .writePacket
  | 1 => .readRequest
  | 2 => .atomicRequest
  | _ => .conversation

/-- Send a remote request under a free tag: its generation, its packet and the time of its sending (R425). -/
def sendRequest (s : State) (g tag : Nat) (r : Request) : State :=
  let gen := (tget (tgetD s.btes g {}).requests tag).elim 0 (·.gen)
  let r := { r with live := true, gen := gen, sentAt := clockAt s (Config.clockBte g), deadAt := none }
  sendOut (putRequest s g tag r)
    { kind := requestPacket r.kind, dev := r.dev, nums := [g, tag, gen] ++ r.nums, bytes := r.bytes }

/-- Write packets of a BTE that are not acknowledged (R313). -/
def liveWrites (s : State) (g : Nat) : Nat :=
  ((tgetD s.btes g {}).requests.filter fun r => r.2.live && r.2.kind == 0).length

/-- A live request of a post. -/
def postLive (s : State) (id : Nat) : Bool :=
  s.btes.any fun b => b.2.requests.any fun r => r.2.live && r.2.post == id && decide (r.2.kind < 3)

/-- What the far device answers to the pages and bytes of a request is not known here: the first address that fails, in
any of its pieces, with its code, or none. A read may meet poison there (R397, R400, R408). -/
def farFault (s : State) (read : Bool) (runs : List (Nat × Nat)) : Option (Nat × Nat) × State :=
  let (b, s) := takeBit s
  if !b then (none, s)
  else
    let (c, s) := pickFree (if read then [0x10, 0x11, 0x18] else [0x10, 0x11]) s
    let starts := (runs.flatMap fun x => cutAt (if c = 0x18 then 8 else 4096) x.1 x.2).map (·.1)
    let (a, s) := pickFree starts s
    (some (a, c), s)

/-! ### Carts -/

/-- Everything about a CSR gather that its next cart needs: the next of its entries, and entries in all (R275). -/
def gatherSpan (s : State) (id : Nat) (p : Post) : Except (Nat × Nat) (Nat × Nat × State) :=
  match sideRead s id false [(tSrc p.bits + 4 * p.first, 4)] with
  | .error e => .error e
  | .ok (a, s) =>
    match sideRead s id false [(tSrc p.bits + 4 * (p.first + p.count), 4)] with
    | .error e => .error e
    | .ok (b, s) => .ok (leNat a, leNat b - leNat a, s)

/-- Bytes of a value of a gather. -/
def gatherSize (p : Post) : Nat := max 1 ((fmtBits (tFmt p.bits) + 7) / 8)

/-- How a cart ends: sent, or its post paused on a side (0 source, 1 destination) of a device, with an address, a
code, and whether the far device refused it. -/
inductive CartEnd where
  | sent (s : State) (cost : Nat)
  | paused (s : State) (side dev va code : Nat) (far : Bool)

/-- Bytes moved: the post's counts, its source released once everything has been read, and its end once everything is
delivered (R277, R317). -/
def moved (s : State) (id n : Nat) (delivers : Bool) (total : Nat) : State :=
  match tget s.posts id with
  | none => s
  | some p =>
    let p := { p with sent := p.sent + n, delivered := if delivers then p.delivered + n else p.delivered }
    let s := { s with posts := tset s.posts id p }
    let s := if p.sent = total && tKind p.bits != 4 && !isColl (tKind p.bits) then fireSource s id else s
    if delivers && p.delivered = total then endPost s id 0 else s

/-- A cart's cost: its bytes rounded up to 64 (R315). -/
def cartCost (n : Nat) : Nat := (n + 63) / 64 * 64

/-- Length of the next cart of a post: it ends at the ends of pages of global addresses, here or on the far device
(R315). -/
def cartLen (s : State) (p : Post) : Nat :=
  let left := min 2048 (postBytes p - p.sent)
  let left := if tDsp p.bits = 3 then min left (queueBytes s p) else left
  let a := if !tSsp p.bits then min left (pageStop 0 (srcPieces p p.sent left)) else left
  if tDsp p.bits = 0 && !isColl (tKind p.bits) then min a (pageStop 0 (dstPieces p p.sent left)) else a

/-- Destination rows of a scatter: row r goes to the row that AUX names (R275). -/
def scatterPieces (p : Post) (idx : List Byte) (lo n : Nat) : List (Nat × Nat) :=
  unitPieces (tRowb p.bits) (fun r =>
    tDst p.bits + leNat ((idx.drop (4 * (r - lo / tRowb p.bits))).take 4) * tDstride p.bits) lo n

/-- A cart of a scatter (kind 2). -/
def cartScatter (s : State) (id : Nat) (p : Post) : CartEnd :=
  let lo := p.sent
  let u := tRowb p.bits
  let left := min 2048 (postBytes p - lo)
  let left := if !tSsp p.bits then min left (pageStop 0 (srcPieces p lo left)) else left
  let rows := (lo + left - 1) / u + 1 - lo / u
  match sideRead s id false [(tAux p.bits + 4 * (p.first + lo / u), 4 * rows)] with
  | .error (va, c) => .paused s 0 (devNo s) va c false
  | .ok (idx, s') =>
    let n := min left (pageStop 0 (scatterPieces p idx lo left))
    match sideRead s' id (tSsp p.bits) (srcPieces p lo n) with
    | .error (va, c) => .paused s 0 (devNo s) va c false
    | .ok (b, s') =>
      match transPieces s (.hub p.cluster) p.ctx 1 (scatterPieces p idx lo n) with
      | .error (va, c) => .paused s 1 (devNo s) va c false
      | .ok ds =>
        let s' := notePages s' (.hub p.cluster) p.ctx 1 (scatterPieces p idx lo n)
        .sent (moved (sideWrite s' p.team false ds b) id n true (postBytes p)) (cartCost n)

/-- A cart of a CSR gather (kind 1): the column indices and values of the next entries, packed from the start of both
outputs. -/
def cartGather (s : State) (id : Nat) (p : Post) : CartEnd :=
  match gatherSpan s id p with
  | .error (va, c) => .paused s 0 (devNo s) va c false
  | .ok (a, total, s') =>
    let e := gatherSize p
    let vals := tf p.bits 192 57
    let done := p.sent / (4 + e)
    let fits (base u : Nat) : Nat := max 1 ((4096 - base % 4096) / u)
    let n := min (min (total - done) (2048 / (4 + e)))
      (min (min (fits (tAux p.bits + 4 * (a + done)) 4) (fits (vals + e * (a + done)) e))
        (min (fits (tDst p.bits + 4 * done) 4) (fits (tAux2 p.bits + e * done) e)))
    let cols := [(tDst p.bits + 4 * done, 4 * n)]
    let outs := [(tAux2 p.bits + e * done, e * n)]
    match sideRead s' id false [(tAux p.bits + 4 * (a + done), 4 * n)] with
    | .error (va, c) => .paused s 0 (devNo s) va c false
    | .ok (cs, s') =>
      match sideRead s' id false [(vals + e * (a + done), e * n)] with
      | .error (va, c) => .paused s 0 (devNo s) va c false
      | .ok (vs, s') =>
        match transPieces s (.hub p.cluster) p.ctx 1 cols, transPieces s (.hub p.cluster) p.ctx 1 outs with
        | .error (va, c), _ => .paused s 1 (devNo s) va c false
        | _, .error (va, c) => .paused s 1 (devNo s) va c false
        | .ok dc, .ok dv =>
          let s' := notePages s' (.hub p.cluster) p.ctx 1 (cols ++ outs)
          let s' := sideWrite (sideWrite s' p.team false dc cs) p.team false dv vs
          .sent (moved s' id (n * (4 + e)) true (total * (4 + e))) (cartCost (n * (4 + e)))

/-- A cart of a copy (kind 0). -/
def cartCopy (s : State) (id : Nat) (p : Post) : CartEnd :=
  let lo := p.sent
  let n := cartLen s p
  match sideRead s id (tSsp p.bits) (srcPieces p lo n) with
  | .error (va, c) => .paused s 0 (devNo s) va c false
  | .ok (b, s') =>
    let (sh, l) := localDst s p lo n
    match sidePieces s p sh 1 l with
    | .error (va, c) => .paused s 1 (devNo s) va c false
    | .ok ds =>
      let s' := if sh then s' else notePages s' (.hub p.cluster) p.ctx 1 l
      .sent (moved (commitRows (sideWrite s' p.team sh ds b) p lo n) id n true (postBytes p)) (cartCost n)

/-- A cart of a remote write (kind 3): one packet (R317). -/
def cartWrite (s : State) (g id tag : Nat) (p : Post) : CartEnd :=
  let lo := p.sent
  let n := cartLen s p
  match sideRead s id (tSsp p.bits) (srcPieces p lo n) with
  | .error (va, c) => .paused s 0 (devNo s) va c false
  | .ok (b, s) =>
    let runs := dstPieces p lo n
    match farFault s false runs with
    | (some (a, c), s) => .paused s 1 (tDev p.bits) a c true
    | (none, s) =>
      let rel := tRel p.bits && lo + n == postBytes p
      let s := sendRequest s g tag { post := id, kind := 0, off := lo, len := n, dev := tDev p.bits,
                                     nums := [p.ctx, if rel then 1 else 0] ++ runNums runs, bytes := b }
      let s := { s with posts := tmod s.posts id fun p => { p with released := p.released || rel } }
      .sent (moved s id n false (postBytes p)) (cartCost n)

/-- A cart of a remote read (kind 4): one request, whose local destination is translated now (R317). -/
def cartRead (s : State) (g id tag : Nat) (p : Post) : CartEnd :=
  let lo := p.sent
  let n := cartLen s p
  let (sh, l) := localDst s p lo n
  match sidePieces s p sh 1 l with
  | .error (va, c) => .paused s 1 (devNo s) va c false
  | .ok ds =>
    let runs := srcPieces p lo n
    match farFault (if sh then s else notePages s (.hub p.cluster) p.ctx 1 l) true runs with
    | (some (a, c), s) => .paused s 0 (tDev p.bits) a c true
    | (none, s) =>
      let s := sendRequest s g tag { post := id, kind := 1, off := lo, len := n, segs := ds, dev := tDev p.bits,
                                     nums := [p.ctx] ++ runNums runs }
      .sent (moved s id n false (postBytes p)) (cartCost n)

/-- The cart of a remote atomic (kind 5) (R317). -/
def cartAtomic (s : State) (g id tag : Nat) (p : Post) : CartEnd :=
  let n := postBytes p
  let old : Except (Nat × Nat) (List (Nat × Nat)) :=
    if tSrc p.bits = 0 then .ok [] else transPieces s (.hub p.cluster) p.ctx 1 [(tSrc p.bits, n)]
  match old with
  | .error (va, c) => .paused s 0 (devNo s) va c false
  | .ok ds =>
    let va := tDst p.bits + p.arg
    match farFault s true [(va, n)] with
    | (some (a, c), s) => .paused s 1 (tDev p.bits) a c true
    | (none, s) =>
      let m := 2 ^ (8 * n)
      let s := sendRequest s g tag {
        post := id, kind := 2, len := n, segs := ds, dev := tDev p.bits,
        nums := [p.ctx, va, tOp p.bits, tFmt p.bits, tAux2 p.bits % m, tAux p.bits % m, if tRel p.bits then 1 else 0] }
      let s := { s with posts := tmod s.posts id fun p => { p with released := true } }
      .sent (moved s id n false n) 64

/-- The packets by which a member contributes to an instance, of at most 32 data flits each (R312). -/
def sendColl (s : State) (m : CollMsg) (dev : Nat) : State :=
  let nums (off : Nat) : List Nat :=
    [m.dev, m.ctx, m.inst, m.view, m.kind, m.op, m.fmt, m.rowBytes, m.rows, m.named, off, m.data.length, if m.result then 1 else 0]
  let pieces := if m.data.isEmpty then [(0, 0)] else cutAt 2048 0 m.data.length
  pieces.foldl (fun s x =>
    sendOut s { kind := .collective, dev := dev, nums := nums x.1, bytes := (m.data.drop x.1).take x.2 }) s

/-- In a broadcast a member other than the root reads no rows and sends no bytes (R324). -/
def readsNone (s : State) (p : Post) : Bool := tKind p.bits == 9 && tDev p.bits != devNo s

/-- What a member contributes to its instance: its rows (R320, R324). -/
def ownPart (s : State) (p : Post) (data : List Byte) : CollMsg :=
  { dev := devNo s, ctx := p.ctx, inst := p.inst, view := p.view, kind := tKind p.bits, op := tOp p.bits,
    fmt := tFmt p.bits, rowBytes := tRowb p.bits, rows := p.count, named := p.named,
    data := if readsNone s p then [] else data }

/-- A member's rows are all read: its part is entered and sent to every other member. -/
def contribute (s : State) (p : Post) (data : List Byte) : State :=
  let m := ownPart s p data
  let key := instKey p.ctx p.inst
  let c := tgetD s.collectives key {}
  let s := { s with collectives := tset s.collectives key { c with parts := tset c.parts m.dev m } }
  (members s).foldl (fun s d => if d = m.dev then s else sendColl s m d) s

/-- A cart of a collective: rows are read and kept until all are (R325). -/
def cartColl (s : State) (id : Nat) (p : Post) : CartEnd :=
  let lo := p.sent
  if readsNone s p then
    let q := { p with sent := postBytes p, srcRead := true }
    .sent (contribute { s with posts := tset s.posts id q } q []) 0
  else
    let n := cartLen s p
    match sideRead s id (tSsp p.bits) (srcPieces p lo n) with
    | .error (va, c) => .paused s 0 (devNo s) va c false
    | .ok (b, s) =>
      let q := { tgetD s.posts id {} with sent := lo + n, old := p.old ++ b, srcRead := lo + n == postBytes p }
      let s := { s with posts := tset s.posts id q }
      .sent (if q.sent = postBytes p then contribute s q q.old else s) (cartCost n)

/-- The next cart of a post. -/
def cartOf (s : State) (g id tag : Nat) (p : Post) : CartEnd :=
  match tKind p.bits with
  | 0 => cartCopy s id p
  | 1 => cartGather s id p
  | 2 => cartScatter s id p
  | 3 => cartWrite s g id tag p
  | 4 => cartRead s g id tag p
  | 5 => cartAtomic s g id tag p
  | _ => cartColl s id p

/-! ### Service -/

/-- The post's own share is read or written. -/
def usesShare (p : Post) : Bool := tSsp p.bits || tDsp p.bits != 0

/-- An earlier post of the BTE holds back a release (R130, R314, R398): a remote write with packets unsent or not
acknowledged, be it abandoned, or any post that is paused. -/
def holdsRelease (s : State) (id : Nat) (q : Post) : Bool :=
  q.phase != .waiting && ((tKind q.bits == 3 && (q.status.isNone || postLive s id)) || q.phase == .paused)

/-- R314 holds back the cart: it is the last of a releasing post, and earlier write packets are not acknowledged. -/
def held314 (s : State) (g id : Nat) (p : Post) : Bool :=
  let last := tKind p.bits == 5 || decide (postBytes p ≤ p.sent + cartLen s p)
  tRel p.bits && last &&
    (postLive s id || s.posts.any fun q => q.2.cluster == g && decide (q.2.seq < p.seq) && holdsRelease s q.1 q.2)

/-- The post has a cart ready (R313 to R316, R321, R402, R429). -/
def cartReady (s : State) (g id : Nat) (p : Post) : Bool :=
  let k := tKind p.bits
  p.phase == .queued && p.status.isNone && (k == 1 || decide (p.sent < postBytes p)) &&
  (!usesShare p || copiesRun s p.team) &&
  (tDsp p.bits != 3 || decide (0 < queueBytes s p)) &&
  (!(3 ≤ k && k ≤ 5) || (freeRequest s g).isSome) &&
  (k != 3 || decide (liveWrites s g < 256)) &&
  !(k == 4 && tDsp p.bits == 3 && postLive s id) &&
  !held314 s g id p &&
  (!isColl k || (p.view == curView s && !agreementHeld s))

/-- The head of a virtual queue with a cart ready. -/
def readyHead (s : State) (g k : Nat) : Option Nat :=
  match queueOf s g k with
  | [] => none
  | id :: _ => if cartReady s g id (tgetD s.posts id {}) then some id else none

/-- The quantum of a queue (R316). -/
def quantum (k : Nat) : Nat := 16384 / 2 ^ k

/-- Send the cart of the head of queue k: the state and its cost; a pause costs nothing. -/
def sendCart (s : State) (g id : Nat) : State × Nat :=
  match cartOf s g id ((freeRequest s g).getD 0) (tgetD s.posts id {}) with
  | .sent s n => (s, n)
  | .paused s side dev va code far => (pausePost s id side dev va code far, 0)

/-- The cost of the head's next cart. -/
def headCost (s : State) (g id : Nat) : Nat := (sendCart s g id).2

/-- Deficit round-robin until one cart is sent, or no queue has one ready (R316). -/
def serve : Nat → State → Nat → State
  | 0, s, _ => s
  | fuel + 1, s, g =>
    let b := tgetD s.btes g {}
    let k := b.turn / 2 % 4
    let d := tgetD b.deficits k 0
    let put (b : Bte) : State := { s with btes := tset s.btes g b }
    let next : Nat := 2 * ((k + 1) % 4)
    if b.turn % 2 = 0 then
      match readyHead s g k with
      | none => serve fuel (put { b with deficits := tset b.deficits k 0, turn := next }) g
      | some _ =>
        serve fuel (put { b with deficits := tset b.deficits k (min (d + quantum k) (2 * quantum k)),
                                 turn := 2 * k + 1 }) g
    else
      match readyHead s g k with
      | some id =>
        if headCost s g id ≤ d then
          let r := sendCart s g id
          let b := tgetD r.1.btes g {}
          { r.1 with btes := tset r.1.btes g { b with deficits := tset b.deficits k (d - r.2) } }
        else serve fuel (put { b with turn := next }) g
      | none => serve fuel (put { b with turn := next }) g

/-- Posts of aborted launches end with status 3, and waiting ones are dropped (R361, R401). -/
def abandonPosts (s : State) (g : Nat) : State :=
  let gone (p : Post) : Bool := p.cluster == g && (tgetD s.launches p.launch {}).aborted
  let s : State := { s with posts := s.posts.filter fun p => !(gone p.2 && p.2.phase == PostPhase.waiting) }
  s.posts.foldl (fun s p => if gone p.2 then endPost s p.1 3 else s) s

/-- A post that the far device paused is retried when an invalidation completes there, at a time not known here
(R401). -/
def retryFar (s : State) (g : Nat) : State :=
  s.posts.foldl (fun s p =>
    if p.2.cluster == g && p.2.phase == .paused && p.2.far then
      let (b, s) := takeBit s
      if b then { s with posts := tset s.posts p.1 { p.2 with phase := .queued, far := false } } else s
    else s) s

/-- A broadcast whose root is not a member ends with status 3 (R324). -/
def rootAbsent (s : State) (p : Post) : Bool := tKind p.bits == 9 && !(members s).contains (tDev p.bits)

/-- Status-2 slots of the BTE's posts that waited for room are committed. -/
def settleAll (s : State) (g : Nat) : State :=
  ((s.posts.filter fun p => p.2.cluster == g && !p.2.slots.isEmpty).map (·.1)).foldl settleSlots s

/-- BTE_CART_SEND (R315, R316). -/
def execBteCartSend (g : Nat) (s : State) : Host.Outcome State Fault Refusal :=
  event_ s (some (serve 12 (settleAll (retryFar (abandonPosts s g) g) g) g))

/-! ### Acceptance -/

/-- Accept a post of a collective: it takes its number in its context, and its view is judged (R320, R321, R429). -/
def acceptColl (s : State) (id : Nat) (p : Post) : State × Option Nat :=
  let k := tgetD s.collCounts p.ctx 0
  let v := if tView p.bits = 0xFFFF then curView s else tView p.bits
  let p := { p with view := v, named := v, inst := k }
  let s := { s with collCounts := tset s.collCounts p.ctx (k + 1), posts := tset s.posts id p }
  if s.fabric.agreement.outside then (s, some 1)
  else if v ≠ curView s && !newerView v (curView s) then (s, some 1)
  else if v = curView s && rootAbsent s p then (s, some 3)
  else
    let key := instKey p.ctx k
    let c := tgetD s.collectives key {}
    ({ s with collectives := tset s.collectives key { c with post := id, view := v, pFirst := (members s).length } }, none)

/-- The status with which a post of kind 3 to 5 ends at once (R317). -/
def remoteStatus (s : State) (p : Post) : Option Nat :=
  let k := tKind p.bits
  if 3 ≤ k && k ≤ 5 && !inShape s (tDev p.bits) then some 3
  else if k = 5 && (tDst p.bits + p.arg) % postBytes p ≠ 0 then some 3
  else none

/-- A post waits for an access or a write-back (R127). -/
def awaitsAny (s : State) (p : Post) : Bool :=
  p.awaits.any fun i => (tget s.outs i).isSome || (tget s.writeBacks i).isSome ||
    s.cores.any fun c => c.2.dirty.any fun d => d.id == i

/-- BTE_POST_ACCEPT (R127, R277, R317, R320, R321): once the accesses of the post's group are performed the core writes back
its narrow-dirty sectors, and then the post is accepted. -/
def execBtePostAccept (id : Nat) (s : State) : Host.Outcome State Fault Refusal :=
  event_ s (
    match tget s.posts id with
    | none => none
    | some p =>
      let k := tKind p.bits
      let prio := tPrio p.bits
      if p.phase != .waiting || awaitsAny s p || !queueRoom s p.cluster prio || !copiesRun s p.team ||
          (tgetD s.launches p.launch {}).aborted || (isColl k && (joinOpen s || (p.count == 0 && agreementHeld s))) then
        none
      else if !p.staged then
        let p := { p with staged := true, awaits := pendingWb s p.core fun _ => true }
        some (askWriteBack { s with posts := tset s.posts id p } p.core fun _ => true)
      else
        let (seq, s) := freshId s
        let p := { p with phase := .queued, seq := seq, since := s.notes.length }
        let b := tgetD s.btes p.cluster {}
        let s := { s with
          posts := tset s.posts id p
          btes := tset s.btes p.cluster { b with queues := tset b.queues prio (tgetD b.queues prio [] ++ [id]) } }
        let s := onTemplate s p.team p.tidx fun t => { t with pend := t.pend + 1 }
        let (s, st) := if isColl k then acceptColl s id p else (s, remoteStatus s p)
        match st with
        | some n => some (endPost s id n)
        | none =>
          let s := if k = 5 then fireSource s id else s
          if p.count = 0 then
            let s := if isColl k then contribute s (tgetD s.posts id {}) [] else s
            some (endPost s id 0)
          else some s)

/-! ### Answers to remote requests -/

/-- The live request that an answer matches: its tag's index and generation (R426). -/
def answered (s : State) (g tag gen : Nat) : Option Request :=
  match tget (tgetD s.btes g {}).requests tag with
  | some r => if r.live && r.gen == gen then some r else none
  | none => none

/-- A request is answered: its tag is free again. -/
def closeRequest (s : State) (g tag : Nat) (r : Request) : State := putRequest s g tag { r with live := false }

/-- REMOTE_WRITE_ACK (R313): the bytes of a packet are visible at system scope on the far device. -/
def execRemoteWriteAck (g tag gen : Nat) (s : State) : Host.Outcome State Fault Refusal :=
  arrival_ s (
    match answered s g tag gen with
    | none => none
    | some r =>
      if r.kind != 0 then none
      else
        let s := closeRequest s g tag r
        match tget s.posts r.post with
        | none => some s
        | some p =>
          let p := { p with delivered := p.delivered + r.len }
          let s := { s with posts := tset s.posts r.post p }
          some (if p.delivered = postBytes p then endPost s r.post 0 else s))

/-- The code with which a home answers a withdrawn request (R294). -/
def withdrawn : Nat := 0xFF

/-- The answer of a far home: a code byte, whether the wait was ended by R433, and the values (R326, R433). -/
def answerConv (s : State) (id : Nat) (data : List Byte) : State :=
  match tget s.convRequests id with
  | none => s
  | some c =>
    let n := (data.length - 2) / 8
    if (data.headD 0#8).toNat = withdrawn then { s with convRequests := terase s.convRequests id }
    else
    let vals := (List.range n).map fun k => BitVec.ofNat 64 (leNat ((data.drop (2 + 8 * k)).take 8))
    let c : ConvRequest :=
      { c with answered := true, code := (data.headD 0#8).toNat, vals := vals, ended := data.getD 1 0#8 != 0#8 }
    { s with convRequests := tset s.convRequests id c }

/-- REMOTE_READ_REPLY (R317): the data of a remote read, or the old value of a remote atomic, is written locally. The
answer of a far conversation home comes by the same step (R326). -/
def execRemoteReadReply (g tag gen : Nat) (data : List Byte) (s : State) : Host.Outcome State Fault Refusal :=
  arrival_ s (
    match answered s g tag gen with
    | none => none
    | some r =>
      if r.kind = 3 then some (answerConv (closeRequest s g tag r) r.conv data)
      else if !(r.kind == 1 || r.kind == 2) || (data.length != r.len) then none
      else
        match tget s.posts r.post with
        | none => some (closeRequest s g tag r)
        | some p =>
          let sh := r.kind == 1 && tDsp p.bits != 0
          if sh && (tget s.teams p.team).any (·.phase == .saved) then none
          else
            let s := closeRequest s g tag r
            let s := sideWrite s p.team sh r.segs data
            let s := if sh then commitRows s p r.off r.len else s
            let p := { p with delivered := p.delivered + r.len }
            let s := { s with posts := tset s.posts r.post p }
            if p.delivered = postBytes p then some (endPost (fireSource s r.post) r.post 0) else some s)

/-- REQUEST_TIMEOUT (R425): after 2^26 cycles the tag's generation advances, and its post ends with status 3, or its
conversation instruction with a conversation-closed trap. -/
def execRequestTimeout (g tag : Nat) (s : State) : Host.Outcome State Fault Refusal :=
  event_ s (
    match tget (tgetD s.btes g {}).requests tag with
    | none => none
    | some r =>
      let now := clockAt s (Config.clockBte g)
      if !r.live || now < r.sentAt + 2 ^ 26 then none
      else
        let s := putRequest s g tag { r with live := false, gen := (r.gen + 1) % 64, deadAt := some now }
        if r.kind = 3 then
          match tget s.convRequests r.conv with
          | none => some s
          | some c =>
            let c : ConvRequest := { c with answered := true, code := 0x22, vals := [], ended := true }
            some { s with convRequests := tset s.convRequests r.conv c }
        else
          let p := tgetD s.posts r.post {}
          let va := if r.kind = 2 then r.nums.getD 1 0 else if r.kind = 1 then r.nums.getD 1 0 else r.nums.getD 2 0
          some (endPost (tellMgmt s 6 [r.dev, p.tidx, va]) r.post 3))

/-- LATE_ANSWER (R426): an answer of another generation is only counted. -/
def execLateAnswer (g tag gen : Nat) (s : State) : Host.Outcome State Fault Refusal :=
  arrival_ s (if (answered s g tag gen).isSome then none else some (tellMgmt s 7 [g, tag, gen]))

/-- DISCARD_NOTICE (R424): a packet that was never performed is sent again. -/
def execDiscardNotice (g tag : Nat) (s : State) : Host.Outcome State Fault Refusal :=
  arrival_ s (
    match tget (tgetD s.btes g {}).requests tag with
    | none => none
    | some r => if r.live then some (sendRequest s g tag r) else none)

/-! ### Requests of other devices -/

/-- Pieces of a packet's runs. -/
def runPieces (l : List (Word × Nat)) : List (Nat × Nat) := l.map fun x => (x.1.toNat, x.2)

/-- REMOTE_WRITE_PACKET (R313, R317): every byte is performed at its home slice, then the acknowledgement leaves. A
packet whose pages fail is not performed and goes back refused (R397). -/
def execRemoteWritePacket (dev tag ctx : Nat) (runs : List (Word × Nat)) (data : List Byte) (_rel : Bool) (s : State) :
    Host.Outcome State Fault Refusal :=
  arrival_ s (some (
    match transPieces s .bare ctx 1 (runPieces runs) with
    | .error (va, c) => sendOut s { kind := .refused, dev := dev, nums := [tag, va, c] }
    | .ok ps => sendOut (sideWrite s 0 false ps data) { kind := .writeAck, dev := dev, nums := [tag] }))

/-- REMOTE_READ_REQUEST (R317): the bytes are read at their home slices. Poison goes back as a refusal (R408). -/
def execRemoteReadRequest (dev tag ctx : Nat) (runs : List (Word × Nat)) (s : State) :
    Host.Outcome State Fault Refusal :=
  arrival_ s (some (
    match transPieces s .bare ctx 0 (runPieces runs) with
    | .error (va, c) => sendOut s { kind := .refused, dev := dev, nums := [tag, va, c] }
    | .ok ps =>
      let b := sideBytes s 0 false ps
      if b.any (·.2) then
        sendOut s { kind := .refused, dev := dev, nums := [tag, pieceAddr (runPieces runs) (b.findIdx (·.2)), 0x18] }
      else sendOut s { kind := .readReply, dev := dev, nums := [tag], bytes := b.map (·.1) }))

/-- The opcode of the ATOM operator that OP names (R243, R274). -/
def atomOpcode (op : Nat) : Nat := 0x70 + op

/-- REMOTE_ATOMIC (R317, R319): one element is changed at the unit of its port, and its old value goes back. -/
def execRemoteAtomic (dev tag ctx : Nat) (va : Word) (op fmt : Nat) (opr swap : Word) (s : State) :
    Host.Outcome State Fault Refusal :=
  arrival_ s (
    let n := fmtBits fmt / 8
    if n ≠ 4 && n ≠ 8 || 16 ≤ op || va.toNat % n ≠ 0 then none
    else
      match translateNow s .bare ctx va 1 with
      | .error c => some (sendOut s { kind := .refused, dev := dev, nums := [tag, va.toNat, c] })
      | .ok (pa, _) =>
        let view := bytesWith s.mem s.poison pa n
        let m := viewNat view
        let w := 2 ^ (8 * n)
        let v := atomicValue (atomOpcode op) (8 * n) m (opr.toNat % w) (swap.toNat % w)
        let s := memPut s pa (leBytes v n) (view.any (·.2))
        some (sendOut s { kind := .readReply, dev := dev, nums := [tag], bytes := leBytes m n }))

end Sys2Proof.Machine
end

