-- ==== Sys2Proof/Machine/Collective.lean ====
section
/-!
DEFINITION. Collective instances: combining in the fixed tree, packets, completion, and what a new view does to them
(R320 to R325, R429 to R431).
-/

namespace Sys2Proof.Machine

/-! ### Combining -/

/-- Two elements combined by an operator in a format (R322). -/
def combineElem (op fmt a b : Nat) : Nat :=
  let w := 2 ^ fmtBits fmt
  let sg (x : Nat) : Int := if x < w / 2 then (x : Int) else (x : Int) - w
  match op with
  | 0 => (a + b) % w
  | 2 => if sg b < sg a then b else a
  | 3 => min a b
  | 4 => if sg a < sg b then b else a
  | 5 => max a b
  | 6 => a &&& b
  | 7 => a ||| b
  | 8 => a ^^^ b
  | 13 => roundTo fmt 0 false false (addExact 0 (fmtValue fmt a) (fmtValue fmt b))
  | 14 => minMax (ffmtOf fmt) false a b
  | _ => minMax (ffmtOf fmt) true a b

/-- Element k of rows of elements of e bytes. -/
def elemAt (l : List Byte) (e k : Nat) : Nat := leNat ((l.drop (e * k)).take e)

/-- Two members' rows combined element by element. -/
def combineRows (op fmt : Nat) (a b : List Byte) : List Byte :=
  let e := max 1 (fmtBits fmt / 8)
  (List.range (a.length / e)).flatMap fun k => leBytes (combineElem op fmt (elemAt a e k) (elemAt b e k)) e

/-- One level of the tree: neighbours combine, a last one without a neighbour stays (R323). -/
def treeLevel {α : Type} (f : α → α → α) : List α → List α
  | a :: b :: r => f a b :: treeLevel f r
  | l => l

/-- The tree over ranks (R323): level after level until one value is left. -/
def treeFold {α : Type} (f : α → α → α) : Nat → List α → List α
  | 0, l => l
  | n + 1, l => treeFold f n (treeLevel f l)

/-- x × p ÷ q, exact before one rounding to nearest even (R430): the quotient keeps 80 bits and a sticky bit. -/
def reweigh (fmt p q x : Nat) : Nat :=
  match fmtValue fmt x with
  | .fin neg m e =>
    let n := m * p * 2 ^ 80
    roundTo fmt 0 false false (.fin neg (2 * (n / q) + if n % q = 0 then 0 else 1) (e - 81))
  | v => roundTo fmt 0 false false v

/-- A member's rank and its view's size. -/
def rankOf (ms : List Nat) (dev : Nat) : Nat := ms.findIdx (· == dev)

/-- Rows lo to hi - 1 of a payload. -/
def rowsOf (u lo hi : Nat) (l : List Byte) : List Byte := (l.drop (u * lo)).take (u * (hi - lo))

/-- What a member writes when an instance completes, from the parts of all members (R324). -/
def instanceResult (kind op fmt u c root : Nat) (parts : Tab CollMsg) (ms : List Nat) (dev : Nat) : List Byte :=
  let data (d : Nat) : List Byte := (tgetD parts d {}).data
  match kind with
  | 8 => ms.flatMap data
  | 9 => data root
  | _ =>
    let all := (treeFold (combineRows op fmt) ms.length (ms.map data)).headD []
    if kind = 6 then all
    else
      let j := rankOf ms dev
      rowsOf u (j * c / ms.length) ((j + 1) * c / ms.length) all

/-- Destination pieces of n bytes of an instance's result: from row f for a reduce or broadcast, else from row 0
(R324). -/
def resultPieces (p : Post) (n : Nat) : List (Nat × Nat) :=
  let f := if tKind p.bits = 6 || tKind p.bits = 9 then p.first else 0
  unitPieces (tRowb p.bits) (fun r => tDst p.bits + (f + r) * tDstride p.bits) 0 n

/-! ### Packets and completion -/

/-- Enter a whole part, or the final result of rank 0, into its instance. -/
def enterWhole (c : Collective) (m : CollMsg) : Collective :=
  if m.result then { c with result := some m.data } else { c with parts := tset c.parts m.dev m }

/-- The packets of one payload: those of one sender, of its rows or of its result. -/
def samePayload (a b : CollMsg) : Bool := a.dev == b.dev && a.result == b.result

/-- Enter a packet into its instance: a payload is entered once its last packet has come, in any order (R312). -/
def enterPart (s : State) (m : CollMsg) : State :=
  let key := instKey m.ctx m.inst
  let c := tgetD s.collectives key {}
  let put (c : Collective) : State := { s with collectives := tset s.collectives key c }
  if c.done then s
  else
    let mine := c.pieces.filter (samePayload m)
    let all : Tab CollMsg := (mine ++ [m]).foldl (fun t x => tset t x.off x) []
    let rest := c.pieces.filter fun x => !samePayload m x
    if (all.map fun x => x.2.data.length).sum < m.size then put { c with pieces := rest ++ all.map (·.2) }
    else put (enterWhole { c with pieces := rest } { m with off := 0, data := all.flatMap fun x => x.2.data })

/-- COLLECTIVE_PACKET (R321, R429): a packet of a newer view is held, up to 64 per port, or goes back; one of an older
view, or of no member, is discarded. -/
def execCollectivePacket (port : Nat) (m : CollMsg) (s : State) : Host.Outcome State Fault Refusal :=
  event_ s (if (portAt s port).state != 3 then none else some (
    if newerView m.view (curView s) then
      let q := tgetD s.ports port {}
      if q.heldPackets.length < 64 then
        { s with ports := tset s.ports port { q with heldPackets := q.heldPackets ++ [m] } }
      else sendOut s { kind := .refused, dev := m.dev, nums := [m.ctx, m.inst, m.view] }
    else if m.view ≠ curView s || !(members s).contains m.dev || m.dev = devNo s then s
    else enterPart s m))

/-- REFUSED_COLLECTIVE_PACKET (R321): the source sends the packet again. -/
def execRefusedCollectivePacket (_g pkt : Nat) (s : State) : Host.Outcome State Fault Refusal :=
  arrival_ s (
    match s.outbox[pkt]? with
    | none => none
    | some p => if p.kind == .collective && !agreementHeld s then some (sendOut s p) else none)

/-- A part does not match this member's post (R320). -/
def mismatch (p : Post) (m : CollMsg) : Bool :=
  m.kind != tKind p.bits || m.op != tOp p.bits || m.fmt != tFmt p.bits || m.rowBytes != tRowb p.bits || m.rows != p.count ||
    m.named != p.named

/-- The status of an instance that completes by its parts: 1 once restarted, unless it is re-weighted (R430). -/
def instanceStatus (p : Post) (c : Collective) : Nat := if c.restarted && !tRwt p.bits then 1 else 0

/-- The result with the re-weighting of R430. -/
def reweighed (p : Post) (c : Collective) (n : Nat) (l : List Byte) : List Byte :=
  if c.restarted && tRwt p.bits then
    let e := max 1 (fmtBits (tFmt p.bits) / 8)
    (List.range (l.length / e)).flatMap fun k => leBytes (reweigh (tFmt p.bits) c.pFirst n (elemAt l e k)) e
  else l

/-- COLLECTIVE_INSTANCE_COMPLETE (R320, R324, R325, R430): the result is written, and the post ends. -/
def execCollectiveInstanceComplete (ctx k : Nat) (s : State) : Host.Outcome State Fault Refusal :=
  event_ s (
    let key := instKey ctx k
    match tget s.collectives key with
    | none => none
    | some c =>
      match tget s.posts c.post with
      | none => none
      | some p =>
        let ms := members s
        if p.phase != .queued || p.status.isSome || c.done || p.view != curView s then none
        else if c.parts.any fun m => mismatch p m.2 then some (endPost s c.post 3)
        else
          let ready := p.sent = postBytes p && ms.all fun d => (tget c.parts d).isSome
          let out : Option (List Byte × Nat) :=
            match c.result with
            | some r => some (r, 0)
            | none =>
              if ready then
                some (reweighed p c ms.length (instanceResult (tKind p.bits) (tOp p.bits) (tFmt p.bits) (tRowb p.bits)
                  p.count (tDev p.bits) c.parts ms (devNo s)), instanceStatus p c)
              else none
          match out with
          | none => none
          | some (r, st) =>
            match transPieces s (.hub p.cluster) p.ctx 1 (resultPieces p r.length) with
            | .error (va, code) => some (pausePost s c.post 1 (devNo s) va code false)
            | .ok ds =>
              let s := sideWrite (notePages s (.hub p.cluster) p.ctx 1 (resultPieces p r.length)) p.team false ds r
              let s := { s with
                posts := tset s.posts c.post { p with delivered := r.length }
                collectives := tset s.collectives key { c with done := true } }
              some (endPost (fireSource s c.post) c.post st))

/-! ### A new view -/

/-- Rank 0 of the old view holds the final result of an instance: every survivor receives its part of it (R430). -/
def passResult (s : State) (old : List Nat) (oldView : Nat) (c : Collective) : State :=
  let m := tgetD c.parts (devNo s) {}
  if c.done && m.view = oldView && old.head? = some (devNo s) then
    let root := (c.parts.find? fun x => !x.2.data.isEmpty).elim 0 (·.1)
    (members s).foldl (fun s d =>
      if d = devNo s then s
      else sendColl s { m with
        view := curView s, result := true,
        data := instanceResult m.kind m.op m.fmt m.rowBytes m.rows root c.parts old d } d) s
  else s

/-- Settle one unfinished collective post when a view has been installed (R321, R430). -/
def settlePost (s : State) (oldView id : Nat) (p : Post) : State :=
  let v := curView s
  let key := instKey p.ctx p.inst
  let c := tgetD s.collectives key {}
  if !isColl (tKind p.bits) || p.status.isSome || p.phase == .waiting then s
  else if p.view = oldView then
    if rootAbsent s p then endPost s id 3
    else
      let p := { p with view := v }
      let s := { s with
        posts := tset s.posts id p
        collectives := tset s.collectives key
          { c with view := v, parts := [], pieces := [], result := none, restarted := true } }
      if p.sent = postBytes p then contribute s p p.old else s
  else if p.view = v then
    if rootAbsent s p then endPost s id 3
    else { s with collectives := tset s.collectives key { c with pFirst := (members s).length } }
  else if newerView p.view v then s
  else endPost s id 1

/-- Packets held for a view that is now installed are entered; older ones go (R321, R429). -/
def releaseHeld (s : State) : State :=
  s.ports.foldl (fun s q =>
    let mine := q.2.heldPackets.filter fun m => m.view == curView s && (members s).contains m.dev
    let rest := q.2.heldPackets.filter fun m => newerView m.view (curView s)
    mine.foldl enterPart { s with ports := tset s.ports q.1 { q.2 with heldPackets := rest } }) s

/-- Install a view: number and map, in one step (R309, R428). -/
def installView (s : State) (num : Nat) (map : BitVec 256) : State :=
  { s with fabric := { s.fabric with viewSet := true, viewNum := num, viewMap := map } }

/-- Install a view and settle the collectives (R321, R430). -/
def changeView (s : State) (num : Nat) (map : BitVec 256) : State :=
  let old := members s
  let oldView := curView s
  let s := installView s num map
  let s := s.collectives.foldl (fun s c => passResult s old oldView c.2) s
  let s := s.posts.foldl (fun s p => settlePost s oldView p.1 (tgetD s.posts p.1 {})) s
  releaseHeld s

end Sys2Proof.Machine
end

