-- ==== Sys2Proof/Machine/Conv.lean ====
section
/-!
DEFINITION. Conversations: protocols, objects, their homes and the instructions that use them (R279 to R285, R326 to
R329, R432, R433).
-/

namespace Sys2Proof.Machine

/-! ### Releases and acquires -/

/-- Wait until every earlier access of the strand is performed and the core's dirty sectors are written back, as a
release at device scope or wider is (R79, R117). -/
def releaseWide (s : State) : Act Unit :=
  let g := curGroup s
  let probe : Out := { kind := .fence, owner := g.owner, who := laneNumbers g (scalarWho s) }
  if isTrailing s g then .ok ()
  else if s.outs.any (fun o => sameThread o.2 probe) then holdHere s
  else if !(pendingWb s g.core fun _ => true).isEmpty then holdHere (askWriteBack s g.core fun _ => true)
  else .ok ()

/-- The action of an acquire at device scope or wider on the L1 (R79). -/
def acquireWide (s : State) : State := dropCleanIf s (curGroup s).core fun _ => true

/-- The record of an external action: its opcode, then its scalar operands (R419). -/
def actionRecord (op : Byte) (l : List Word) : List Byte := op :: l.flatMap wordBytes8

/-! ### Protocols -/

/-- Entry (state, kind) of a protocol (R279). -/
def protoEntry (p : Protocol) (state kind : Nat) : BitVec 16 := p.entries.getD (16 * state + kind) 0#16

/-- V, sender, receiver, next state and BR of an entry (R279). -/
def peValid (e : BitVec 16) : Bool := e.getLsbD 15
/-- SND. -/
def peSender (e : BitVec 16) : Nat := (e.extractLsb' 12 3).toNat
/-- RCV. -/
def peReceiver (e : BitVec 16) : Nat := (e.extractLsb' 9 3).toNat
/-- NEXT. -/
def peNext (e : BitVec 16) : Nat := (e.extractLsb' 4 5).toNat
/-- BR. -/
def peBranch (e : BitVec 16) : Bool := e.getLsbD 3

/-- A protocol image is well formed (R280). -/
def protoOk (header : Word) (rest : List Byte) (p : Protocol) : Bool :=
  header &&& ~~~0x71F#64 == 0#64 && rest.all (· == 0#8) &&
  p.entries.all (fun e => e.extractLsb' 0 3 == 0#3 && decide (peSender e < p.nrole) && decide (peReceiver e < p.nrole)) &&
  (List.range 32).all fun s =>
    let br := ((List.range 16).map (protoEntry p s)).filter peBranch
    br.all fun e => peSender e == peSender (br.headD 0#16)

/-- The protocol that an image of 1,088 bytes holds, none where it is malformed. -/
def protoOf (launch : Nat) (l : List Byte) : Option Protocol :=
  let header := BitVec.ofNat 64 (leNat (l.take 8))
  let entries := (List.range 512).map fun k => BitVec.ofNat 16 (leNat ((l.drop (64 + 2 * k)).take 2))
  let p : Protocol :=
    { launch := launch, init := (header.extractLsb' 0 5).toNat, nrole := (header.extractLsb' 8 3).toNat + 1,
      entries := entries }
  if protoOk header ((l.drop 8).take 56) p then some p else none

/-- A directory entry is in use: its launch has not completed, or an open conversation uses it (R280). -/
def protoLive (s : State) (k : Nat) : Bool :=
  match tget s.protocols k with
  | none => false
  | some p =>
    (match tget s.launches p.launch with
     | some l => !l.done
     | none => false) || s.convs.any fun c => c.2.live && c.2.proto == k

/-- The result of CPROTO and the state after it: the number of a free entry, or a code (R280). -/
def loadProto (s : State) (launch : Nat) (l : List Byte) : Word × State :=
  match protoOf launch l with
  | none => (0x8000000000000002#64, s)
  | some p =>
    match (List.range 256).filter fun k => !protoLive s k with
    | [] => (0x8000000000000001#64, s)
    | ks =>
      let (k, s) := pickFree ks s
      (BitVec.ofNat 64 k, { s with protocols := tset s.protocols k p })

/-- The bytes of global memory that an instruction of the strand itself reads, with their poison: translated, and after
the group's own accesses to them. -/
def readImage (s : State) (a : Word) (n : Nat) : Act (List (Byte × Bool) × State) := do
  let g := curGroup s
  let (segs, s) ← translatePieces g 0 ((cutAt 4096 a.toNat n).map fun x => (BitVec.ofNat 64 x.1, x.2)) s
  holdUntil (!ownAccess s 0 segs) s
  let o : Out := { owner := g.owner, core := g.core }
  .ok ((segs.flatMap fun x => cutAt 16 x.1 x.2).flatMap fun x => laneView s o { pa := x.1 } x.2, s)

/-- CPROTO (R280, R390): a poisoned image steers the directory (R408). -/
def execCproto (o : SdSaOp) (s : State) : Host.Outcome State Fault Refusal :=
  finish_ s (do
    let s ← begin_ { sr := [src o.sa o.fa], sw := [o.sd.toNat], steerS := [o.sa.toNat], hcode := 0x01 } none s
    let g := curGroup s
    let a := getS g o.sa.toNat
    checkAligned 64 [(0, a)]
    dstFull [o.sd.toNat] [] s
    let record := actionRecord 0xE3#8 [a]
    if isTrailing s g then do
      let (v, s) ← outside 3 [] s
      .ok (advance (writeScalar (foldRecord s record) o.sd.toNat (v.headD 0#64) false))
    else do
      let (image, s) ← readImage s a 1088
      need (!image.any (·.2)) 0x18
      let s ← afterCheck .action s
      let (v, s) := loadProto s (launchKey s g) (image.map (·.1))
      let (v, s) ← outside 3 [v] s
      .ok (advance (writeScalar (foldRecord s record) o.sd.toNat (v.headD 0#64) false)))

/-! ### Objects -/

/-- The key of an object: its home and index. -/
def convKey (home obj : Nat) : Nat := 256 * home + obj

/-- The free objects of a home. -/
def freeObjects (s : State) (home : Nat) : List Nat :=
  (List.range (if home < 128 then 64 else 256)).filter fun k => !(tgetD s.convs (convKey home k) {}).live

/-- The homes that COPEN tries, in order (R281): home slices from the one served by the core's router upward, or the
ports of the core's I/O die. -/
def homesOf (core : Nat) (span : Bool) : List Nat :=
  if span then (List.range 16).map fun k => 128 + 16 * (clusterOf core / 7) + k
  else (List.range 98).map fun k => (7 * clusterOf core + core % 14 / 2 + k) % 98

/-- A handle (R281). -/
def handleWord (dev home gen obj : Nat) : Word :=
  BitVec.ofNat 64 (dev * 2 ^ 56 + home * 2 ^ 48 + gen % 65536 * 2 ^ 32 + obj)

/-- The result of COPEN and the state after it (R281). -/
def openConv (s : State) (core proto : Nat) (span : Bool) : Word × State :=
  if !protoLive s proto then (0x8000000000000003#64, s)
  else
    match (homesOf core span).find? fun h => !(freeObjects s h).isEmpty with
    | none => (0x8000000000000001#64, s)
    | some h =>
      let (obj, s) := pickFree (freeObjects s h) s
      let c := tgetD s.convs (convKey h obj) {}
      let new : Conversation :=
        { proto := proto, live := true, state := (tgetD s.protocols proto {}).init, gen := c.gen }
      (handleWord (devNo s) h c.gen obj, { s with convs := tset s.convs (convKey h obj) new })

/-- COPEN (R281). -/
def execCopen (o : CopenOp) (s : State) : Host.Outcome State Fault Refusal :=
  finish_ s (do
    let s ← begin_ { sr := [src o.sa o.fa], sw := [o.sd.toNat], hcode := 0x01 } none s
    let g := curGroup s
    let a := getS g o.sa.toNat
    dstFull [o.sd.toNat] [] s
    let record := actionRecord 0xE4#8 [a]
    if isTrailing s g then do
      let (v, s) ← outside 3 [] s
      .ok (advance (writeScalar (foldRecord s record) o.sd.toNat (v.headD 0#64) (poisonedS g o.sa.toNat)))
    else do
      let s ← afterCheck .action s
      let (v, s) := openConv s g.core a.toNat (bit1 o.span)
      let (v, s) ← outside 3 [v] s
      .ok (advance (writeScalar (foldRecord s record) o.sd.toNat (v.headD 0#64) (poisonedS g o.sa.toNat))))

/-! ### The home -/

/-- DEVN of a handle (R281). -/
def hDev (h : Word) : Nat := (h.extractLsb' 56 8).toNat
/-- HOME of a handle. -/
def hHome (h : Word) : Nat := (h.extractLsb' 48 8).toNat
/-- GEN of a handle. -/
def hGen (h : Word) : Nat := (h.extractLsb' 32 16).toNat
/-- OBJ of a handle. -/
def hObj (h : Word) : Nat := (h.extractLsb' 0 8).toNat

/-- A handle's home is a Frenum port. -/
def portHome (h : Word) : Bool := 128 ≤ hHome h && decide (hHome h < 160)

/-- No object can stand behind a handle: reserved bits, no such home, a home slice of another device, or a lost device
(R281, R326, R432). -/
def staleHandle (s : State) (h : Word) : Bool :=
  h.extractLsb' 8 24 != 0#24 || !(hHome h < 98 || portHome h) ||
  (hDev h != devNo s && (!portHome h || s.fabric.agreement.lost.contains (hDev h)))

/-- A party holds a role of an object. -/
def holds (c : Conversation) (role dev gid : Nat) : Bool :=
  match tget c.roles role with
  | some p => p.dev == dev && p.gid == gid
  | none => false

/-- The home's verdict on a request: none where it waits; else a code (0, or the trap it ends with), the values it
returns, and the object after it (R282 to R285, R327, R328). -/
def judge (s : State) (c : Conversation) (m : ConvMsg) : Option (Nat × List Word × Conversation) :=
  let valid := c.live && c.gen % 65536 == m.gen
  let p := tgetD s.protocols c.proto {}
  match m.op with
  | 0 =>
    if !valid then some (0x22, [], c)
    else if !holds c m.role m.dev m.party then some (0x21, [], c)
    else if 16 ≤ c.msgs.length then none
    else
      let e := protoEntry p c.state m.kind
      if !peValid e || peSender e != m.role then some (0x21, [], c)
      else some (0, [], { c with
        state := peNext e,
        msgs := c.msgs ++ [{ kind := m.kind, sender := m.role, receiver := peReceiver e, payload := m.payload }] })
  | 1 =>
    if !valid then some (0x22, [], c)
    else if !holds c m.role m.dev m.party then some (0x21, [], c)
    else
      match c.msgs.find? fun q => q.receiver == m.role with
      | none => none
      | some q =>
        some (0, BitVec.ofNat 64 (q.kind + 16 * q.sender + 128 * q.payload.length) :: q.payload,
          { c with msgs := c.msgs.eraseP fun q => q.receiver == m.role })
  | 2 =>
    if !valid then some (0, [3#64], c)
    else if p.nrole ≤ m.role then some (0, [2#64], c)
    else if (tget c.roles m.role).isSome && !holds c m.role m.dev m.party then some (0, [1#64], c)
    else some (0, [0#64], { c with roles := tset c.roles m.role { dev := m.dev, gid := m.party } })
  | 3 =>
    if !valid then some (0x22, [], c)
    else if !holds c m.role m.dev m.party then some (0x21, [], c)
    else some (0, [], { c with roles := terase c.roles m.role })
  | _ =>
    if !valid then some (0x22, [], c)
    else if !(c.roles.any fun r => r.2.dev == m.dev && r.2.gid == m.party) then some (0x21, [], c)
    else some (0, [], { c with live := false, gen := c.gen + 1, msgs := [], roles := [] })

/-- Answer a party of another device. -/
def answerFar (s : State) (m : ConvMsg) (code : Nat) (vals : List Word) : State :=
  sendOut s { kind := .convAnswer, dev := m.dev, nums := [m.tag, code], bytes := vals.flatMap wordBytes8 }

/-- Judge the waiting requests of other devices on an object once more, in their order. -/
def serveOnce (s : State) (key : Nat) : State :=
  (tgetD s.convs key {}).waiters.foldl (fun s m =>
    let c := tgetD s.convs key {}
    match judge s c m with
    | none => s
    | some (code, vals, c') =>
      let c' := { c' with waiters := c'.waiters.erase m }
      answerFar { s with convs := tset s.convs key c' } m code vals) s

/-- Judge them until none of them can go on: what one does may let an earlier one go on (R284, R327). -/
def serveWaiters (s : State) (key : Nat) : State :=
  (List.range (tgetD s.convs key {}).waiters.length).foldl (fun s _ => serveOnce s key) s

/-- A request of this device as its home sees it. -/
def localMsg (s : State) (r : ConvRequest) : ConvMsg :=
  { op := r.op, dev := devNo s, party := r.gid, home := hHome r.handle, obj := hObj r.handle, gen := hGen r.handle,
    role := r.role, kind := r.kind, payload := r.payload }

/-- A request of this device is answered. -/
def answerHere (s : State) (id : Nat) (r : ConvRequest) (code : Nat) (vals : List Word) (ended : Bool) : State :=
  let s : State := { s with btes := s.btes.map fun b =>
    (b.1, { b.2 with requests := b.2.requests.map fun q =>
      (q.1, if q.2.kind == 3 && q.2.conv == id then { q.2 with live := false } else q.2) }) }
  let r : ConvRequest := { r with answered := true, code := code, vals := vals, ended := ended }
  { s with convRequests := tset s.convRequests id r }

/-- The group of a request runs: its team is not saved, and it is not in handler mode (R294, R403). -/
def partyRuns (s : State) (gid : Nat) : Bool :=
  match tget s.groups gid with
  | none => true
  | some g => !hmode g && (match g.owner with
    | .team t => (tgetD s.teams t {}).phase == .resident
    | .spawned _ => true)

/-- An earlier request of the same party on the same object is not yet judged (R327). -/
def earlierSend (s : State) (id : Nat) (r : ConvRequest) : Bool :=
  s.convRequests.any fun q => decide (q.1 < id) && q.2.gid == r.gid && q.2.handle == r.handle && q.2.op == 0 &&
    r.op == 0 && !q.2.answered

/-- A party of another device withdraws a request that still waits here: it is answered so, and its message stays (R294). -/
def withdrawAt (s : State) (m : ConvMsg) : State :=
  let key := convKey m.home m.obj
  let c := tgetD s.convs key {}
  let mine (q : ConvMsg) : Bool := q.dev == m.dev && q.tag == m.tag
  if c.waiters.any mine then
    answerFar { s with convs := tset s.convs key { c with waiters := c.waiters.filter fun q => !mine q } } m withdrawn []
  else s

/-- CONV_MESSAGE_AT_HOME (R283, R284, R327): the home judges a request of this device, or one of another. -/
def execConvMessageAtHome (id : Nat) (m : ConvMsg) (s : State) : Host.Outcome State Fault Refusal :=
  event_ s (
    if m.op = 5 then
      match tget s.convRequests id with
      | none => none
      | some r =>
        if (tget s.groups r.gid).isNone then some { s with convRequests := terase s.convRequests id }
        else if r.answered || hDev r.handle ≠ devNo s || !partyRuns s r.gid || earlierSend s id r then none
        else
          let key := convKey (hHome r.handle) (hObj r.handle)
          match judge s (tgetD s.convs key {}) (localMsg s r) with
          | none => none
          | some (code, vals, c) =>
            some (serveWaiters (answerHere { s with convs := tset s.convs key c } id r code vals false) key)
    else if m.home < 128 || 160 ≤ m.home || !linked s then none
    else if m.op = 6 then some (withdrawAt s m)
    else
      let key := convKey m.home m.obj
      let c := tgetD s.convs key {}
      match judge s c m with
      | none => some { s with convs := tset s.convs key { c with waiters := c.waiters ++ [m] } }
      | some (code, vals, c) => some (serveWaiters (answerFar { s with convs := tset s.convs key c } m code vals) key))

/-! ### Instructions that ask a home -/

/-- Conversation requests of a BTE that are outstanding (R326). -/
def convLive (s : State) (g : Nat) : Nat :=
  ((tgetD s.btes g {}).requests.filter fun r => r.2.live && r.2.kind == 3).length

/-- The numbers of a conversation request's packet. -/
def convNums (r : ConvRequest) : List Nat :=
  [r.op, r.party, hHome r.handle, hObj r.handle, hGen r.handle, r.role, r.kind]

/-- Send a request to its home: over the ODN to a home slice, else through the conversation channel of the cluster's
BTE (R326). -/
def sendConv (s : State) (core : Nat) (r : ConvRequest) : Act (Nat × State) :=
  let (id, s1) := freshId s
  let s1 := { s1 with convRequests := tset s1.convRequests id r }
  if !portHome r.handle then .ok (id, s1)
  else
    let g := clusterOf core
    match freeRequest s g with
    | none => waitHere s
    | some tag =>
      if 16 ≤ convLive s g then waitHere s
      else
        let q : Request :=
          { kind := 3, dev := hDev r.handle, nums := convNums r, bytes := r.payload.flatMap wordBytes8, conv := id }
        if hDev r.handle = devNo s then
          let gen := (tget (tgetD s.btes g {}).requests tag).elim 0 (·.gen)
          .ok (id, putRequest s1 g tag
            { q with live := true, gen := gen, sentAt := clockAt s (Config.clockBte g) })
        else .ok (id, sendRequest s1 g tag q)

/-- The party as which a group acts on a role of a handle: the one that bound the role, else its own (R282). -/
def partyFor (g : Group) (gid : Nat) (h : Word) (role : Nat) : Nat :=
  ((g.farRoles.find? fun x => x.1 == h && x.2.1 == role).map (·.2.2)).getD gid

/-- What a far home's answer to a bind, a delegation or a close leaves of the roles that a group knows to hold there. -/
def noteRole (s : State) (op : Nat) (h : Word) (role code : Nat) : State :=
  let g := curGroup s
  if hDev h = devNo s then s
  else if op = 2 && code = 0 then
    setGroup s { g with farRoles := (g.farRoles.filter fun x => !(x.1 == h && x.2.1 == role)) ++
      [(h, role, partyFor g s.cur.gid h role)] }
  else if op = 3 then setGroup s { g with farRoles := g.farRoles.filter fun x => !(x.1 == h && x.2.1 == role) }
  else if op = 4 then setGroup s { g with farRoles := g.farRoles.filter fun x => x.1 != h }
  else s

/-- Ask the home of a handle, and wait for its verdict: its values, and whether the wait was ended by R433. -/
def askHome (op : Nat) (h : Word) (role kind : Nat) (payload : List Word) (s : State) :
    Act (List Word × Bool × State) := do
  let e := curStrand s
  if e.stage = 1 then
    match tget s.convRequests e.request with
    | none => waitHere (setStrand s { e with stage := 0, request := 0 })
    | some r =>
      until_ r.answered s
      need (r.code == 0) r.code
      let s := noteRole s op h role (r.vals.headD 0#64).toNat
      .ok (r.vals, r.ended, { s with convRequests := terase s.convRequests e.request })
  else do
    let s ← afterCheck .action s
    if staleHandle s h then (if op = 2 then .ok ([3#64], false, s) else trapWith 0x22)
    else
      let r : ConvRequest :=
        { gid := s.cur.gid, entry := s.cur.entry, party := partyFor (curGroup s) s.cur.gid h role
          op := op, handle := h, role := role, kind := kind, payload := payload }
      let (id, s) ← sendConv s (curGroup s).core r
      waitHere (setStrand s { curStrand s with stage := 1, request := id })

/-- A strand has had the answer to a request that it sent to a home on another device. -/
def farAnswered (s : State) (e : Entry) : Bool :=
  e.stage == 1 && (match tget s.convRequests e.request with
    | some r => r.answered && hDev r.handle != devNo s
    | none => false)

/-- Requests of some groups at homes of other devices. -/
def farRequests (s : State) (gids : List Nat) : Tab ConvRequest :=
  s.convRequests.filter fun r => gids.contains r.2.gid && portHome r.2.handle && hDev r.2.handle != devNo s

/-- The requests of some groups that homes of other devices have yet to answer are withdrawn, so that no message leaves its
home while their team is saved (R294). -/
def withdrawFar (s : State) (gids : List Nat) : State :=
  (farRequests s gids).foldl (fun s r =>
    if r.2.answered then s
    else s.btes.foldl (fun s b => b.2.requests.foldl (fun s q =>
      if q.2.live && q.2.kind == 3 && q.2.conv == r.1 then
        sendOut s { kind := .conversation, dev := q.2.dev,
                    nums := [b.1, q.1, q.2.gen, 6] ++ (convNums r.2).drop 1 }
      else s) s) s) s

/-- CBIND (R282). -/
def execCbind (o : CbindOp) (s : State) : Host.Outcome State Fault Refusal :=
  finish_ s (do
    let s ← begin_ { sr := [src o.sa o.fa], sw := [o.sd.toNat], hcode := 0x01 } none s
    let g := curGroup s
    let h := getS g o.sa.toNat
    dstFull [o.sd.toNat] [] s
    let record := actionRecord 0xE5#8 [h]
    let (v, s) ← (if isTrailing s g then outside 3 [] s
      else do
        let (v, _, s) ← askHome 2 h o.role.toNat 0 [] s
        outside 3 v s)
    .ok (advance (writeScalar (foldRecord s record) o.sd.toNat (v.headD 0#64) (poisonedS g o.sa.toNat))))

/-- CSEND (R283, R328): a release at device scope, or at system scope for a port home. -/
def execCsend (o : CsendOp) (s : State) : Host.Outcome State Fault Refusal :=
  finish_ s (do
    let run := runOf o.sb.toNat o.n.toNat
    let s ← begin_ { sr := src o.sa o.fa :: run.map (fun r => (r, bit1 o.fb)), steerS := o.sa.toNat :: run,
                     hcode := 0x01 } none s
    let g := curGroup s
    let h := getS g o.sa.toNat
    let payload := run.map (getS g)
    let record := actionRecord 0xE6#8 (h :: payload)
    if isTrailing s g then .ok (advance (foldRecord s record))
    else do
      if (curStrand s).stage = 1 then .ok () else releaseWide s
      let (_, _, s) ← askHome 0 h o.role.toNat o.kind.toNat payload s
      .ok (advance (foldRecord s record)))

/-- CRECV (R284, R433). -/
def execCrecv (o : CrecvOp) (s : State) : Host.Outcome State Fault Refusal :=
  finish_ s (do
    let run := runOf o.sb.toNat 8
    let s ← begin_ { sr := [src o.sa o.fa], sw := o.sd.toNat :: run, hcode := 0x01 } none s
    let g := curGroup s
    let h := getS g o.sa.toNat
    dstFull (o.sd.toNat :: run) [] s
    let record := actionRecord 0xE7#8 [h]
    let (v, s) ← (if isTrailing s g then outside 3 [] s
      else do
        holdUntil ((curStrand s).stage != 0 || !acqPending s) s
        let (v, ended, s) ← askHome 1 h o.role.toNat 0 [] s
        outside 3 ((if ended then 1#64 else 0#64) :: v) s)
    let s := acquireWide (writeScalar (foldRecord s record) o.sd.toNat (v.getD 1 0#64) false)
    let s := (List.range (v.length - 2)).foldl (fun s k =>
      writeScalar s (o.sb.toNat + k) (v.getD (k + 2) 0#64) false) s
    .ok (memberTrap (advance s) (v.headD 0#64 == 1#64)))

/-- CDELEG (R285, R329). -/
def execCdeleg (o : CdelegOp) (s : State) : Host.Outcome State Fault Refusal :=
  finish_ s (do
    let s ← begin_ { sr := [src o.sa o.fa], hcode := 0x01 } none s
    let g := curGroup s
    let h := getS g o.sa.toNat
    let record := actionRecord 0xE8#8 [h]
    if isTrailing s g then .ok (advance (foldRecord s record))
    else do
      let (_, _, s) ← askHome 3 h o.role.toNat 0 [] s
      .ok (advance (foldRecord s record)))

/-- CCLOSE (R285). -/
def execCclose (o : SaOp) (s : State) : Host.Outcome State Fault Refusal :=
  finish_ s (do
    let s ← begin_ { sr := [src o.sa o.fa], hcode := 0x01 } none s
    let g := curGroup s
    let h := getS g o.sa.toNat
    let record := actionRecord 0xE9#8 [h]
    if isTrailing s g then .ok (advance (foldRecord s record))
    else do
      let (_, _, s) ← askHome 4 h 0 0 [] s
      .ok (advance (foldRecord s record)))

/-! ### Lost parties -/

/-- When a view is committed without some devices: waits on objects of theirs end with a conversation-closed trap, and
every role they held here is unbound, which ends every CRECV that waits on those objects (R432, R433). -/
def dropParties (s : State) (gone : List Nat) : State :=
  let s := s.convRequests.foldl (fun s r =>
    if !r.2.answered && gone.contains (hDev r.2.handle) then answerHere s r.1 r.2 0x22 [] false else s) s
  s.convs.foldl (fun s c =>
    let x : Conversation := c.2
    let kept := x.roles.filter fun r => !gone.contains r.2.dev
    if kept.length = x.roles.length then s
    else
      let far := x.waiters.filter fun m => !gone.contains m.dev
      let ended := far.filter fun m => m.op == 1
      let x := { x with roles := kept, waiters := far.filter fun m => m.op != 1 }
      let s := { s with convs := tset s.convs c.1 x }
      let s := ended.foldl (fun s m => answerFar s m 0 [0x8000000000000000#64]) s
      s.convRequests.foldl (fun s r =>
        if !r.2.answered && r.2.op == 1 && hDev r.2.handle == devNo s &&
            convKey (hHome r.2.handle) (hObj r.2.handle) == c.1 then
          answerHere s r.1 r.2 0 [0x8000000000000000#64] true
        else s) s) s

end Sys2Proof.Machine
end

