-- ==== Sys2Proof/Machine/Rows.lean ====
section
/-!
DEFINITION. Rows of the vector register file: what a core has admitted and what it has seated (R32, R44, R60, R61,
R100).
-/

namespace Sys2Proof.Machine

/-- The group belongs to a team whose save is complete. -/
def isSaved (s : State) (g : Group) : Bool :=
  match g.owner with
  | .team t => (tgetD s.teams t {}).phase == .saved
  | .spawned _ => false

/-- The blocks of rows that a group holds, each once: fused children of one split share theirs (R32). -/
def blocksOf (g : Group) : List Nat := g.rowBlocks.foldl sadd1 []

/-- Every row of a group. -/
def groupRows (s : State) (g : Group) : Nat :=
  (blocksOf g).foldl (fun n b => n + (tgetD s.rowBlocks b {}).rows) 0

/-- The rows that a group can give up: those of blocks that no other group shares (R44, log 73). -/
def ownRows (s : State) (gid : Nat) (g : Group) : Nat :=
  ((blocksOf g).filter fun b => s.groups.all fun x => x.1 == gid || !x.2.rowBlocks.contains b).foldl
    (fun n b => n + (tgetD s.rowBlocks b {}).rows) 0

/-- Rows that an escort of `count` registers frees at a width: none below 16, where the rows are shared (R44, R94). -/
def escortRows (count width : Nat) : Nat := if 16 ≤ width then count * (width / 16) else 0

/-- Rows of a group that are abroad with escorts. -/
def escortsOut (s : State) (gid : Nat) (g : Group) : Nat :=
  s.outs.foldl (fun n o =>
    match o.2.coach with
    | some c => if o.2.gid == gid && !o.2.done then n + escortRows c.count g.width else n
    | none => n) 0

/-- Rows of a group that are not in the file. -/
def rowsAway (s : State) (gid : Nat) (g : Group) : Nat :=
  min (groupRows s g)
    ((if g.parked && 16 ≤ g.width then ownRows s gid g else escortsOut s gid g) + (if g.image then g.rowsOut else 0))

/-- Rows admitted on a core (R61). -/
def admittedRows (s : State) (core : Nat) : Nat :=
  s.rowBlocks.foldl (fun n b => if b.2.core = core then n + b.2.rows else n) 0

/-- Rows seated on a core. -/
def seatedRows (s : State) (core : Nat) : Nat :=
  admittedRows s core -
    s.groups.foldl (fun n g => if g.2.core = core && !isSaved s g.2 then n + rowsAway s g.1 g.2 else n) 0

/-- Rows of a core's file that hold nothing. -/
def freeRows (s : State) (core : Nat) : Nat := Config.rowsSeated - seatedRows s core

/-- A new block of rows on a core. -/
def addRows (s : State) (core rows : Nat) : Nat × State :=
  let (id, s) := freshId s
  (id, { s with rowBlocks := tset s.rowBlocks id { core := core, rows := rows } })

end Sys2Proof.Machine
end

