-- ==== Sys2Proof/Machine/Spawn.lean ====
section
/-!
DEFINITION. SPAWN, spawn bins and the groups they launch (R67 to R69, R259, R260).
-/

namespace Sys2Proof.Machine

/-- Vector registers per lane of a launch (R47). -/
def launchV (l : Launch) : Nat := 8 * (recField l.record 192 5 + 1)

/-- A core has a slot and rows for a spawned group of a launch (R61, R68). -/
def spawnFits (s : State) (core : Nat) (l : Launch) : Bool :=
  !(freeSlots s core).isEmpty && decide (admittedRows s core + launchV l ≤ Config.rowsAdmitted) &&
  decide (launchV l ≤ freeRows s core)

/-- The argument words of a bin's records in v0 to v3 (R260). -/
def spawnRegs (recs : List SpawnRec) : Tab Lane :=
  (List.range 4).foldl (fun t r => (List.range recs.length).foldl (fun t l =>
    tset t (laneKey r l) ((recs.getD l {}).args.getD r 0#32)) t) []

/-- The poisoned ones among them. -/
def spawnPoison (recs : List SpawnRec) : List Nat :=
  (List.range 4).flatMap fun r => ((List.range recs.length).filter fun l => (recs.getD l {}).bad.contains r).map
    (laneKey r)

/-- Launch the group of a bin, which becomes empty (R67, R260). -/
def launchBin (s : State) (core bin : Nat) : State :=
  match tget (coreAt s core).bins bin with
  | none => s
  | some b =>
    let l := tgetD s.launches b.launch {}
    let slot := (freeSlots s core).headD 0
    let (rows, s) := addRows s core (launchV l)
    let (k, s) := freshId s
    let (gid, s) := freshId s
    let c := b.recs.length
    let g : Group :=
      { owner := .spawned k, core := core, slot := slot, width := 16, laneNo := List.range 16,
        vregs := spawnRegs b.recs, vpoison := spawnPoison b.recs,
        sregs := [(0, launchArgs l), (1, BitVec.ofNat 64 c), (2, b.counter)],
        stack := [{ id := 0, pc := b.entry, mask := widthMask c }], rowBlocks := [rows] }
    let s := modCore s core fun x => { x with bins := terase x.bins bin }
    { s with
      groups := tset s.groups gid g
      spawned := tset s.spawned k { launch := b.launch, count := c, counter := b.counter, orders := b.recs.map (·.order) } }

/-- Deposit one record on a core; none where the strand must stall (R67, R69). The state notes a bin that must launch. -/
def deposit (s : State) (core : Nat) (key : Nat × Word × Word) (r : SpawnRec) : State × Bool :=
  let bins := (coreAt s core).bins
  let put (s : State) (i : Nat) (b : Bin) : State := modCore s core fun x => { x with bins := tset x.bins i b }
  let fits (s : State) (b : Bin) : Bool := spawnFits s core (tgetD s.launches b.launch {})
  let fresh : Bin :=
    { launch := key.1, entry := key.2.1, counter := key.2.2, recs := [r], since := (coreAt s core).cycle }
  match bins.find? fun b => (b.2.launch, b.2.entry, b.2.counter) == key with
  | some (i, b) =>
    if 16 ≤ b.recs.length then
      if fits s b then (put (launchBin s core i) i fresh, true) else (put s i { b with must := true }, false)
    else
      let b := { b with recs := b.recs ++ [r] }
      let s := put s i b
      if b.recs.length = 16 then
        (if fits s b then launchBin s core i else put s i { b with must := true }, true)
      else (s, true)
  | none =>
    match (List.range 16).find? fun i => (tget bins i).isNone with
    | some i => (put s i fresh, true)
    | none =>
      let first (b : Bin) : Nat := (b.recs.headD {}).order
      let old := bins.foldl (fun a b => if first b.2 < first a.2 then b else a) (bins.headD (0, {}))
      if fits s old.2 then (put (launchBin s core old.1) old.1 fresh, true)
      else (put s old.1 { old.2 with must := true }, false)

/-- Deposit the records of the remaining lanes in increasing order (R69): the state, and the lane it stalls at. -/
def depositLanes (s : State) (core : Nat) (key : Nat × Word × Word) (f : Nat → SpawnRec) : List Nat → State × Option Nat
  | [] => (s, none)
  | l :: r =>
    let (id, s) := freshId s
    match deposit s core key { f l with order := id } with
    | (s, true) => depositLanes s core key f r
    | (s, false) => (s, some l)

/-- The checks of SPAWN's entry and counter, before any record is deposited (R387). -/
def spawnChecks (s : State) (entry counter : Word) : Act Unit := do
  let g := curGroup s
  checkAligned 8 [(0, entry), (0, counter)]
  if highBits counter then trapLane 0x10 0 counter
  let _ ← translateLanes g (ctxOf s g) 1 [(0, counter)] [] false s

/-- SPAWN (R69, R259). A strand that stalled goes on from the lane it stalled at. -/
def execSpawn (o : SpawnOp) (s : State) : Host.Outcome State Fault Refusal :=
  finish_ s (do
    let lanes := guardLanes (curGroup s) (curStrand s) o.gn o.gp
    let e := o.vb.toNat
    let args := runOf o.va.toNat 4
    let s ← begin_ { sr := [(e, bit1 o.fb), (e + 1, bit1 o.fb)], vr := args.map (fun r => (r, bit1 o.fa)),
                     steerS := [e, e + 1], hcode := 0x01 } (some lanes) s
    if lanes.isEmpty then .ok (advance s)
    else do
      let g := curGroup s
      let entry := getS g e
      let counter := getS g (e + 1)
      if (curStrand s).stage = 1 then .ok () else spawnChecks s entry counter
      let record := 0xBA#8 :: wordBytes8 entry ++ wordBytes8 counter
      if isTrailing s g then .ok (advance (foldRecord s record))
      else do
        let s ← afterCheck .action s
        let st := curStrand s
        let due := if st.stage = 1 then lanes.filter (fun l => decide (st.spawnLane ≤ l)) else lanes
        let key := (launchKey s g, entry, counter)
        let f (l : Nat) : SpawnRec :=
          { args := args.map fun r => getV g r l
            bad := (List.range 4).filter fun k => poisonedV g (o.va.toNat + k) l }
        match depositLanes s g.core key f due with
        | (s, none) => .ok (advance (foldRecord s record))
        | (s, some l) => waitHere (setStrand s { curStrand s with stage := 1, spawnLane := l }))

/-! ### Bins and the end of spawned groups -/

/-- SPAWN_BIN_TIMER_EXPIRY (R67): the bin launches, or must as soon as it can. -/
def execSpawnBinTimerExpiry (core bin : Nat) (s : State) : Host.Outcome State Fault Refusal :=
  event_ s (
    match tget (coreAt s core).bins bin with
    | none => none
    | some b =>
      let l := tgetD s.launches b.launch {}
      if b.must || (coreAt s core).cycle < b.since + recField l.record 240 16 + 1 then none
      else if spawnFits s core l then some (launchBin s core bin)
      else some (modCore s core fun x => { x with bins := tset x.bins bin { b with must := true } }))

/-- SPAWN_BIN_LAUNCH (R68): a bin that had to wait launches. -/
def execSpawnBinLaunch (core bin : Nat) (s : State) : Host.Outcome State Fault Refusal :=
  event_ s (
    match tget (coreAt s core).bins bin with
    | none => none
    | some b =>
      if b.must && spawnFits s core (tgetD s.launches b.launch {}) then some (launchBin s core bin) else none)

/-- The owner's stores and atomics are acknowledged and its coaches have returned: no access of it is outstanding
(R56, R260). -/
def accessesDone (s : State) (o : Owner) : Bool := !(s.outs.any fun x => x.2.owner == o)

/-- Narrow-dirty sectors of an owner that are not yet written back to device scope. -/
def ownerDirty (s : State) (o : Owner) : Bool :=
  (s.cores.any fun c => c.2.dirty.any fun d => d.owners.contains o) || s.writeBacks.any fun w => w.2.owners.contains o

/-- Ask for the write-back of an owner's narrow-dirty sectors. -/
def askOwner (s : State) (o : Owner) : State :=
  s.cores.foldl (fun s c =>
    let mine := (c.2.dirty.filter fun d => d.owners.contains o).map (·.sector)
    if mine.isEmpty then s else askWriteBack s c.1 fun k => mine.contains k) s

/-- Some of those sectors have not been asked for. -/
def ownerUnasked (s : State) (o : Owner) : Bool :=
  s.cores.any fun c => c.2.dirty.any fun d => d.owners.contains o && !d.asked

/-- Add to a 64-bit counter in a launch's translation context, as a device- or system-scope release (R56, R260): a
fault leaves it unwritten and tells the management core. -/
def addCounter (s : State) (seq : Nat) (va : Word) (f : Word → Word) : State :=
  match translateNow s .bare (tgetD s.launches seq {}).queue va 1 with
  | .ok (pa, _) => memPut s pa (wordBytes8 (f (mword s.mem pa))) false
  | .error _ => tellMgmt s 1 [seq, va.toNat]

/-- A launch is no longer needed once its last team has retired and no spawned group or bin of it remains. -/
def dropLaunch (s : State) (seq : Nat) : State :=
  match tget s.launches seq with
  | none => s
  | some l =>
    if l.done && !(s.spawned.any fun k => k.2.launch == seq) &&
        !(s.cores.any fun c => c.2.bins.any fun b => b.2.launch == seq) && !(s.posts.any fun p => p.2.launch == seq)
    then { s with launches := terase s.launches seq } else s

/-- Free the groups of an owner. -/
def dropGroups (s : State) (o : Owner) : State :=
  dropRows { s with groups := s.groups.filter fun g => g.2.owner != o }

/-- SPAWNED_GROUP_END (R260, R361, R410): every lane has exited, or its launch is aborted, and its accesses are done;
the counter falls by the number of records, or rises by 2^62 less them when its check bits are set. A group that an
abort stopped has not ended and leaves the counter. -/
def execSpawnedGroupEnd (id : Nat) (s : State) : Host.Outcome State Fault Refusal :=
  event_ s (
    match tget s.spawned id with
    | none => none
    | some k =>
      let o := Owner.spawned id
      let l := tgetD s.launches k.launch {}
      let live := s.groups.any fun g => g.2.owner == o && !g.2.ended
      if (live && !l.aborted) || !accessesDone s o then none
      else if ownerDirty s o then (if ownerUnasked s o then some (askOwner s o) else none)
      else
        let c := BitVec.ofNat 64 k.count
        let bad := k.chk.pc || k.chk.pw || k.chk.pb
        let s := dropGroups s o
        let s := if live then s
          else addCounter s k.launch k.counter fun x => if bad then x + 0x4000000000000000#64 - c else x - c
        some (dropLaunch { s with spawned := terase s.spawned id } k.launch))

end Sys2Proof.Machine
end

