-- ==== Sys2Proof/Machine/View.lean ====
section
/-!
DEFINITION. Ports in error, lost devices, the agreement of views, joins, and the fabric registers that install a view
(R309, R310, R424, R427 to R435, R445), with the end of posts, which may complete an agreement.
-/

namespace Sys2Proof.Machine

/-! ### Ports -/

/-- The packets that a port has not had confirmed. -/
def unconfirmed (p : Port) : List Nat :=
  (p.channels.flatMap fun c => c.2.flits ++ c.2.blocks.flatten ++ c.2.rxTentative).eraseDups

/-- The packets that a port was forwarding for other devices and has not had confirmed. -/
def forwardedOn (s : State) (p : Port) : List Packet :=
  ((p.channels.flatMap fun c => c.2.flits ++ c.2.blocks.flatten).eraseDups.filterMap (s.outbox[·]?)).filter
    (·.kind == .forwarded)

/-- A discard notice goes to the source of a forwarded packet (R424). -/
def noticeFor (s : State) (p : Packet) : State := sendOut s { kind := .discardNotice, dev := p.nums.getD 0 0, nums := [p.dev] }

/-- A port enters ERROR (R344, R424): what is unconfirmed on it is discarded and counted. -/
def failPort (s : State) (k errc : Nat) : State :=
  let p := portAt s k
  let p' : Port := { p with state := 4, errc := errc, channels := [], retries := p.retries + (unconfirmed p).length }
  { s with ports := tset s.ports k p' }

/-- A port enters ERROR, and the sources of the packets it was forwarding are told (R424, R436). -/
def portError (s : State) (k errc : Nat) : State := (forwardedOn s (portAt s k)).foldl noticeFor (failPort s k errc)

/-- The port is a device link (R343). -/
def isLink (p : Port) : Bool := (p.cfg.extractLsb' 0 2).toNat == 1

/-- PEER of a port's configuration (R343). -/
def peerOf (p : Port) : Nat := (p.cfg.extractLsb' 8 8).toNat

/-! ### Members and proposals -/

/-- The agreement changed. -/
def modAgreement (s : State) (f : Agreement → Agreement) : State :=
  { s with fabric := { s.fabric with agreement := f s.fabric.agreement } }

/-- The members that are not lost (R428). -/
def liveMembers (s : State) : List Nat := (members s).filter fun d => !s.fabric.agreement.lost.contains d

/-- This device takes part in the agreement, and coordinates it: it is the lowest-numbered member not lost (R310,
R428). -/
def coordinates (s : State) : Bool :=
  s.fabric.viewSet && !s.fabric.agreement.outside && (liveMembers s).head? == some (devNo s)

/-- The number of the next view (R428). -/
def nextViewNum (s : State) : Nat := if curView s = 0xFFFE then 0 else curView s + 1

/-- A membership bitmap, and its devices. -/
def mapOf (l : List Nat) : BitVec 256 := l.foldl (fun m d => withBit m d true) 0#256
/-- The devices of a bitmap, rising. -/
def mapList (m : BitVec 256) : List Nat := (List.range 256).filter fun d => m.getLsbD d

/-- A proposal may be committed: more than half of the old view, or half with its lowest member (R428). -/
def majority (s : State) (map : BitVec 256) : Bool :=
  let old := members s
  let k := (old.filter fun d => map.getLsbD d).length
  decide (old.length < 2 * k) || (2 * k == old.length && map.getLsbD (old.headD 0))

/-- A message of the agreement. -/
def viewPacket (k : PacketKind) (m : ViewMsg) (dev : Nat) : Packet :=
  { kind := k, dev := dev, nums := [m.dev, m.num, if m.joining then 1 else 0], bytes := leBytes m.map.toNat 32 }

/-- Send a message of the agreement to every other device of its map. -/
def toMap (s : State) (k : PacketKind) (m : ViewMsg) : State :=
  (mapList m.map).foldl (fun s d => if d = devNo s then s else sendOut s (viewPacket k m d)) s

/-- This device is outside the view (R428): its collective posts finish with status 1. -/
def goOutside (s : State) : State :=
  let s := modAgreement s fun a => { a with outside := true, proposal := none, mine := false, answered := false,
                                            owesAccept := false }
  s.posts.foldl (fun s p =>
    if isColl (tKind p.2.bits) && p.2.phase != .waiting && p.2.status.isNone then endPost s p.1 1 else s) s

/-- The agreement after a view has been installed: devices that left are lost, those that joined are not. -/
def agreementAfter (a : Agreement) (old gone : List Nat) (map : BitVec 256) : Agreement :=
  { lost := (a.lost.filter fun d => !(map.getLsbD d && !old.contains d) && !gone.contains d) ++ gone
    downs := a.downs.filter fun d => map.getLsbD d.1 && map.getLsbD d.2
    joiners := a.joiners.filter fun d => !map.getLsbD d }

/-- Ports whose link peer is absent from a committed view (R445). -/
def dropPeers (s : State) (map : BitVec 256) : State :=
  s.ports.foldl (fun s p =>
    if p.2.state = 3 && isLink p.2 && !map.getLsbD (peerOf p.2) then portError s p.1 7 else s) s

/-- Install a committed view (R428, R430, R432, R433, R445); the registers then read it (R309). -/
def commitView (s : State) (m : ViewMsg) : State :=
  let old := members s
  let gone := old.filter fun d => !m.map.getLsbD d
  let s := dropPeers (dropParties (changeView s m.num m.map) gone) m.map
  let words : Tab Word := (List.range 4).map fun k => (k, m.map.extractLsb' (64 * k) 64)
  { s with fabric := { s.fabric with staged := words, agreement := agreementAfter s.fabric.agreement old gone m.map } }

/-- Every device of this coordinator's proposal has accepted it: it is committed (R428). -/
def maybeCommit (s : State) : State :=
  let a := s.fabric.agreement
  match a.proposal with
  | some m =>
    if a.mine && (mapList m.map).all (a.accepted.contains ·) && majority s m.map then commitView (toMap s .commit m) m
    else s
  | none => s

/-- Open a proposal (R428, R435): the coordinator accepts it itself, a join only once it has no unfinished collective
post. -/
def openProposal (s : State) (m : ViewMsg) : State :=
  let s := toMap s .propose m
  if !majority s m.map then goOutside s
  else
    let owes := m.joining && collUnfinished s
    maybeCommit (modAgreement s fun a => { a with
      proposal := some m, mine := true, accepted := if owes then [] else [devNo s], waiting := [], answered := !owes,
      owesAccept := owes, since := clockAt s Config.clockView })

/-- Propose the view without the lost devices (R428). -/
def openLoss (s : State) : State :=
  openProposal s { dev := devNo s, num := nextViewNum s, map := mapOf (liveMembers s) }

/-- Propose the view with a device that asked to join (R435). -/
def openJoin (s : State) (d : Nat) : State :=
  openProposal s { dev := devNo s, num := nextViewNum s, map := mapOf (members s ++ [d]), joining := true }

/-- What a coordinator goes on with: losses first, then a join (R435). -/
def goOn (s : State) : State :=
  let a := s.fabric.agreement
  if !coordinates s || a.proposal.isSome then s
  else if (members s).any a.lost.contains then openLoss s
  else
    match a.joiners with
    | d :: _ => openJoin s d
    | [] => s

/-- A member is lost (R427): an open join ends, and the coordinator proposes the view without it (R428, R435). -/
def loseDevice (s : State) (d : Nat) : State :=
  let a := s.fabric.agreement
  if !s.fabric.viewSet || a.outside || d = devNo s || !(members s).contains d || a.lost.contains d then s
  else
    let ends : Bool := match a.proposal with
      | some m => m.joining || m.dev == d || (a.mine && m.map.getLsbD d)
      | none => false
    goOn (modAgreement s fun a =>
      if ends then { a with lost := sadd1 a.lost d, proposal := none, mine := false, answered := false,
                            owesAccept := false }
      else { a with lost := sadd1 a.lost d })

/-- The device's row or column is another's (R427). -/
def sharesLine (a b : Nat) : Bool := a != b && (a / 16 == b / 16 || a % 16 == b % 16)

/-- A device is lost when every member that shares its row or column has reported its link to it down (R427). -/
def noteDown (s : State) (dev peer : Nat) : State :=
  let s := modAgreement s fun a => { a with downs := if a.downs.contains (dev, peer) then a.downs
                                                     else a.downs ++ [(dev, peer)] }
  let near := (liveMembers s).filter (sharesLine peer)
  if !near.isEmpty && near.all fun d => s.fabric.agreement.downs.contains (d, peer) then loseDevice s peer else s

/-- A link goes down (R424): its port enters ERROR, and this member reports it (R427). -/
def linkDown (s : State) (k errc : Nat) : State :=
  let p := portAt s k
  let s := portError s k errc
  if !isLink p || !s.fabric.viewSet then s
  else
    let me := devNo s
    let s := (liveMembers s).foldl (fun s d =>
      if d = me || d = peerOf p then s else sendOut s { kind := .linkDown, dev := d, nums := [peerOf p] }) s
    noteDown s me (peerOf p)

/-- An ACCEPT that waited for the last collective post is sent once there is none (R435). -/
def settleAccept (s : State) : State :=
  let a := s.fabric.agreement
  match a.proposal with
  | none => s
  | some m =>
    if !a.owesAccept || collUnfinished s then s
    else
      let s := modAgreement s fun a => { a with owesAccept := false, answered := true }
      if a.mine then goOn (maybeCommit (modAgreement s fun a => { a with accepted := sadd1 a.accepted (devNo s) }))
      else sendOut s (viewPacket .accept m m.dev)

/-! ### Steps -/

/-- FATAL_REPORT (R427). -/
def execFatalReport (dev : Nat) (s : State) : Host.Outcome State Fault Refusal := arrival_ s (some (loseDevice s dev))

/-- LINK_DOWN_REPORT (R427). -/
def execLinkDownReport (dev peer : Nat) (s : State) : Host.Outcome State Fault Refusal :=
  arrival_ s (if s.fabric.viewSet && (members s).contains dev then some (noteDown s dev peer) else none)

/-- A proposal concerns this device: it is the next view of a member that may coordinate it, or it lets this device in. -/
def proposalFor (s : State) (m : ViewMsg) : Bool :=
  m.dev != devNo s && m.map.getLsbD (devNo s) &&
    (if s.fabric.viewSet && !s.fabric.agreement.outside then
      (members s).contains m.dev && m.num == nextViewNum s &&
        ((members s).all fun d => decide (m.dev ≤ d) || !m.map.getLsbD d)
     else m.joining)

/-- PROPOSE (R428, R435): a member rejects a map with a device it knows to be lost, answers WAIT to a join while it has
unfinished collective posts, and accepts otherwise. -/
def execPropose (m : ViewMsg) (s : State) : Host.Outcome State Fault Refusal :=
  arrival_ s (
    if !proposalFor s m then none
    else
      match s.fabric.agreement.lost.find? fun d => m.map.getLsbD d && (members s).contains d with
      | some d => some (sendOut s { viewPacket .reject m m.dev with nums := [d] })
      | none =>
        let inside := s.fabric.viewSet && !s.fabric.agreement.outside
        if inside && !majority s m.map then some (goOutside (sendOut s (viewPacket .accept m m.dev)))
        else
          let owes := m.joining && collUnfinished s
          let s := modAgreement s fun a =>
            { a with proposal := some m, mine := false, answered := !owes, owesAccept := owes }
          some (sendOut s (viewPacket (if owes then .wait else .accept) m m.dev)))

/-- The open proposal of this coordinator, where a device is in its map. -/
def mineWith (s : State) (dev : Nat) : Option ViewMsg :=
  s.fabric.agreement.proposal.bind fun m =>
    if s.fabric.agreement.mine && m.map.getLsbD dev then some m else none

/-- ACCEPT (R428). -/
def execAccept (dev : Nat) (s : State) : Host.Outcome State Fault Refusal :=
  arrival_ s ((mineWith s dev).map fun _ =>
    goOn (maybeCommit (modAgreement s fun a =>
      { a with accepted := sadd1 a.accepted dev, waiting := sdel1 a.waiting dev })))

/-- REJECT (R428): the device it names is lost, and the view is proposed again without it. -/
def execReject (dev lost : Nat) (s : State) : Host.Outcome State Fault Refusal :=
  arrival_ s ((mineWith s dev).map fun _ => loseDevice s lost)

/-- WAIT (R435). -/
def execWait (dev : Nat) (s : State) : Host.Outcome State Fault Refusal :=
  arrival_ s ((mineWith s dev).bind fun m =>
    if m.joining then some (modAgreement s fun a => { a with waiting := sadd1 a.waiting dev }) else none)

/-- PROPOSE_ANSWER_TIMEOUT (R428, R435): after 2^20 cycles a member that has not answered is lost; one that waits in a
join is asked again. -/
def execProposeAnswerTimeout (dev : Nat) (s : State) : Host.Outcome State Fault Refusal :=
  event_ s ((mineWith s dev).bind fun m =>
    let a := s.fabric.agreement
    let now := clockAt s Config.clockView
    if a.accepted.contains dev || now < a.since + 2 ^ 20 then none
    else if !m.joining then some (loseDevice s dev)
    else if a.waiting.contains dev then
      some (modAgreement (sendOut s (viewPacket .propose m dev)) fun a => { a with since := now })
    else none)

/-- COMMIT (R428): the view that this member accepted is installed. -/
def execCommit (m : ViewMsg) (s : State) : Host.Outcome State Fault Refusal :=
  arrival_ s (
    let a := s.fabric.agreement
    match a.proposal with
    | some p =>
      if a.mine || !a.answered || p.num != m.num || p.map != m.map || p.dev != m.dev then none
      else some (goOn (commitView s m))
    | none => none)

/-- JOIN (R434, R435): the coordinator admits the device at the next collective boundary. -/
def execJoin (dev : Nat) (s : State) : Host.Outcome State Fault Refusal :=
  arrival_ s (
    if coordinates s && !(members s).contains dev && decide (dev < 256) then
      some (goOn (modAgreement s fun a => { a with joiners := sadd1 a.joiners dev }))
    else none)

/-- The staged membership bitmap (R309). -/
def stagedMap (s : State) : BitVec 256 :=
  (List.range 4).foldl (fun m k => m ||| ((tgetD s.fabric.staged k 0#64).setWidth 256 <<< (64 * k))) 0#256

/-- A write to VIEWNUM (R309): the number and the staged map become the view, but for the cases that R309 names. -/
def writeViewnum (s : State) (v : Word) : State :=
  let num := v.toNat % 2 ^ 16
  let map := stagedMap s
  if !map.getLsbD (devNo s) || num = 0xFFFF || collUnfinished s then s
  else
    modAgreement (changeView s num map) fun a =>
      { a with outside := false, proposal := none, mine := false, answered := false, owesAccept := false }

/-- VIEWNUM_WRITE (R309). -/
def execViewnumWrite (v : Word) (s : State) : Host.Outcome State Fault Refusal :=
  event_ s (if s.boot.stage = 3 then some (writeViewnum s v) else none)

/-- A write to FRPOS (R309): ignored while a port is LOCKED or RUN. -/
def writeFrpos (s : State) (v : Word) : State :=
  if s.ports.any fun p => p.2.state == 2 || p.2.state == 3 then s
  else { s with fabric := { s.fabric with frpos := v &&& 0xFF#64 } }

/-- FRPOS_WRITE (R309). -/
def execFrposWrite (v : Word) (s : State) : Host.Outcome State Fault Refusal :=
  event_ s (if s.boot.stage = 3 then some (writeFrpos s v) else none)

/-! ### The end of a post -/

/-- POST_FINISH (R277): the targets fire, the tile of a delivery becomes ready or empty, and the entry shows the
status. -/
def execPostFinish (id : Nat) (s : State) : Host.Outcome State Fault Refusal :=
  event_ s (
    match tget s.posts id with
    | none => none
    | some p =>
      match p.status with
      | none => none
      | some st =>
        if !postTeamRuns s p || !(p.ended || (targetsReady s p && p.slots.isEmpty)) then none
        else
          let s := if copiesRun s p.team && !p.ended then endTeam s id p st else s
          some (settleAccept (dropLaunch { s with posts := terase s.posts id } p.launch)))

end Sys2Proof.Machine
end

