-- ==== Sys2Proof/Machine/Boot.lean ====
section
/-!
DEFINITION. Power, boot, measurement, and security alarms (R331, R335 to R341, R347, R348, R437).
-/

namespace Sys2Proof.Machine

/-- The boot block changed. -/
def modBoot (s : State) (f : Boot → Boot) : State := { s with boot := f s.boot }

/-- A measurement register (R339). -/
def measureOf (s : State) (k : Nat) : BitVec 256 := tgetD s.measures k 0#256

/-- Extend a measurement register by a 32-byte value (R339). -/
def extendMr (s : State) (k : Nat) (x : BitVec 256) : State :=
  { s with measures := tset s.measures k (Config.sha256 (leBytes (measureOf s k).toNat 32 ++ leBytes x.toNat 32)) }

/-- Counter fuses blown so far: the leaf index of the next boot (R340). -/
def counterOf (s : State) : Nat := Config.fusedCount + s.boot.blown

/-- The fuse state that MR3 covers, as bytes (R339): the manual does not lay them out (log 15). -/
def fuseBytes (s : State) : List Byte :=
  leBytes (counterOf s) 4 ++ leBytes Config.fusedFloor 4 ++ [if s.boot.revoked then 1#8 else 0#8] ++
    [if s.boot.armed then 1#8 else 0#8]

/-! ### Power -/

/-- What is left when power goes: the fuses, and the model's own counters (R331). -/
def withoutPower (s : State) : State :=
  { State.reset with
    boot := { powered := false, blown := s.boot.blown, revoked := s.boot.revoked }
    agenda := s.agenda, turnNo := s.turnNo, freeNo := s.freeNo, progress := s.progress, nextId := s.nextId }

/-- The boot halts with a code (R336, R338): as after any failure the staging block is zeroed and the claim released. -/
def haltBoot (s : State) (code : Nat) : State :=
  modBoot s fun b => { b with stage := 4, code := code, staging := [], owner := none }

/-- The boot ROM starts (R336, R339, R340): MR0 and MR3, the next counter fuse, the boot's seed, and STAGE 1. -/
def bootRom (s : State) (seed : Word) : State :=
  let s := extendMr s 0 (Config.sha256 Config.romText)
  let s := extendMr s 3 (Config.sha256 (fuseBytes s))
  if s.boot.revoked then haltBoot s 6
  else if 65536 ≤ counterOf s then haltBoot s 5
  else modBoot s fun b =>
    { b with stage := 1, bootNum := counterOf s, blown := b.blown + 1, tree := true, seed := seed, signatures := 0 }

/-- POWER_UP (R331, R336): every register takes its reset value and the boot ROM runs. -/
def execPowerUp (seed : Word) (s : State) : Host.Outcome State Fault Refusal :=
  event_ s (
    if s.boot.powered && s.boot.stage != 0 then none
    else some (bootRom (modBoot (withoutPower s) fun b => { b with powered := true }) seed))

/-- POWER_OFF (R331). -/
def execPowerOff (s : State) : Host.Outcome State Fault Refusal :=
  event_ s (if s.boot.powered then some (withoutPower s) else none)

/-- JUNCTION_100C (R347). -/
def execJunction100C (s : State) : Host.Outcome State Fault Refusal :=
  event_ s (some (modBoot s fun b => { b with clocksLow := true }))

/-- JUNCTION_110C (R347): power is removed. -/
def execJunction110C (s : State) : Host.Outcome State Fault Refusal :=
  event_ s (if s.boot.powered then some (withoutPower s) else none)

/-! ### The boot ROM and its owner -/

/-- A port writes CLAIM while no port owns the boot (R336). -/
def claimBoot (s : State) (port : Nat) : Option State :=
  if s.boot.stage = 1 && s.boot.owner.isNone then some (modBoot s fun b => { b with owner := some port }) else none

/-- The owner writes GO (R336). -/
def goBoot (s : State) (port : Nat) : Option State :=
  if s.boot.stage = 1 && s.boot.owner == some port then some (modBoot s fun b => { b with stage := 2 }) else none

/-- CLAIM (R336, R348): of the ports that write it in one cycle the lowest-numbered owns the boot. -/
def execClaim (ports : List Nat) (s : State) : Host.Outcome State Fault Refusal :=
  event_ s (((List.range 32).find? fun k => ports.contains k).bind (claimBoot s))

/-- GO (R336). -/
def execGo (port : Nat) (s : State) : Host.Outcome State Fault Refusal := event_ s (goBoot s port)

/-- Bytes of the staged image. -/
def imageBytes (s : State) (a n : Nat) : List Byte := mread s.boot.staging a n

/-- The boot status code of the staged image (R337, R338); 0 accepts it. -/
def imageCode (s : State) : Nat :=
  let f := leNat (imageBytes s 8 8)
  let m := leNat (imageBytes s 16 8)
  let zero (a n : Nat) : Bool := (imageBytes s a n).all (· == 0#8)
  let len := 2048 + f + m
  if leNat (imageBytes s 0 4) ≠ 0x5746545A || s.boot.length ≠ len || 2 ^ 24 < len || 2 ^ 21 < f || !zero 24 40 ||
      !zero 120 8 || !zero 1740 308 then 1
  else if Config.sha256 (imageBytes s 64 56) ≠ Config.fusedKeyHash then 2
  else if !Config.lmsVerifies (imageBytes s 64 56) (imageBytes s 0 128 ++ imageBytes s 2048 (f + m))
      (imageBytes s 128 1612) then 3
  else if leNat (imageBytes s 4 4) < Config.fusedFloor then 4
  else 0

/-- BOOT_VERIFY_DONE (R336, R337): the firmware starts, or the boot waits for another image. -/
def execBootVerifyDone (s : State) : Host.Outcome State Fault Refusal :=
  event_ s (
    if s.boot.stage ≠ 2 then none
    else
      match imageCode s with
      | 0 =>
        let f := leNat (imageBytes s 8 8)
        let m := leNat (imageBytes s 16 8)
        let fw := imageBytes s 2048 f
        let mc := imageBytes s (2048 + f) m
        let s := extendMr s 1 (Config.sha256 (imageBytes s 0 128 ++ fw))
        let s := extendMr s 2 (Config.sha256 mc)
        some (modBoot s fun b => { b with stage := 3, code := 0, firmware := fw, microcode := mc, staging := [] })
      | c => some (modBoot s fun b => { b with stage := 1, code := c, staging := [], owner := none }))

/-- MR_EXTEND (R339, R346): firmware extends MR4 to MR7. -/
def execMrExtend (k : Nat) (x : List Byte) (s : State) : Host.Outcome State Fault Refusal :=
  event_ s (
    if s.boot.stage = 3 && 4 ≤ k && decide (k < 8) && x.length == 32 then
      some (extendMr s k (BitVec.ofNat 256 (leNat x)))
    else none)

/-! ### Alarms -/

/-- Memory without the bytes of a range: it reads as zero. -/
def zeroRange (lo hi : Nat) (s : State) : State :=
  { s with mem := s.mem.filter fun c => !(decide (lo ≤ c.1) && decide (c.1 < hi)),
           poison := s.poison.filter fun k => !(decide (lo ≤ 8 * k) && decide (8 * k < hi)) }

/-- The DRAM range of a port (R343). -/
def portRange (p : Port) : Nat × Nat :=
  ((p.cfg.extractLsb' 16 10).toNat * 2 ^ 30, (p.cfg.extractLsb' 32 10).toNat * 2 ^ 30)

/-- Level 1 (R437): a fatal report, and every port in ERROR, so that no notice of what it discards can leave. -/
def alarmOne (s : State) : State := (List.range 32).foldl (fun s k => failPort s k 5) (reportFatal s)

/-- Level 2 (R437): launches are aborted, keys and the seed are gone, scratchpads, vaults and locked ranges are zeroed. -/
def alarmTwo (s : State) (locked : List (Nat × Nat)) : State :=
  let s := s.launches.foldl (fun s l => abortLaunch s l.1 []) s
  let s := { s with
    ports := s.ports.map fun p => (p.1, { p.2 with session := {}, keys := none })
    teams := s.teams.map fun t => (t.1, { t.2 with share := [], sharePoison := [] }) }
  let s := modBoot s fun b => { b with tree := false, seed := 0#64 }
  locked.foldl (fun s r => zeroRange r.1 r.2 s) (zeroRange Config.vaultBase (Config.vaultBase + Config.vaultSize) s)

/-- The level at which a condition acts (R437): a second level-1 condition is one of level 2, and one of level 3 while
level 3 is not armed acts as level 2. -/
def alarmLevel (s : State) (level : Nat) : Nat :=
  let l := if level = 1 && 1 ≤ s.boot.alarm then 2 else level
  if l = 3 && !s.boot.armed then 2 else l

/-- SECURITY_ALARM (R437): the actions of the level and of those below it; during boot it halts the device with code 7
(R348), and level 3 blows the identity-revoke fuse. -/
def execSecurityAlarm (level : Nat) (s : State) : Host.Outcome State Fault Refusal :=
  event_ s (
    if level = 0 || 3 < level || !s.boot.powered then none
    else
      let l := alarmLevel s level
      let locked := (s.ports.filter fun p => p.2.state == 2 || p.2.state == 3).map fun p => portRange p.2
      let booting := decide (s.boot.stage < 3)
      let s := alarmOne s
      let s := if 2 ≤ l then alarmTwo s locked else s
      let s := if l = 3 then modBoot s fun b => { b with revoked := true, stage := 4 } else s
      let s := if booting then haltBoot s 7 else s
      some (modBoot s fun b => { b with alarm := max b.alarm l }))

end Sys2Proof.Machine
end

