-- ==== Sys2Proof/Machine/Coach.lean ====
section
/-!
DEFINITION. Coaches: their trains, their anchor slice, their landing, bounce and faults, and the landing area (R44 to
R46, R94 to R105, R383, R393 to R396).
-/

namespace Sys2Proof.Machine

/-! ### Trains -/

/-- The train of a coach. -/
def trainOf (s : State) (id : Nat) : Option Nat :=
  (s.trains.find? fun t => t.2.cargo == .coach && t.2.item == id).map (·.1)

/-- Change the coach of an access. -/
def modCoach (s : State) (id : Nat) (f : Coach → Coach) : State :=
  { s with outs := tmod s.outs id fun o => { o with coach := o.coach.map f } }

/-- The coach of an access. -/
def coachOf (s : State) (id : Nat) : Option (Out × Coach) :=
  match tget s.outs id with
  | some o => o.coach.map fun c => (o, c)
  | none => none

/-- A coach leaves for its anchor once what comes before its access is performed: it joins its core's trains (R96,
R132). -/
def sendTrain (s : State) (id : Nat) : State :=
  match coachOf s id with
  | some (o, c) =>
    if c.phase == .queued && (trainOf s id).isNone && outReady o then newTrain s o.core .coach id false else s
  | none => s

/-- Every coach that may leave joins its core's trains. -/
def sendCoaches (s : State) (core : Nat) : State :=
  ((s.outs.filter fun o => o.2.core == core).map (·.1)).foldl sendTrain s

/-- ODN_TRAIN_INJECT (R96, R97): a source with fewer than four trains in flight injects its oldest. -/
def execOdnTrainInject (src : Nat) (s : State) : Host.Outcome State Fault Refusal :=
  event_ s (
    let s := sendCoaches s src
    let q := sourceAt s src
    match q.inject with
    | [] => none
    | id :: rest =>
      if 4 ≤ q.flight.length then none
      else
        let t := tgetD s.trains id {}
        let s := { s with sources := tset s.sources src { inject := rest, flight := q.flight ++ [id] } }
        some (if t.cargo == .coach then modCoach s t.item fun c => { c with phase := if t.home then .homeward else .outward }
              else s))

/-- What a train carried has arrived (R96). -/
def arrived (s : State) (t : Train) : State :=
  match t.cargo with
  | .access => { s with outs := tmod s.outs t.item fun o => { o with away := false } }
  | .writeBack => { s with writeBacks := tmod s.writeBacks t.item fun w => { w with away := false } }
  | .notice => { s with notices := tmod s.notices t.item fun n => { n with away := false } }
  | .promotion => { s with promotions := tmod s.promotions t.item fun p => { p with away := false } }
  | .coach | .landing => s

/-- ODN_TRAIN_DELIVERED (R96): a coach stands before its anchor's store, or is back at its core; any other train is
unloaded. -/
def execOdnTrainDelivered (id : Nat) (s : State) : Host.Outcome State Fault Refusal :=
  event_ s (
    match tget s.trains id with
    | none => none
    | some t =>
      if !(sourceAt s t.src).flight.contains id then none
      else if t.cargo != .coach then some (arrived (dropTrain s id) t)
      else if t.home then some (modCoach (holdGolden s id t.item) t.item fun c => { c with phase := .returned })
      else
        match coachOf s t.item with
        | some (_, c) => if c.phase == .outward then some (modCoach s t.item fun c => { c with phase := .before }) else none
        | none => some (dropTrain s id))

/-! ### The anchor slice -/

/-- Coaches in the store of a slice (R99). -/
def storedAt (s : State) (sl : Nat) : List Coach :=
  s.outs.filterMap fun o => match o.2.coach with
    | some c => if c.phase == .stored && c.anchor == sl then some c else none
    | none => none

/-- A coach store has room for a coach (R99). -/
def storeRoom (s : State) (c : Coach) : Bool :=
  let l := storedAt s c.anchor
  decide (l.foldl (fun n x => n + x.carriages) 0 + c.carriages ≤ 8192) && decide (l.length < 4096)

/-- COACH_AT_ANCHOR (R99): admitted where the store has room; else deflected, or, golden, sent back to its core. -/
def execCoachAtAnchor (id : Nat) (s : State) : Host.Outcome State Fault Refusal :=
  event_ s (
    match coachOf s id, trainOf s id with
    | some (_, c), some t =>
      if c.phase != .before then none
      else if storeRoom s c then some (modCoach (dropTrain s t) id fun c => { c with phase := .stored })
      else if isGolden s t then
        let s := { s with trains := tmod s.trains t fun x => { x with home := true } }
        some (modCoach s id fun c => { c with phase := .homeward, status := 1 })
      else some (modCoach s id fun c => { c with phase := .outward })
    | _, _ => none)

/-- The status with which a lane's physical address fails at the anchor, 0 where it passes (R393). -/
def laneStatus (s : State) (o : Out) (a : LaneAcc) : Nat :=
  if o.space = 1 then 0
  else if Config.dramSize < a.pa + o.size then 0x10
  else if !inPortRange s o.ctx a.pa o.size then 0x11 else 0

/-- The status and lane with which a coach goes home: the lowest failing lane, else the lowest with poison (R105,
R383, R393). -/
def coachStatus (s : State) (o : Out) : Nat × Nat × Word :=
  match o.lanes.find? fun a => laneStatus s o a != 0 with
  | some a => (laneStatus s o a, a.lane, a.va)
  | none =>
    match o.lanes.find? fun a => a.resPoison != 0#4 with
    | some a => (0x18, a.lane, 0#64)
    | none => (0, 0, 0#64)

/-- A coach leaves its anchor for its core. -/
def sendHome (s : State) (id : Nat) (c : Coach) : State :=
  newTrain (modCoach s id fun _ => c) (sliceSource c.anchor) .coach id true

/-- COACH_ACCESS_DONE (R95, R393): every lane but the failing ones is performed, those of an acquire once the cores that own
its lines are promoted (R119), and the coach goes home. -/
def execCoachAccessDone (id : Nat) (s : State) : Host.Outcome State Fault Refusal :=
  event_ s (
    match coachOf s id with
    | none => none
    | some (o, c) =>
      if c.phase != .stored || !outReady o then none
      else if !(promotes s o).isEmpty then some (promote s id o)
      else
        let good := (List.range o.lanes.length).filter fun k => laneStatus s o (o.lanes.getD k {}) == 0
        let s' := good.foldl (fun s k => performLane s id k) s
        let (st, lane, addr) := coachStatus s' (tgetD s'.outs id {})
        let s' := if st = 0x10 then tellMgmt s' 3 [o.core, c.tag, addr.toNat] else s'
        some (sendHome s' id { c with phase := .homeward, status := st, lane := lane, addr := addr }))

/-- COACH_LOST (R394): a coach whose header cannot be corrected goes home as a lost notice, not performed. -/
def execCoachLost (id : Nat) (s : State) : Host.Outcome State Fault Refusal :=
  event_ s (
    match coachOf s id, trainOf s id with
    | some (_, c), some t =>
      if c.phase != .before then none
      else some (sendHome (dropTrain s t) id { c with phase := .homeward, status := 0x19, lost := true })
    | _, _ => none)

/-- COACH_GUARD_FAILURE (R394, R427): the train is discarded, a fatal device error is reported, and every active
launch is aborted with code 0x19 in its event. -/
def execCoachGuardFailure (id : Nat) (s : State) : Host.Outcome State Fault Refusal :=
  event_ s (
    match coachOf s id, trainOf s id with
    | some _, some t =>
      if !(sourceAt s (tgetD s.trains t {}).src).flight.contains t then none
      else
        let s := reportFatal s
        let s := s.launches.foldl (fun s l => abortLaunch s l.1 [0x19]) s
        some (dropOut (dropTrain (tellMgmt s 4 [0x19]) t) id)
    | _, _ => none)

/-! ### Landing -/

/-- Escort registers as their coach brings them back: values, poison and full bits (R41). -/
def restoreEscort (g : Group) (c : Coach) : Group :=
  let g := { g with
    vregs := c.payload.foldl (fun t x => tset t x.1 x.2) g.vregs
    vpoison := c.poison.foldl sadd1 (g.vpoison.filter fun k => !(c.base ≤ k / 64 && decide (k / 64 < c.base + c.count))) }
  (runOf c.base c.count).foldl (fun g r => markV g r true) g

/-- A parked group of width 16 or more is reseated: every vector register but the listed ones reads 0 and is full (R44); the
lanes of a listed one that the landing does not write keep what they held when the group was parked (log 73). -/
def unpark (g : Group) (keep : List Nat) : Group :=
  if g.width < 16 then { g with parked := false }
  else
    let g := { g with
      parked := false
      vregs := g.vregs.filter fun x => keep.contains (x.1 / 64)
      vpoison := g.vpoison.filter fun k => keep.contains (k / 64) }
    (List.range 256).foldl (fun g r => if keep.contains r then g else markV g r true) g

/-- The vector registers of a group that replies on their way will fill or restore. -/
def awaitedV (s : State) (gid : Nat) : List Nat :=
  s.outs.flatMap fun o =>
    if o.2.gid == gid && fillsRegister o.2 && !o.2.scalar then
      runOf o.2.reg o.2.nreg ++ (match o.2.coach with
        | some c => runOf c.base c.count
        | none => [])
    else []

/-- A coach is back in its group (R44, R100): escort registers, reseating, and the rows it needs, which come from the
file, or lie in the landing area where too few are free. Its tag is released (R104), and poison that its payload met
abroad is consumed (R407). -/
def seatCoach (s : State) (id : Nat) (o : Out) (c : Coach) : State :=
  let s := modCore s o.core fun x => { x with tagGens := tset x.tagGens c.tag ((c.gen + 1) % 64) }
  match tget s.groups o.gid with
  | none => s
  | some g =>
    let home := c.park && g.parked
    let rows := if home && 16 ≤ g.width then ownRows s o.gid g - (escortsOut s o.gid g - escortRows c.count g.width)
                else escortRows c.count g.width
    let fits := decide (rows ≤ freeRows s o.core) || isSaved s g ||
      (match g.owner with
       | .team t => (tgetD s.teams t {}).phase == .saving
       | .spawned _ => false)
    let g := restoreEscort g c
    let g := if home then unpark g (awaitedV s o.gid) else g
    let g := if fits then g
             else { g with image := true, rowsOut := g.rowsOut + rows,
                           rowWait := if g.image then g.rowWait else (coreAt s o.core).cycle }
    let s := { s with groups := tset s.groups o.gid g, outs := tset s.outs id { o with coach := none } }
    let s := if c.hurt then consumed s g else s
    if fits then s else newTrain s o.core .landing id true

/-- The coach's generation is not its tag's (R395). -/
def staleCoach (s : State) (o : Out) (c : Coach) : Bool := tgetD (coreAt s o.core).tagGens c.tag 0 != c.gen

/-- A coach at its core, with a status of a kind; a stale one is discarded and reported (R395). It leaves the landing
staging buffer, at once or with its landing write (R98, R100). -/
def returnedCoach (s : State) (id : Nat) (p : Nat → Bool) (f : Out → Coach → State) : Option State :=
  match coachOf s id with
  | none => none
  | some (o, c) =>
    if c.phase != .returned || !p c.status then none
    else if staleCoach s o c then some (releasePlace (tellMgmt (dropOut s id) 3 [o.core, c.tag]) id)
    else some (releasePlace (f o c) id)

/-- COACH_LANDING (R44, R241): escorts and destination are written, an acquire takes effect, and tag and carriages are
released. -/
def execCoachLanding (id : Nat) (s : State) : Host.Outcome State Fault Refusal :=
  event_ s (returnedCoach s id (· == 0) fun o c => landed (acquireL1 (seatCoach s id o c) o) id)

/-- COACH_BOUNCE_LANDING (R99): the request is sent again as a plain one, its destination left empty. -/
def execCoachBounceLanding (id : Nat) (s : State) : Host.Outcome State Fault Refusal :=
  event_ s (returnedCoach s id (· == 1) fun o c => refuseEscort (seatCoach s id o c) o.gid)

/-- COACH_FAULT_RETURN (R46, R383): the destination is as before and full, and the trap is pending at the escorted
instruction. -/
def execCoachFaultReturn (id : Nat) (s : State) : Host.Outcome State Fault Refusal :=
  event_ s (returnedCoach s id (2 ≤ ·) fun o c =>
    let s := fillValue (seatCoach s id o c) id [] []
    let full (g : Group) : Group :=
      let g := (runOf o.reg o.nreg).foldl (fun g r => markV g r true) g
      match tget g.folds id with
      | some f => noteLanding g id o (f.regs.headD 0) (f.regs.length - o.nreg)
      | none => g
    let s := { s with groups := tmod s.groups o.gid full }
    let t : TrapInfo := { code := BitVec.ofNat 8 c.status, lane := c.lane, addr := c.addr, tpc := some o.pc }
    freeEnded (pendTrap (dropOut s id) o.gid o.entry t) o.gid)

/-! ### The landing area -/

/-- The lowest thread identifier of a group's lanes. -/
def groupThread (s : State) (g : Group) : Nat := lowestThread s g (bitsBelow (aliveLanes g) g.width)

/-- LANDING_AREA_RESEAT (R100): the image of the lowest thread identifier is reseated once enough rows are free. -/
def execLandingAreaReseat (core : Nat) (s : State) : Host.Outcome State Fault Refusal :=
  event_ s (
    match s.groups.filter fun g => g.2.core == core && g.2.image && !isSaved s g.2 with
    | [] => none
    | x :: r =>
      let best := r.foldl (fun a b => if groupThread s b.2 < groupThread s a.2 then b else a) x
      if freeRows s core < best.2.rowsOut then none
      else some { s with groups := tset s.groups best.1 { best.2 with image := false, rowsOut := 0, rowWait := 0 } })

/-- The strands of a group that may issue: the handler strand, or the live strands from the top of the stack down. -/
def liveStrands (g : Group) : List Entry :=
  match g.handler with
  | some h => [h.strand]
  | none => (g.stack.filter fun e => e.mode == .live).reverse

/-- A group is runnable (R38): a live strand that, when it last tried its instruction, issued, or waited on nothing that
R38 lists (log 45). -/
def runnable (g : Group) : Bool :=
  !g.parked && !g.ended && (liveStrands g).any fun e => e.stall == 0 || e.runs

/-- The groups that may be evicted for a waiting one, in the order of R101. -/
def evictable (s : State) (gid : Nat) (w : Group) : List (Nat × Group) :=
  let all := s.groups.filter fun g =>
    g.1 != gid && g.2.core == w.core && !g.2.image && !isSaved s g.2 && decide (rowsAway s g.1 g.2 < groupRows s g.2)
  let bySlot (l : List (Nat × Group)) : List (Nat × Group) := l.mergeSort fun a b => decide (b.2.slot ≤ a.2.slot)
  bySlot (all.filter fun g => !runnable g.2) ++
    bySlot (all.filter fun g => runnable g.2 && decide (groupThread s w < groupThread s g.2))

/-- Evict a group into the landing area (R101). -/
def evict (s : State) (gid : Nat) : State :=
  match tget s.groups gid with
  | none => s
  | some g =>
    let g' : Group :=
      { g with image := true, rowsOut := groupRows s g - rowsAway s gid g, rowWait := (coreAt s g.core).cycle }
    { s with groups := tset s.groups gid g' }

/-- RESEAT_WAIT_EXPIRY (R101): after 4,096 cycles seated groups are evicted until the waiting one can be reseated. -/
def execReseatWaitExpiry (gid : Nat) (s : State) : Host.Outcome State Fault Refusal :=
  event_ s (
    match tget s.groups gid with
    | none => none
    | some g =>
      if !g.image || isSaved s g || (coreAt s g.core).cycle < g.rowWait + 4096 then none
      else
        some ((evictable s gid g).foldl (fun s x =>
          if g.rowsOut ≤ freeRows s g.core then s else evict s x.1) s))

end Sys2Proof.Machine
end

