-- ==== Sys2Proof/Machine/Convert.lean ====
section
/-!
DEFINITION. Conversions between formats: CVT, PACK and UNPACK (R219 to R222).
-/

namespace Sys2Proof.Machine

/-- A lane-wise instruction that writes a run of n registers (R207): per register index and lane, its result, and per
lane whether a source lane is poisoned. -/
def vectorRun (gn : BitVec 1) (gp : BitVec 3) (sr vr : List (Nat × Bool)) (vd n : Nat)
    (f : Group → Nat → Nat → Lane) (p : Group → Nat → Bool) (s : State) : Act State := do
  let lanes := guardLanes (curGroup s) (curStrand s) gn gp
  let regs := (List.range n).map (vd + ·)
  let s ← begin_ { sr := sr, vr := vr, vw := regs } (some lanes) s
  if lanes.isEmpty then .ok (advance s)
  else do
    dstFull [] regs s
    let g := curGroup s
    .ok (advance ((List.range n).foldl
      (fun s k => writeLanes s (vd + k) (lanes.map fun l => (l, f g k l, p g l))) s))

/-- The code a source holds in a lane (R219). -/
def sourceCode (g : Group) (va src l : Nat) : Nat :=
  if fmtBits src = 64 then (getV g va l).toNat + 2 ^ 32 * (getV g (va + 1) l).toNat
  else (getV g va l).toNat % 2 ^ fmtBits src

/-- A result of a format as the bits it takes in the registers: integers extended by their signedness (R219). -/
def resultBits (dst y : Nat) : Nat :=
  if fmtSigned dst && decide (fmtBits dst < 32) && decide (2 ^ (fmtBits dst - 1) ≤ y) then y + 2 ^ 32 - 2 ^ fmtBits dst
  else y

/-- The registers an operand of a format takes (R219). -/
def fmtRegs (f : Nat) : Nat := if fmtBits f = 64 then 2 else 1

/-- The formats that scales apply to (R220). -/
def fmtScaled (f : Nat) : Bool := f == 11 || f == 12 || f == 13

/-- Byte `sel` of a lane. -/
def laneByte (x : Lane) (sel : Nat) : Byte := (x >>> (8 * sel)).setWidth 8

/-- One conversion, scaled by a byte where the form asks (R220). -/
def convertScaled (dst src rm : Nat) (sat : Bool) (scale : Option Byte) (x : Nat) : Nat :=
  match scale with
  | none => convert dst src rm sat x
  | some b =>
    let v := fmtValue src x
    roundTo dst rm sat (fmtInt src) (applyScale v b (fmtScaled src))

/-- CVT (R220). -/
def execCvt (o : CvtOp) (s : State) : Host.Outcome State Fault Refusal :=
  let srcF := o.src.toNat
  let va := o.va.toNat
  let scaled := bit1 o.s
  let vr := (List.range (fmtRegs srcF)).map (fun k => (va + k, bit1 o.fa)) ++ (if scaled then [src o.vb o.fb] else [])
  finish_ s (vectorRun o.gn o.gp [] vr o.vd.toNat (fmtRegs o.dst.toNat)
    (fun g k l =>
      let b := if scaled then some (laneByte (getV g o.vb.toNat l) o.sel.toNat) else none
      let y := resultBits o.dst.toNat
        (convertScaled o.dst.toNat srcF o.rm.toNat (bit1 o.sat) b (sourceCode g va srcF l))
      BitVec.ofNat 32 (y / 2 ^ (32 * k)))
    (fun g l => vr.any fun r => poisonedV g r.1 l) s)

/-- PACK (R221). -/
def execPack (o : PackOp) (s : State) : Host.Outcome State Fault Refusal :=
  let dst := o.dst.toNat
  let scaled := bit1 o.s
  let narrow := fmtBits dst = 8 || dst = 13
  let vr := src o.va o.fa :: bVector o.vbs o.vb o.fb ++ (if scaled then [src o.vc o.fc] else []) ++
    (if narrow then [(o.vd.toNat, false)] else [])
  finish_ s (vectorOp o.gn o.gp (bScalar o.vbs o.vb o.fb) vr o.vd.toNat
    (fun g l =>
      let b := if scaled then some (laneByte (getV g o.vc.toNat l) o.sel.toNat) else none
      let one (x : Lane) : Nat := convertScaled dst o.src.toNat o.rm.toNat (bit1 o.sat) b x.toNat
      let ya := BitVec.ofNat 32 (one (getV g o.va.toNat l))
      let yb := BitVec.ofNat 32 (one (bLane g o.vbs o.vb l))
      if narrow then
        let d := getV g o.vd.toNat l
        let at_ := 16 * o.k.toNat
        (d &&& ~~~(0xFFFF#32 <<< at_)) ||| ((ya ||| (yb <<< 8)) <<< at_)
      else (yb <<< 16) ||| ya)
    (fun g l => (vr.any fun r => poisonedV g r.1 l) || bPoison g o.vbs o.vb l) s)

/-- UNPACK: one result register per element (R222). -/
def execUnpack (o : CvtOp) (s : State) : Host.Outcome State Fault Refusal :=
  let srcF := o.src.toNat
  let width := if srcF = 13 then 8 else fmtBits srcF
  let scaled := bit1 o.s
  let vr := src o.va o.fa :: (if scaled then [src o.vb o.fb] else [])
  finish_ s (vectorRun o.gn o.gp [] vr o.vd.toNat (32 / width)
    (fun g k l =>
      let b := if scaled then some (laneByte (getV g o.vb.toNat l) o.sel.toNat) else none
      let x := (getV g o.va.toNat l).toNat / 2 ^ (width * k) % 2 ^ fmtBits srcF
      BitVec.ofNat 32 (convertScaled o.dst.toNat srcF o.rm.toNat (bit1 o.sat) b x))
    (fun g l => vr.any fun r => poisonedV g r.1 l) s)

end Sys2Proof.Machine
end

