-- ==== Sys2Proof/Machine/Matrix.lean ====
section
/-!
DEFINITION. The matrix engine (R144 to R147, R263 to R273).
-/

namespace Sys2Proof.Machine

/-! ### Checks at issue -/

/-- Bytes of an element of a format in a tile. -/
def fmtSize (f : Nat) : Nat := if f = 13 then 1 else fmtBits f / 8

/-- The rate group of a format (R265): 0 integer, 1 half, 2 FP8, 3 log. -/
def rateGroup (f : Nat) : Nat := if f < 2 then 0 else if f = 9 || f = 10 then 1 else if f = 13 then 3 else 2

/-- What a team's planes and accumulators will be once its queued instructions have run: K, N and format of the active
and the shadow plane, and which accumulators hold integers (R264). -/
structure MxPlan where
  active : Nat × Nat × Nat := (0, 0, 0)
  shadow : Nat × Nat × Nat := (0, 0, 0)
  ints : List Bool := []
  deriving DecidableEq, Repr, Inhabited

/-- One queued instruction's effect on the plan. -/
def planStep (p : MxPlan) (o : MxOp) : MxPlan :=
  match o.kind with
  | .mldw => { p with shadow := (o.k, o.n, o.fmt) }
  | .mswap => { p with active := p.shadow, shadow := p.active }
  | .mzero => { p with ints := p.ints.set o.acc o.int }
  | _ => p

/-- The queued instructions of a team on its home core, oldest first. -/
def mxOps (s : State) (core team : Nat) : List MxOp :=
  ((coreAt s core).mxQueue.filter fun o => o.2.team == team).map (·.2)

/-- The plan of a team (R264). -/
def mxPlan (s : State) (core team : Nat) : MxPlan :=
  let m := (tgetD s.teams team {}).matrix
  (mxOps s core team).foldl planStep
    { active := (m.active.k, m.active.n, m.active.fmt), shadow := (m.shadow.k, m.shadow.n, m.shadow.fmt),
      ints := (List.range 4).map fun a => (tgetD m.accs a {}).int }

/-- The checks that every matrix instruction makes (R17, R31, R48, R264, R379). -/
def mxChecks (s : State) : Act Nat := do
  let g := curGroup s
  need ((launchOf s g).record.getLsbD 187) 0x0A
  match teamKey g with
  | none => trapWith 0x0A
  | some t =>
    need ((tgetD s.teams t {}).cores.headD 0 == g.core) 0x0A
    let e := curStrand s
    need (!hmode g && decide (g.stack.length = 1) && e.mask &&& widthMask g.width == widthMask g.width) 0x05
    .ok t

/-- A shape or origin word has no bit outside two fields of the given widths at 0 and 16 (R265). -/
def strayFree (v : Word) (a b : Nat) : Bool := v &&& ~~~(widthMask a ||| (widthMask b <<< 16)) == 0#64

/-- The low field of a shape or origin word. -/
def fieldLow (v : Word) (n : Nat) : Nat := (v &&& widthMask n).toNat
/-- The high field, from bit 16. -/
def fieldHigh (v : Word) (n : Nat) : Nat := ((v >>> 16) &&& widthMask n).toNat

/-- A region lies in a tile; one with a dimension of 0 passes (R265). -/
def regionOk (e : BitVec 128) (row0 col0 rows cols : Nat) : Bool :=
  rows == 0 || cols == 0 || (decide (row0 + rows ≤ tRows e) && decide (col0 + cols ≤ tCols e))

/-- The registers of a run of `blocks` scales at a width (R143, R266). -/
def scaleRegs (vS blocks w : Nat) : List Nat := runOf vS ((blocks + 4 * w - 1) / (4 * w))

/-- Scale byte b of a run (R143). -/
def scaleByte (g : Group) (vS b : Nat) : Byte :=
  let w := 4 * g.width
  laneByte (getV g (vS + b / w) (b % w / 4)) (b % 4)

/-- Scale byte b is poisoned. -/
def scalePoison (g : Group) (vS b : Nat) : Bool := poisonedV g (vS + b / (4 * g.width)) (b % (4 * g.width) / 4)

/-- The registers of a scale run that a word names (R164, R388): its first, and all of them where the shape that gives their
number can be read. -/
def scaleNames (g : Group) (scaled : BitVec 1) (vS : BitVec 8) (shape blocks : Nat) : List Nat :=
  if !bit1 scaled then []
  else vS.toNat :: (if fullS g shape then scaleRegs vS.toNat blocks g.width else [])

/-- Read a scale run at issue, in wait mode: a run past the declaration is a reserved field (R388). -/
def readScales (s : State) (scaled : Bool) (vS blocks : Nat) : Act (List Byte × List Nat) := do
  let g := curGroup s
  if !scaled then .ok ([], [])
  else do
    let regs := scaleRegs vS blocks g.width
    need (regs.all fun r => decide (r < declV s g)) 0x03
    until_ (regs.all (fullV g)) s
    .ok ((List.range blocks).map (scaleByte g vS), (List.range blocks).filter (scalePoison g vS))

/-- Put an instruction into the engine queue (R264), which waits while 16 are there. -/
def mxIssue (s : State) (o : MxOp) : Act State := do
  let g := curGroup s
  holdUntil (!acqPending s) s
  until_ (decide ((coreAt s g.core).mxQueue.length < 16)) s
  let (id, s) := freshId s
  let s := modCore s g.core fun c => { c with mxQueue := tset c.mxQueue id { o with gid := s.cur.gid } }
  let g := curGroup s
  .ok (setGroup s { g with mxOpen := g.mxOpen ++ [id] })

/-- The tile that an MLDW or MSTREAM reads is ready, and the group's stores to it are performed (R89, R131). -/
def tileReady (s : State) (t n : Nat) : Bool :=
  let e := tileAt (tgetD s.teams t {}) n
  tState e == 2 && !ownAccess s 2 [(tBase e, tEnd e - tBase e)]

/-- MLDW (R265, R266). -/
def execMldw (o : MldwOp) (s : State) : Host.Outcome State Fault Refusal :=
  finish_ s (do
    let s ← begin_ { sr := [src o.sa o.fa, src o.sb o.fb], steerS := [o.sa.toNat, o.sb.toNat],
                     nv := scaleNames (curGroup s) o.s o.vS o.sa.toNat (2 * fieldHigh (getS (curGroup s) o.sa.toNat) 7) } none s
    let t ← mxChecks s
    let g := curGroup s
    let e := tileAt (tgetD s.teams t {}) o.t.toNat
    let shape := getS g o.sa.toNat
    let org := getS g o.sb.toNat
    let k := fieldLow shape 7
    let n := fieldHigh shape 7
    let row0 := fieldLow org 11
    let col0 := fieldHigh org 11
    need (tileUsable (shareSize s g) e && strayFree shape 7 7 && strayFree org 11 11 && decide (k ≤ 64) &&
      decide (n ≤ 64) && tBytes e == fmtSize o.fmt.toNat && regionOk e row0 col0 k n) 0x0A
    let (sc, bad) ← readScales s (bit1 o.s) o.vS.toNat (2 * n)
    until_ (tileReady s t o.t.toNat) s
    let s ← mxIssue s { kind := .mldw, team := t, tile := o.t.toNat, k := k, n := n, row0 := row0, col0 := col0,
                        fmt := o.fmt.toNat, scales := sc, badScales := bad }
    .ok (advance s))

/-- MSWAP (R267). -/
def execMswap (s : State) : Host.Outcome State Fault Refusal :=
  finish_ s (do
    let t ← mxChecks s
    let s ← mxIssue s { kind := .mswap, team := t }
    .ok (advance s))

/-- MSTREAM (R265, R268). -/
def execMstream (o : MstreamOp) (s : State) : Host.Outcome State Fault Refusal :=
  finish_ s (do
    let s ← begin_ { sr := [src o.sa o.fa, src o.sb o.fb], steerS := [o.sa.toNat, o.sb.toNat],
                     nv := scaleNames (curGroup s) o.s o.vS o.sa.toNat (2 * fieldLow (getS (curGroup s) o.sa.toNat) 9) } none s
    let t ← mxChecks s
    let g := curGroup s
    let e := tileAt (tgetD s.teams t {}) o.t.toNat
    let shape := getS g o.sa.toNat
    let org := getS g o.sb.toNat
    let m := fieldLow shape 9
    let row0 := fieldLow org 11
    let col0 := fieldHigh org 11
    let p := mxPlan s g.core t
    let (pk, pn, pf) := p.active
    need (tileUsable (shareSize s g) e && shape &&& ~~~0x1FF#64 == 0#64 && strayFree org 11 11 && decide (m ≤ 256) &&
      tBytes e == fmtSize o.fmt.toNat) 0x0A
    need (pk == 0 || pn == 0 || (rateGroup o.fmt.toNat == rateGroup pf &&
      p.ints.getD o.a.toNat false == (rateGroup pf == 0) && regionOk e row0 col0 m pk)) 0x0A
    let (sc, bad) ← readScales s (bit1 o.s) o.vS.toNat (2 * m)
    until_ (tileReady s t o.t.toNat) s
    let s ← mxIssue s { kind := .mstream, team := t, tile := o.t.toNat, acc := o.a.toNat, m := m, row0 := row0,
                        col0 := col0, fmt := o.fmt.toNat, scales := sc, badScales := bad }
    .ok (advance s))

/-- MDRAIN (R269). -/
def execMdrain (o : MdrainOp) (s : State) : Host.Outcome State Fault Refusal :=
  finish_ s (do
    let s ← begin_ { sr := [src o.sa o.fa, src o.sb o.fb], steerS := [o.sa.toNat, o.sb.toNat] } none s
    let t ← mxChecks s
    let g := curGroup s
    let n := o.t.toNat
    let e := tileAt (tgetD s.teams t {}) n
    let shape := getS g o.sa.toNat
    let org := getS g o.sb.toNat
    let rows := fieldLow shape 9
    let cols := fieldHigh shape 7
    let row0 := fieldLow org 11
    let col0 := fieldHigh org 11
    need (tileUsable (shareSize s g) e && strayFree shape 9 7 && strayFree org 11 11 && decide (rows ≤ 256) &&
      decide (cols ≤ 64) && tBytes e == fmtSize o.fmt.toNat && regionOk e row0 col0 rows cols) 0x0A
    until_ (mayFill s t n && !ownAccess s 2 [(tBase e, tEnd e - tBase e)]) s
    let s ← mxIssue s { kind := .mdrain, team := t, tile := n, acc := o.a.toNat, m := rows, n := cols, row0 := row0,
                        col0 := col0, fmt := o.fmt.toNat, rm := o.rm.toNat, sat := bit1 o.sat }
    .ok (advance (setTile s t n (if rows = 0 || cols = 0 then 2 else 3))))

/-- MZERO (R270). -/
def execMzero (o : MzeroOp) (s : State) : Host.Outcome State Fault Refusal :=
  finish_ s (do
    let t ← mxChecks s
    let s ← mxIssue s { kind := .mzero, team := t, acc := o.a.toNat, int := bit1 o.i }
    .ok (advance s))

/-- The group's closed batches without those that are complete, in number order (R271). -/
def dropBatches : List Batch → List Batch
  | [] => []
  | b :: r => if b.ops.isEmpty then dropBatches r else b :: r

/-- MBATCH (R271). -/
def execMbatch (o : SdOp) (s : State) : Host.Outcome State Fault Refusal :=
  finish_ s (do
    let s ← begin_ { sw := [o.sd.toNat] } none s
    dstFull [o.sd.toNat] [] s
    let g := curGroup s
    until_ (decide (g.batches.length < 128)) s
    let g := { g with batches := dropBatches (g.batches ++ [{ num := g.batch, ops := g.mxOpen }]), mxOpen := [],
                      batch := (g.batch + 1) % 256 }
    let c := BitVec.ofNat 64 (curGroup s).batch
    .ok (advance (writeScalar (setGroup s g) o.sd.toNat c false)))

/-- MWAIT (R271). -/
def execMwait (o : MwaitOp) (s : State) : Host.Outcome State Fault Refusal :=
  finish_ s (do
    let imm := o.imm == 1#1
    let s ← begin_ (if imm then {} else { sr := [src o.sa o.fa], steerS := [o.sa.toNat] }) none s
    let g := curGroup s
    let n := if imm then o.n.toNat else (getS g o.sa.toNat).toNat % 256
    holdUntil (!acqPending s) s
    until_ (!(g.batches.any fun b => b.num == n)) s
    .ok (advance s))

/-- The word that MSTAT writes (R272). -/
def mstatWord (s : State) (gid : Nat) (g : Group) : Word :=
  let own := match teamKey g with
    | some t => (coreAt s g.core).mxHolder == some t
    | none => false
  let pend := min 127 ((coreAt s g.core).mxQueue.filter fun o => o.2.gid == gid).length
  let oldest := (g.batches.head?.map (·.num)).getD g.batch
  BitVec.ofNat 64 (g.batch + 256 * oldest + 65536 * pend + (if own then 2 ^ 23 else 0))

/-- MSTAT (R272). -/
def execMstat (o : SdOp) (s : State) : Host.Outcome State Fault Refusal :=
  finish_ s (do
    let s ← begin_ { sw := [o.sd.toNat] } none s
    dstFull [o.sd.toNat] [] s
    let (v, s) ← outside 4 [mstatWord s s.cur.gid (curGroup s)] s
    .ok (advance (writeScalar s o.sd.toNat (v.headD 0#64) false)))

/-! ### The engine -/

/-- Both use an accumulator. -/
def usesAcc (k : MxKind) : Bool := k == .mstream || k == .mdrain || k == .mzero

/-- A later instruction of a team waits for an earlier one: the same plane or accumulator; MSWAP waits for every
one (R264, R267). -/
def mxConflict (a b : MxOp) : Bool :=
  match a.kind, b.kind with
  | _, .mswap => true
  | .mswap, k => k == .mldw || k == .mstream
  | .mldw, .mldw => true
  | .mstream, .mstream => true
  | x, y => usesAcc x && usesAcc y && a.acc == b.acc

/-- An instruction may complete: its team is the holder, and no earlier one of another team or in conflict is left. -/
def mxReady (c : Core) (id : Nat) (o : MxOp) : Bool :=
  c.mxHolder == some o.team &&
  c.mxQueue.all fun x => decide (id ≤ x.1) || (x.2.team == o.team && !mxConflict x.2 o)

/-- An instruction has completed: it leaves the queue and its batch. -/
def mxDone (s : State) (core id gid : Nat) : State :=
  let s := modCore s core fun c => { c with mxQueue := terase c.mxQueue id }
  { s with groups := tmod s.groups gid fun g =>
      { g with mxOpen := sdel1 g.mxOpen id
               batches := dropBatches (g.batches.map fun b => { b with ops := sdel1 b.ops id }) } }

/-- Complete an instruction of a kind with its effect. -/
def mxComplete (kind : MxKind) (f : State → MxOp → State) (core id : Nat) (s : State) : Option State :=
  match tget (coreAt s core).mxQueue id with
  | none => none
  | some o => if o.kind == kind && mxReady (coreAt s core) id o then some (mxDone (f s o) core id o.gid) else none

/-- The team's matrix state changed. -/
def modMatrix (s : State) (t : Nat) (f : Matrix → Matrix) : State :=
  { s with teams := tmod s.teams t fun x => { x with matrix := f x.matrix } }

/-- The positions of a plane or block, k below K and n below N. -/
def positions (k n : Nat) : List (Nat × Nat) := (List.range k).flatMap fun i => (List.range n).map fun j => (i, j)

/-- The two bytes of a plane element in a context record (R263): a 1-byte format keeps its block's scale byte, or 127, above
the code. -/
def planeBytes (p : Plane) (k : Nat) : List Byte :=
  let x := tgetD p.elems k 0#16
  if fmtSize p.fmt = 1 then [x.setWidth 8, tgetD p.scales k 127#8] else leBytes x.toNat 2

/-- The matrix section of a context record (R66, R263): four accumulators of 8-byte values, the active and the shadow plane. -/
def matrixBytes (m : Matrix) : List Byte :=
  ((List.range 4).flatMap fun a => (List.range 16384).flatMap fun k => wordBytes8 (tgetD (tgetD m.accs a {}).vals k 0#64)) ++
    (List.range 4096).flatMap (planeBytes m.active) ++ (List.range 4096).flatMap (planeBytes m.shadow)

/-- Write a team's matrix state into its context record (R71, R263). -/
def saveMatrix (s : State) (t : Nat) : State :=
  let r := teamRecord s t
  let s := if !r.getLsbD 187 || !recordOk s t then s
    else recordPut s t (matrixAt r) (matrixBytes (tgetD s.teams t {}).matrix)
  modMatrix s t fun m => { m with kept := true }

/-- An accumulator value that a record gives back: an uncorrectable error gives the error value (R405). -/
def loadedValue (int : Bool) (l : List (Byte × Bool)) : Word :=
  if l.any (·.2) then (if int then 0x80000000#64 else toAcc .nan) else BitVec.ofNat 64 (viewNat l)

/-- A plane that a record gives back: its elements, their scales, and the elements with an uncorrectable error. -/
def loadedPlane (p : Plane) (l : List (Byte × Bool)) : Plane :=
  let ks := (positions p.k p.n).map fun x => 64 * x.1 + x.2
  let two (k : Nat) : List (Byte × Bool) := (l.drop (2 * k)).take 2
  let one := fmtSize p.fmt == 1
  { p with
    elems := ks.foldl (fun t k => tset t k (BitVec.ofNat 16 (viewNat (if one then (two k).take 1 else two k)))) []
    scales := if one && !p.scales.isEmpty then
        ks.foldl (fun t k => tset t k (((two k).map (·.1)).getD 1 127#8)) []
      else p.scales
    bad := p.bad ++ ks.filter fun k => (two k).any (·.2) && !p.bad.contains k }

/-- Read a team's matrix state back from its context record (R73, R263); an uncorrectable error is consumed (R405). -/
def loadMatrix (s : State) (t : Nat) : State :=
  let r := teamRecord s t
  if !(tgetD s.teams t {}).matrix.kept || !r.getLsbD 187 || !recordOk s t then s
  else
    let l := recordGet s t (matrixAt r) 540672
    let s := modMatrix s t fun m => { m with
      accs := m.accs.map fun a => (a.1, { a.2 with vals := a.2.vals.map fun x =>
        (x.1, loadedValue a.2.int ((l.drop (131072 * a.1 + 8 * x.1)).take 8)) })
      active := loadedPlane m.active (l.drop 524288)
      shadow := loadedPlane m.shadow (l.drop 532480) }
    if l.any (·.2) then consumed s { owner := .team t } else s

/-- MATRIX_TEAM_SWITCH (R263): the holder's state goes into its context record, and the new team's comes from its own, or is
the start state. -/
def execMatrixTeamSwitch (core : Nat) (s : State) : Host.Outcome State Fault Refusal :=
  event_ s (
    match (coreAt s core).mxQueue with
    | [] => none
    | (_, o) :: _ =>
      let h := (coreAt s core).mxHolder
      if h == some o.team then none
      else
        let s := match h with
          | some t => saveMatrix s t
          | none => s
        some (modCore (loadMatrix s o.team) core fun c => { c with mxHolder := some o.team }))

/-- An element of a tile: its code, and whether it is poisoned. -/
def tileElem (x : Team) (e : BitVec 128) (i j : Nat) : Nat × Bool :=
  let l := bytesWith x.share x.sharePoison (tElem e i j) (tBytes e)
  (viewNat l, l.any (·.2))

/-- The plane that an MLDW loads (R266). -/
def loadPlane (x : Team) (o : MxOp) : Plane :=
  let e := tileAt x o.tile
  let ps := positions o.k o.n
  let block (p : Nat × Nat) : Nat := 2 * p.2 + p.1 / 32
  { k := o.k, n := o.n, fmt := o.fmt
    elems := ps.foldl (fun t p =>
      tset t (64 * p.1 + p.2) (BitVec.ofNat 16 (tileElem x e (o.row0 + p.1) (o.col0 + p.2)).1)) []
    scales := if o.scales.isEmpty then []
      else ps.foldl (fun t p => tset t (64 * p.1 + p.2) (o.scales.getD (block p) 127#8)) []
    bad := (ps.filter fun p => (tileElem x e (o.row0 + p.1) (o.col0 + p.2)).2 || o.badScales.contains (block p)).map
      fun p => 64 * p.1 + p.2 }

/-- MLDW_LOADED (R266). -/
def execMldwLoaded (core op : Nat) (s : State) : Host.Outcome State Fault Refusal :=
  event_ s (mxComplete .mldw (fun s o =>
    let p := loadPlane (tgetD s.teams o.team {}) o
    let s := modMatrix s o.team fun m => { m with shadow := p }
    if p.bad.isEmpty then s else consumed s { owner := .team o.team }) core op s)

/-- MSWAP_TAKES_EFFECT (R267). -/
def execMswapTakesEffect (core op : Nat) (s : State) : Host.Outcome State Fault Refusal :=
  event_ s (mxComplete .mswap (fun s o =>
    modMatrix s o.team fun m => { m with active := m.shadow, shadow := m.active }) core op s)

/-- One product of an MSTREAM in a float group (R144, R146, R268): element and scale of the tile, of the plane. -/
def mxProduct (fa fb a : Nat) (sa : Byte) (b : Nat) (sb : Byte) : FVal :=
  if fa = 13 then applyScale (applyScale (lnsProduct a b) sa true) sb true
  else mulExact (applyScale (fmtValue fa a) sa true) (applyScale (fmtValue fb b) sb true)

/-- A list in chunks of four. -/
def chunks4 {α : Type} : List α → List (List α)
  | a :: b :: c :: d :: r => [a, b, c, d] :: chunks4 r
  | [] => []
  | l => [l]

/-- The new value of accumulator element (m, n) (R146): a poisoned element gives the error value (R405). -/
def mxElement (x : Team) (o : MxOp) (p : Plane) (int : Bool) (old : Word) (m n : Nat) : Word × Bool :=
  let e := tileAt x o.tile
  let els := (List.range p.k).map fun k => (k, tileElem x e (o.row0 + m) (o.col0 + k))
  let bad := els.any fun y => y.2.2 || p.bad.contains (64 * y.1 + n) || o.badScales.contains (2 * m + y.1 / 32)
  let b (k : Nat) : Nat := (tgetD p.elems (64 * k + n) 0#16).toNat
  if bad then (if int then 0x80000000#64 else toAcc .nan, true)
  else if int then
    let sum := els.foldl (fun a y => a + intValue o.fmt y.2.1 * intValue p.fmt (b y.1)) (0 : Int)
    (((old.setWidth 32 : BitVec 32) + BitVec.ofInt 32 sum).setWidth 64, false)
  else
    let ps := els.map fun y => mxProduct o.fmt p.fmt y.2.1 (o.scales.getD (2 * m + y.1 / 32) 127#8) (b y.1)
      (tgetD p.scales (64 * y.1 + n) 127#8)
    ((chunks4 ps).foldl accAdd old, false)

/-- The effect of an MSTREAM (R268). -/
def streamEffect (s : State) (o : MxOp) : State :=
  let x := tgetD s.teams o.team {}
  let p := x.matrix.active
  if o.m = 0 || p.k = 0 || p.n = 0 then s
  else
    let a := tgetD x.matrix.accs o.acc {}
    let r := (positions o.m p.n).foldl (fun (r : Tab Word × Bool) q =>
      let v := mxElement x o p a.int (tgetD a.vals (64 * q.1 + q.2) 0#64) q.1 q.2
      (tset r.1 (64 * q.1 + q.2) v.1, r.2 || v.2)) (a.vals, false)
    let s := modMatrix s o.team fun m => { m with accs := tset m.accs o.acc { a with vals := r.1 } }
    if r.2 then consumed s { owner := .team o.team } else s

/-- MSTREAM_PASSED (R268). -/
def execMstreamPassed (core op : Nat) (s : State) : Host.Outcome State Fault Refusal :=
  event_ s (mxComplete .mstream streamEffect core op s)

/-- The bytes of an accumulator value in a format (R147, R269). -/
def drainBytes (o : MxOp) (int : Bool) (w : Word) : List Byte :=
  let v := if int then ofInt (w.setWidth 32 : BitVec 32).toInt else accValue w
  leBytes (roundTo o.fmt o.rm o.sat int v) (fmtSize o.fmt)

/-- Write bytes into a share at any offset, granule by granule. -/
def shareSeg (s : State) (t a : Nat) (l : List Byte) : State :=
  ((cutAt 8 a l.length).foldl (fun (r : State × List Byte) p =>
    (sharePut r.1 t p.1 (r.2.take p.2) false, r.2.drop p.2)) (s, l)).1

/-- The effect of an MDRAIN (R269). -/
def drainEffect (s : State) (o : MxOp) : State :=
  if o.m = 0 || o.n = 0 then s
  else
    let x := tgetD s.teams o.team {}
    let a := tgetD x.matrix.accs o.acc {}
    let e := tileAt x o.tile
    let s := (List.range o.m).foldl (fun s m =>
      shareSeg s o.team (tElem e (o.row0 + m) o.col0)
        ((List.range o.n).flatMap fun n => drainBytes o a.int (tgetD a.vals (64 * m + n) 0#64))) s
    endTile s o.team o.tile 2

/-- MDRAIN_DONE (R269). -/
def execMdrainDone (core op : Nat) (s : State) : Host.Outcome State Fault Refusal :=
  event_ s (mxComplete .mdrain drainEffect core op s)

/-- MZERO_DONE (R270). -/
def execMzeroDone (core op : Nat) (s : State) : Host.Outcome State Fault Refusal :=
  event_ s (mxComplete .mzero (fun s o =>
    modMatrix s o.team fun m => { m with accs := tset m.accs o.acc { int := o.int, vals := [] } }) core op s)

end Sys2Proof.Machine
end

