-- ==== Sys2Proof/Machine/Place.lean ====
section
/-!
DEFINITION. Admission and placement: the demand of a launch record, the core sets it may take, the room on a core, the
forming of a team and its restoration (R13 to R16, R48, R49, R60 to R66, R73, R352, R353).
-/

namespace Sys2Proof.Machine

/-! ### Core sets -/

/-- How many blocks of a team go on each core of a set of c (R16). -/
def shareCounts (r : BitVec 1024) (c : Nat) : List Nat :=
  (List.range c).map fun j => ((List.range (rUnits r)).filter fun b => b * c / rUnits r == j).length

/-- The team fits c empty cores (R61). -/
def emptyFit (r : BitVec 1024) (c : Nat) : Bool :=
  decide (rScrg r ≤ Config.granules) && (shareCounts r c).all fun k =>
    decide (k * rUnitSlots r ≤ Config.slots) && decide (k * rUnitRows r ≤ Config.rowsSeated)

/-- A team's span (R62). -/
def rSpan (r : BitVec 1024) : Option Nat := [1, 2, 4].find? (emptyFit r)

/-- The permitted core sets of a span, as local cores, in order (R62). -/
def localSets (c : Nat) : List (List Nat) :=
  match c with
  | 1 => (List.range 14).map fun k => [k]
  | 2 => (List.range 7).map fun k => [2 * k, 2 * k + 1]
  | _ => (List.range 3).map fun k => (List.range 4).map (4 * k + ·)

/-- The core set lies in CMASK, and for a redundant team its other copy's set too (R62). -/
def setPermitted (r : BitVec 1024) (cores : List Nat) : Bool :=
  cores.all fun c => r.getLsbD (768 + c) && (!rRed r || r.getLsbD (768 + mateCore c))

/-- The core sets of a launch, from a cluster on (R62, R63). -/
def coreSets (r : BitVec 1024) (start : Nat) : List (List Nat) :=
  match rSpan r with
  | none => []
  | some c =>
    ((List.range 14).flatMap fun k => (localSets c).map fun l => l.map (14 * ((start + k) % 14) + ·)).filter
      (setPermitted r)

/-! ### The room on a core -/

/-- Teams resident on a core. -/
def teamsOn (s : State) (core : Nat) : List Team :=
  (s.teams.filter fun t => t.2.phase != .saved && t.2.cores.contains core).map (·.2)

/-- Scratchpad granules of a core in use. -/
def granulesOn (s : State) (core : Nat) : Nat :=
  (teamsOn s core).foldl (fun n t =>
    if t.cores.head? == some core then n + rScrg (tgetD s.launches t.launch {}).record else n) 0

/-- A core has a team slot, rows and granules for a share (R61). -/
def coreRoom (s : State) (core rows granules : Nat) : Bool :=
  decide ((teamsOn s core).length < Config.teamSlots) && decide (admittedRows s core + rows ≤ Config.rowsAdmitted) &&
  decide (rows ≤ freeRows s core) && decide (granulesOn s core + granules ≤ Config.granules)

/-- The lowest aligned free blocks of slots (R352). -/
def takeUnits (free : List Nat) (size n : Nat) : Option (List Nat) :=
  let bases := ((List.range (Config.slots / size)).map (size * ·)).filter fun b =>
    (List.range size).all fun k => free.contains (b + k)
  if bases.length < n then none else some (bases.take n)

/-- The slots that a new team takes on each core of a set, where it fits (R61, R352). -/
def freshFit (s : State) (r : BitVec 1024) (cores : List Nat) : Option (List (List Nat)) :=
  ((cores.zip (shareCounts r cores.length)).zipIdx).mapM fun x =>
    let core := x.1.1
    let n := x.1.2
    if coreRoom s core (n * rUnitRows r) (if x.2 = 0 then rScrg r else 0) then
      takeUnits (freeSlots s core) (rUnitSlots r) n
    else none

/-- Take aligned blocks of four slots for blocks that groups shared (R73): free slots and old-to-new slots. -/
def seatBlocks (gs : List Group) : List Nat → List Nat × List (Nat × Nat) → Option (List Nat × List (Nat × Nat))
  | [], a => some a
  | k :: ks, (free, m) =>
    match takeUnits free 4 1 with
    | some [b] =>
      let old := (gs.flatMap slotItems).filter fun x => x / 4 == k
      let new := old.map fun x => (x, b + x % 4)
      seatBlocks gs ks (free.filter fun x => !(new.map (·.2)).contains x, m ++ new)
    | _ => none

/-- The slots that restored groups take on a core (R73): those that shared a block of four first, then the others. -/
def seatSlots (free : List Nat) (gs : List Group) : Option (List (Nat × Nat)) :=
  let gs := inTeamOrder gs
  let items := gs.flatMap slotItems
  let shared (x : Nat) : Bool := decide (1 < (items.filter fun y => y / 4 == x / 4).length)
  let ks := ((items.filter shared).map (· / 4)).eraseDups
  match seatBlocks gs ks (free, []) with
  | none => none
  | some (free, m) =>
    let singles := items.filter fun x => !shared x
    if free.length < singles.length then none else some (m ++ singles.zip free)

/-- The groups of a team on a core. -/
def teamGroupsOn (s : State) (t core : Nat) : List Group :=
  (s.groups.filter fun g => g.2.owner == .team t && g.2.core == core).map (·.2)

/-- Rows that groups hold. -/
def rowsHeld (s : State) (gs : List Group) : Nat :=
  ((gs.flatMap (·.rowBlocks)).eraseDups).foldl (fun n b => n + (tgetD s.rowBlocks b {}).rows) 0

/-- The slots that a saved team takes on each core of a set, where it fits (R61, R73). -/
def restoreFit (s : State) (t : Nat) (cores : List Nat) : Option (List (List (Nat × Nat))) :=
  let x := tgetD s.teams t {}
  let r := (tgetD s.launches x.launch {}).record
  ((cores.zip x.cores).zipIdx).mapM fun y =>
    let gs := teamGroupsOn s t y.1.2
    if coreRoom s y.1.1 (rowsHeld s gs) (if y.2 = 0 then rScrg r else 0) then seatSlots (freeSlots s y.1.1) gs
    else none

/-! ### Context records -/

/-- The free context records of a launch, lowest first, as many as a team needs (R66). -/
def freeRecords (s : State) (seq : Nat) (r : BitVec 1024) : Option (List Nat) :=
  let used := (s.teams.filter fun t => t.2.launch == seq).map (·.2.record)
  let l := ((List.range (min (rPooln r) (used.length + 2))).filter fun i => !used.contains i).take (rCopies r)
  if l.length < rCopies r then none else some l

/-! ### Check points copy this -/

/-- The state of a team that a check point copies (R413); signatures start again at 0 (R412). -/
def snapshotOf (s : State) (t : Nat) : Snapshot :=
  let x := tgetD s.teams t {}
  { groups := (s.groups.filter fun g => g.2.owner == .team t).map fun g => (g.1, { g.2 with sig := 0#64, folds := [] })
    points := x.points, tiles := x.tiles, templates := x.templates, share := x.share, sharePoison := x.sharePoison,
    matrix := x.matrix, refusals := x.refusals }

/-- A team keeps its present state as its checkpoint, in its checkpoint area too (R412, R413). -/
def takeSnapshot (s : State) (t : Nat) : State :=
  let sn := snapshotOf s t
  saveSnapshot { s with
    groups := sn.groups.foldl (fun l g => tset l g.1 g.2) s.groups
    teams := tmod s.teams t fun x => { x with snap := some sn } } t

/-! ### Forming a team -/

/-- The group of lanes `lo` up in a slot, as a team starts (R15, R48, R49). -/
def startGroup (r : BitVec 1024) (t num core slot lo : Nat) (held rows : List Nat) : Group :=
  let w := rWidth r
  let mask := maskOf ((List.range w).filter fun i => decide (lo + i < rLanes r))
  { owner := .team t, core := core, slot := slot, held := held, width := w,
    laneNo := (List.range w).map (lo + ·),
    sregs := [(0, BitVec.ofNat 64 (recField r 640 57)), (1, BitVec.ofNat 64 num)],
    stack := [{ pc := BitVec.ofNat 64 (recField r 0 57), mask := mask }], rowBlocks := rows }

/-- Form block b of a team in its slots (R16, R23, R32, R48): a group whose lanes are all surplus ends at once. -/
def formUnit (r : BitVec 1024) (t num core base : Nat) (s : State) (b : Nat) : State :=
  let (rows, s) := (List.range (rUnit r / 16)).foldl (fun (acc : List Nat × State) _ =>
    let (id, s) := addRows acc.2 core (rV r)
    (acc.1 ++ [id], s)) ([], s)
  let w := rWidth r
  (List.range (rUnit r / w)).foldl (fun s m =>
    let held := (List.range (rUnitSlots r)).filterMap fun k => if 16 < w && k ≠ 0 then some (base + k) else none
    let g := startGroup r t num core (base + m) (b * rUnit r + m * w) held rows
    if (dropEmpty g.stack).isEmpty then s
    else
      let (id, s) := freshId s
      { s with groups := tset s.groups id g }) s

/-- Form one copy of a team on a core set (R13, R16, R49, R353), and its key. -/
def formTeam (s : State) (seq num record : Nat) (cores : List Nat) (bases : List (List Nat)) : Nat × State :=
  let r := (tgetD s.launches seq {}).record
  let (t, s) := freshId s
  let home := cores.headD 0
  let team : Team := { launch := seq, num := num, cores := cores, record := record, placed := s.dist.placements,
                       placedAt := (coreAt s home).cycle }
  let s := { s with teams := tset s.teams t team }
  let c := cores.length
  let n := rUnits r
  let s := (List.range n).foldl (fun s b =>
    let j := b * c / n
    let i := ((List.range b).filter fun x => x * c / n == j).length
    formUnit r t num (cores.getD j 0) ((bases.getD j []).getD i 0) s b) s
  (t, cores.foldl (fun s c => dropCleanIf s c fun _ => true) s)

/-- Count a placement; it is the previous one of its grid (R59, R63, R64). -/
def countPlacement (s : State) (seq : Nat) (cores : List Nat) : State :=
  { s with
    dist := { s.dist with placements := s.dist.placements + 1 }
    launches := tmod s.launches seq fun l => { l with lastCluster := some (clusterOf (cores.headD 0)) } }

/-- Place a new team on a core set, and the trailing copy of a redundant one on the set of the other cluster (R62): its
first checkpoint is its state at its start (R411). -/
def placeFresh (s : State) (seq : Nat) (cores : List Nat) : Option State :=
  let l := tgetD s.launches seq {}
  let r := l.record
  match freeRecords s seq r, freshFit s r cores with
  | some recs, some bases =>
    let (t, s1) := formTeam s seq l.next (recs.headD 0) cores bases
    let s2 :=
      if rRed r then
        let other := cores.map mateCore
        match freshFit s r other with
        | none => none
        | some bases' =>
          let (u, s2) := formTeam s1 seq l.next (recs.getD 1 0) other bases'
          let s2 := { s2 with teams := tmod (tmod s2.teams t fun x => { x with mate := some u }) u fun x =>
            { x with mate := some t, trailing := true } }
          some (takeSnapshot s2 u)
      else some s1
    s2.map fun s =>
      let s := if r.getLsbD 186 then takeSnapshot s t else s
      let s := { s with launches := tmod s.launches seq fun l => { l with next := l.next + 1 } }
      countPlacement s seq cores
  | _, _ => none

/-! ### Restoring a team -/

/-- A restored group in its new place; an image in the landing area is seated (R73, R105). -/
def reseatGroup (old new : List Nat) (maps : List (List (Nat × Nat))) (g : Group) : Group :=
  let j := old.idxOf g.core
  let m := maps.getD j []
  let moved (x : Nat) : Nat := ((m.find? fun y => y.1 == x).map (·.2)).getD x
  { g with core := new.getD j 0, slot := moved g.slot, held := g.held.map moved, image := false, rowsOut := 0, rowWait := 0 }

/-- The target arrivals that BTEs held for a saved team are applied in their order, before its groups resume (R402,
R403). -/
def applyHeld (s : State) (t : Nat) : State :=
  let l := (tgetD s.teams t {}).heldPosts
  l.foldl applyOne { s with teams := tmod s.teams t fun x => { x with heldPosts := [] } }

/-- Restore one copy of a saved team on a core set (R73): the sections of its context record are read back. -/
def restoreCopy (s : State) (t : Nat) (cores : List Nat) (maps : List (List (Nat × Nat))) : State :=
  let s := loadMatrix (loadRecord s t) t
  let x := tgetD s.teams t {}
  let mine := s.groups.filter fun g => g.2.owner == .team t
  let where_ (b : Nat) : Option Nat := (mine.find? fun g => g.2.rowBlocks.contains b).map fun g =>
    cores.getD (x.cores.idxOf g.2.core) 0
  let s := { s with
    rowBlocks := s.rowBlocks.map fun b => match where_ b.1 with
      | some c => (b.1, { b.2 with core := c })
      | none => b
    groups := s.groups.map fun g => if g.2.owner == .team t then (g.1, reseatGroup x.cores cores maps g.2) else g
    copies := s.copies.map fun c => if c.2.team = t then (c.1, { c.2 with core := cores.headD 0 }) else c
    teams := tmod s.teams t fun x => { x with cores := cores, phase := .resident, placed := s.dist.placements,
                                              placedAt := (coreAt s (cores.headD 0)).cycle } }
  let s := cores.foldl (fun s c => dropCleanIf s c fun _ => true) s
  applyHeld s t

/-- Restore a saved team, and the other copy of a redundant one, on a core set that fits. -/
def placeSaved (s : State) (t : Nat) (cores : List Nat) : Option State :=
  let x := tgetD s.teams t {}
  match restoreFit s t cores with
  | none => none
  | some m =>
    let s1 := restoreCopy s t cores m
    let s2 := match x.mate with
      | none => some s1
      | some u => (restoreFit s u (cores.map mateCore)).map fun m' => restoreCopy s1 u (cores.map mateCore) m'
    s2.map fun s => countPlacement s x.launch cores

/-! ### What the distributor tries -/

/-- The saved teams of a launch, lowest number first; a redundant team stands for both copies. -/
def savedTeams (s : State) (seq : Nat) : List (Nat × Team) :=
  (s.teams.filter fun t => t.2.launch == seq && t.2.phase == .saved && !t.2.trailing).mergeSort fun a b =>
    decide (a.2.num ≤ b.2.num)

/-- A launch has unplaced teams, saved ones included (R55). -/
def hasUnplaced (s : State) (seq : Nat) (l : Launch) : Bool :=
  !l.aborted && !l.done && (decide (l.next < rTeams l.record) || !(savedTeams s seq).isEmpty)

/-- A gang launch waits: none of its teams has been placed (R65). -/
def gangWaits (l : Launch) : Bool := rGang l.record && l.next == 0 && !l.aborted && !l.done && !l.placing

/-- A waiting gang launch of the same or a higher class keeps a core for itself (R65); of two gang launches of one
class, the earlier. -/
def gangBlocks (s : State) (seq core : Nat) : Bool :=
  let l := tgetD s.launches seq {}
  s.launches.any fun x =>
    x.1 != seq && gangWaits x.2 && x.2.record.getLsbD (768 + core) &&
      (decide (rPrio x.2.record < rPrio l.record) ||
       (rPrio x.2.record == rPrio l.record && (!rGang l.record || decide (x.1 < seq))))

/-- The cores of a set may take a team of a launch now: no test removes them (R365), no gang launch blocks them. -/
def setUsable (s : State) (seq : Nat) (cores : List Nat) : Bool :=
  let r := (tgetD s.launches seq {}).record
  (cores ++ if rRed r then cores.map mateCore else []).all fun c =>
    s.testing != some (clusterOf c) && !gangBlocks s seq c

/-- The core sets of a launch in the order of R63. -/
def scanSets (s : State) (seq : Nat) : List (List Nat) :=
  let l := tgetD s.launches seq {}
  (coreSets l.record (match l.lastCluster with
    | some g => g + 1
    | none => 0)).filter (setUsable s seq)

/-- Place the next never-placed team of a launch (R63). -/
def tryFresh (s : State) (seq : Nat) : Option State := (scanSets s seq).findSome? (placeFresh s seq)

/-- Restore a saved team; a spanning team stays in its cluster (R72, R73). -/
def tryRestore (s : State) (seq t : Nat) : Option State :=
  let x := tgetD s.teams t {}
  let home := clusterOf (x.cores.headD 0)
  ((scanSets s seq).filter fun c => x.cores.length == 1 || clusterOf (c.headD 0) == home).findSome? (placeSaved s t)

/-- Place all the teams of a gang launch, one after the other. -/
def placeAll : Nat → Nat → State → Option State
  | 0, _, s => some s
  | n + 1, seq, s =>
    match tryFresh s seq with
    | none => none
    | some s' => placeAll n seq s'

/-- All the teams of a gang launch can be placed together now (R65); no more than 32 teams fit a core. -/
def gangFits (s : State) (seq : Nat) : Bool :=
  let n := rTeams (tgetD s.launches seq {}).record
  decide (n ≤ Config.teamSlots * Config.cores) && (placeAll n seq s).isSome

/-- A launch alone on an empty device. -/
def emptyWith (s : State) (seq : Nat) (l : Launch) : State :=
  { s with groups := [], teams := [], rowBlocks := [], launches := [(seq, l)], testing := none }

/-- The launch's next team, and the state in which it is placed: a saved team before a never-placed one (R73), a gang
launch only as a whole (R65). DESIGN CHOICE (log 82): of several saved teams the lowest-numbered is next, as R64 says for
refills, and while it cannot be restored no other is tried. -/
def tryNext (s : State) (seq : Nat) : Option State :=
  let l := tgetD s.launches seq {}
  match savedTeams s seq with
  | (t, _) :: _ => tryRestore s seq t
  | [] =>
    if rTeams l.record ≤ l.next then none
    else if rGang l.record && l.next == 0 then
      if gangFits s seq then
        (tryFresh s seq).map fun s => { s with launches := tmod s.launches seq fun l =>
          { l with placing := decide (l.next < rTeams l.record) } }
      else none
    else tryFresh s seq

/-- The number of a launch's next team. -/
def nextNum (s : State) (seq : Nat) : Nat :=
  match savedTeams s seq with
  | (_, x) :: _ => x.num
  | [] => (tgetD s.launches seq {}).next

end Sys2Proof.Machine
end

