-- ==== Sys2Proof/Machine/System.lean ====
section
/-!
DEFINITION. Machine state and system instructions: SRD, SWR, TRAP, RETT, BRK, NOP, YIELD, ISYNC, IINV, PNOPRE, PPRE,
CHKERR and LAUNCH (R286 to R294).
-/

namespace Sys2Proof.Machine

/-! ### What SRD reads -/

/-- sr.chk of a group; a redundant team's is one register, set by either copy (R409, R417). -/
def chkAt (s : State) (g : Group) : Chk :=
  match g.owner with
  | .spawned k => (tgetD s.spawned k {}).chk
  | .team t =>
    let x := tgetD s.teams t {}
    match x.mate with
    | none => x.chk
    | some m =>
      let y := (tgetD s.teams m {}).chk
      { x.chk with pc := x.chk.pc || y.pc, pw := x.chk.pw || y.pw, pb := x.chk.pb || y.pb }

/-- The layout of sr.chk (R409). -/
def chkWord (c : Chk) : Word :=
  BitVec.ofNat 64 ((if c.pc then 1 else 0) + (if c.pw then 2 else 0) + (if c.pb then 4 else 0) +
    256 * min 255 c.mmcnt + 65536 * min 255 c.rbcnt)

/-- A bit of a word. -/
def flag (b : Bool) (k : Nat) : Word := if b then 1#64 <<< k else 0#64

/-- The layout of sr.status (R287). -/
def statusWord (s : State) (gid : Nat) (g : Group) (e : Entry) : Word :=
  flag g.ref 0 ||| flag (coachAbroad s gid) 1 ||| flag g.parked 2 ||| flag g.mcmask 3 ||| flag (hmode g) 4 |||
  flag g.sstep 5 ||| flag e.noPre 6 ||| (g.tcode.setWidth 64 <<< 8)

/-- Word k of the membership bitmap of the current view (R309, R310). -/
def viewMapWord (s : State) (k : Nat) : Word :=
  (members s).foldl (fun w d => if d / 64 = k then w ||| (1#64 <<< (d % 64)) else w) 0#64

/-- A special register that is the same in every lane (R286). -/
def specialReg (s : State) (g : Group) (idx : Nat) : Word :=
  let h := g.handler.getD {}
  match idx with
  | 2 => BitVec.ofNat 64 g.width
  | 3 => BitVec.ofNat 64 g.slot
  | 4 => teamNumber s g
  | 5 => BitVec.ofNat 64 g.core
  | 6 => BitVec.ofNat 64 (clusterOf g.core)
  | 7 => BitVec.ofNat 64 (devNo s)
  | 8 => BitVec.ofNat 64 (launchKey s g)
  | 9 => BitVec.ofNat 64 (coreAt s g.core).cycle
  | 10 => BitVec.ofNat 64 (curView s)
  | 11 => viewMapWord s 0
  | 12 => viewMapWord s 1
  | 13 => viewMapWord s 2
  | 14 => viewMapWord s 3
  | 15 => chkWord (chkAt s g)
  | 16 => BitVec.ofNat 64 (match g.owner with
    | .team t => (tgetD s.teams t {}).refusals
    | .spawned _ => g.refusals)
  | 17 => statusWord s s.cur.gid g (strandOf g s.cur.entry)
  | 18 => h.tpc
  | 19 => h.tinfo
  | _ => h.taddr

/-- The value of a special register in a lane (R286). -/
def laneReg (s : State) (g : Group) (idx l : Nat) : Word :=
  match idx with
  | 0 => BitVec.ofNat 64 l
  | 1 => BitVec.ofNat 64 (g.laneNo.getD l 0)
  | k => specialReg s g k

/-- Some bits of a set, from bit lo, those below a limit (R288). -/
def bitsFrom {n : Nat} (x : BitVec n) (lo limit : Nat) : Word :=
  ((x.extractLsb' lo 64) : Word) &&& BitVec.ofNat 64 (2 ^ (min limit (lo + 64) - lo) - 1)

/-- A field of a stack entry (R288, R289). -/
def entryField (l : List Entry) (idx k : Nat) : Word :=
  match idx with
  | 4 => BitVec.ofNat 64 l.length
  | _ =>
    match l[k]? with
    | none => 0#64
    | some e =>
      match idx with
      | 0 => e.pc
      | 1 => e.mask
      | 2 => e.reconv.getD (BitVec.allOnes 64)
      | _ => (match e.mode with
        | .live => 1#64
        | .pending => 2#64
        | _ => 3#64)

/-- A field of a rendezvous point (R288). -/
def pointField (s : State) (g : Group) (b k : Nat) : Word :=
  match pointOf s g b with
  | none => 0#64
  | some (d, p) =>
    match k with
    | 0 => BitVec.ofNat 64 p.arrived
    | 1 => BitVec.ofNat 64 p.expected
    | _ => flag p.phase 0 ||| 2#64 ||| flag d 2

/-- A tile entry as the handler sees it: with the state it has written (R289). -/
def tileSeen (s : State) (g : Group) (n : Nat) : BitVec 128 :=
  let e := tileAt (teamOf s g) n
  match g.handler.bind fun h => tget h.tileStates n with
  | some st => withState e st
  | none => e

/-- The range of s(sa) for a class (R288); false: a reserved-field trap. -/
def srRange (s : State) (g : Group) (cls idx a : Nat) : Bool :=
  match cls with
  | 1 => decide (idx < declV s g) && decide (a < g.width)
  | 2 => decide (idx < declS s g)
  | 5 => if idx = 4 then a == 0 else decide (a < 512)
  | 6 => decide (a < 3)
  | 7 => decide (a < 2)
  | 8 => decide (a < 16384)
  | 9 => decide (a < 8)
  | _ => true

/-- The state of classes 1 to 9 (R288). -/
def stateWord (s : State) (g : Group) (cls idx a : Nat) : Word :=
  match cls with
  | 1 => (getV g idx a).setWidth 64
  | 2 => tgetD g.sregs idx 0#64
  | 3 => if idx < 4 then bitsFrom g.vfull (64 * idx) (declV s g) else bitsFrom g.sfull (64 * (idx - 4)) (declS s g)
  | 4 => if idx < 8 then getP g idx &&& widthMask g.width else flag (getQ g (idx - 8)) 0
  | 5 => entryField g.stack idx a
  | 6 => pointField s g idx a
  | 7 => ((tileSeen s g idx).extractLsb' (64 * a) 64)
  | 8 => tgetD (tgetD (teamOf s g).matrix.accs idx {}).vals a 0#64
  | _ => (tgetD (teamOf s g).templates idx {}).bits.extractLsb' (64 * a) 64

/-- The access is only for a handler (R288). -/
def handlerOnly (cls idx : Nat) (write : Bool) : Bool := cls != 0 || (!write && 18 ≤ idx)

/-- The register that an access of class 1 or 2 names by its index (R164, R288). -/
def indexNames (cls k idx : Nat) : List Nat := if cls = k then [idx] else []

/-- SRD (R288). -/
def execSrd (o : SrdOp) (s : State) : Host.Outcome State Fault Refusal :=
  finish_ s (do
    let cls := o.cls.toNat
    let idx := o.idx.toNat
    let d := o.sd.toNat
    let useA := cls == 1 || 5 ≤ cls
    let srcs := if useA then [src o.sa o.fa] else []
    let v := o.v == 1#1
    let s ← begin_ { sr := srcs, sw := if v then [] else [d], vw := if v then [d] else [], ns := indexNames cls 2 idx,
                     nv := indexNames cls 1 idx, steerS := srcs.map (·.1) } none s
    let g := curGroup s
    need (!handlerOnly cls idx false || hmode g) 0x11
    let a := if useA then (getS g o.sa.toNat).toNat else 0
    need (srRange s g cls idx a) 0x03
    if v then do
      dstFull [] [d] s
      let lanes := strandLanes g (curStrand s)
      let (w, s) ← outside 2 (lanes.map (laneReg s g idx)) s
      .ok (advance (writeLanes s d ((List.range lanes.length).map fun k =>
        (lanes.getD k 0, (w.getD k 0#64).setWidth 32, false))))
    else do
      dstFull [d] [] s
      if cls = 0 then do
        let (w, s) ← outside 2 [specialReg s g idx] s
        .ok (advance (writeScalar s d (w.headD 0#64) false))
      else if cls = 6 then do
        let (w, s) ← outside 2 [stateWord s g cls idx a] s
        .ok (advance (writeScalar s d (w.headD 0#64) false))
      else
        let bad := (cls == 1 && poisonedV g idx a) || (cls == 2 && g.spoison.contains idx)
        .ok (advance (writeScalar s d (stateWord s g cls idx a) bad)))

/-! ### What SWR writes -/

/-- Class 0: REF, MCMASK, and in handler mode SSTEP and sr.tpc (R289). -/
def writeSpecial (g : Group) (idx : Nat) (v : Word) : Group :=
  match idx with
  | 17 =>
    let g := { g with ref := g.ref && !v.getLsbD 0, mcmask := v.getLsbD 3 }
    if hmode g then { g with sstep := v.getLsbD 5 } else g
  | 18 => { g with handler := g.handler.map fun h => { h with tpc := v &&& 0x01FFFFFFFFFFFFF8#64 } }
  | _ => g

/-- The registers that replies on their way will fill or restore (R289). -/
def awaited (s : State) (gid : Nat) (scalar : Bool) : List Nat :=
  s.outs.flatMap fun o =>
    let x := o.2
    if x.gid == gid && fillsRegister x && x.scalar == scalar && !x.hreg then
      (if scalar then [x.reg] else runOf x.reg x.nreg ++ (match x.coach with
        | some c => runOf c.base c.count
        | none => []))
    else []

/-- Full/empty bits from bit lo written: those below the limit, save that none that is awaited becomes full (R289). -/
def writeBits {n : Nat} (x : BitVec n) (lo limit : Nat) (busy : List Nat) (v : Word) : BitVec n :=
  (List.range 64).foldl (fun x k =>
    let r := lo + k
    if limit ≤ r || (v.getLsbD k && busy.contains r) then x else withBit x r (v.getLsbD k)) x

/-- A stack entry written (R289); a strand moved to another PC starts its instruction afresh. -/
def writeEntry (e : Entry) (idx : Nat) (v : Word) : Entry :=
  match idx with
  | 0 =>
    if e.pc = v then e
    else { e with pc := v, waitsOn := none, released := false, stage := 0, request := 0, spawnLane := 0 }
  | 1 => { e with mask := v }
  | 2 => { e with reconv := if v >>> 57 = 0#64 then some v else none }
  | _ => e

/-- A rendezvous point written; none for a reserved-field trap (R289). -/
def writePoint (s : State) (g : Group) (b k : Nat) (v : Word) : Option State :=
  match pointOf s g b with
  | none =>
    if k = 2 && v.getLsbD 1 && (teamKey g).isSome then some (putPoint s g b false { init := true }) else some s
  | some (d, p) =>
    match k with
    | 0 =>
      let p' := if p.expected ≤ v.toNat then { p with arrived := 0, phase := !p.phase } else { p with arrived := v.toNat }
      some (turnPoint s g b d p p')
    | 1 =>
      if (if d then 2 ^ 32 - 1 else 16384) < v.toNat then none
      else some (putPoint s g b d { p with expected := v.toNat })
    | _ =>
      let p' := { p with phase := v.getLsbD 0 }
      some (turnPoint s g b d p (if !d && !v.getLsbD 1 then { p' with init := false, arrived := 0, expected := 0 } else p'))

/-- Tile entry n written; a change of its state takes effect at RETT, and the state that the tile has already is no change
(R88, R289). -/
def writeTile (s : State) (g : Group) (n a : Nat) (v : Word) : State :=
  let old := tileAt (teamOf s g) n
  let e : BitVec 128 :=
    if a = 0 then (old &&& ~~~(0xFFFFFFFFFFFFFFFC#128)) ||| ((v &&& 0x07FF07FF0FFF0304#64).setWidth 128)
    else (old &&& 0xFFFFFFFFFFFFFFFF#128) ||| ((v &&& 0x7FFF#64).setWidth 128 <<< 64)
  let s := modTeam s g fun t => { t with tiles := tset t.tiles n e }
  if a = 0 then
    setGroup s { g with handler := g.handler.map fun h =>
      { h with tileStates := if v.toNat % 4 = tState old then terase h.tileStates n else tset h.tileStates n (v.toNat % 4) } }
  else s

/-- The bits of an accumulator value that exist: 32 of an integer, 34 of a float; the others are ignored and read 0 (R145). -/
def accBits (int : Bool) (v : Word) : Word := v &&& if int then 0xFFFFFFFF#64 else 0x3FFFFFFFF#64

/-- An accumulator value written (R145, R289). -/
def writeAcc (s : State) (g : Group) (k a : Nat) (v : Word) : State :=
  modTeam s g fun t =>
    let x := tgetD t.matrix.accs k {}
    { t with matrix := { t.matrix with accs := tset t.matrix.accs k { x with vals := tset x.vals a (accBits x.int v) } } }

/-- State of classes 1 to 9 written; none for a reserved-field trap (R289). -/
def writeState (s : State) (g : Group) (cls idx a : Nat) (v : Word) : Option State :=
  match cls with
  | 1 => some (setGroup s (putV g idx a (v.setWidth 32)))
  | 2 => some (setGroup s (putOwnS g idx v false))
  | 3 =>
    if idx < 4 then
      some (setGroup s { g with vfull := writeBits g.vfull (64 * idx) (declV s g) (awaited s s.cur.gid false) v })
    else
      some (setGroup s { g with sfull := writeBits g.sfull (64 * (idx - 4)) (declS s g) (awaited s s.cur.gid true) v })
  | 4 => some (setGroup s (if idx < 8 then putP g idx (v &&& widthMask g.width) else putQ g (idx - 8) (v.getLsbD 0)))
  | 5 =>
    if 3 ≤ idx then some s
    else some (setGroup s { g with stack := g.stack.modify a fun e => writeEntry e idx v })
  | 6 => writePoint s g idx a v
  | 7 => if (teamKey g).isSome then some (writeTile s g idx a v) else some s
  | 8 => some (writeAcc s g idx a v)
  | _ => some s

/-- SWR (R288, R289). -/
def execSwr (o : SwrOp) (s : State) : Host.Outcome State Fault Refusal :=
  finish_ s (do
    let cls := o.cls.toNat
    let idx := o.idx.toNat
    let useA := cls == 1 || 5 ≤ cls
    let srcs := if useA then [src o.sa o.fa] else []
    let s ← begin_ { sr := (o.sd.toNat, false) :: srcs, ns := indexNames cls 2 idx, nv := indexNames cls 1 idx,
                     steerS := srcs.map (·.1) } none s
    let g := curGroup s
    need (!handlerOnly cls idx true || hmode g) 0x11
    let v := getS g o.sd.toNat
    if cls = 0 then .ok (advance (setGroup s (writeSpecial g idx v)))
    else do
      let a := if useA then (getS g o.sa.toNat).toNat else 0
      need (srRange s g cls idx a) 0x03
      match writeState s g cls idx a v with
      | none => trapWith 0x03
      | some s => .ok (advance s))

/-! ### Traps and the return from them -/

/-- TRAP (R169, R290): the word is consumed, its block ends, and the trap resumes at next_pc. -/
def execTrap (o : ImmOp) (s : State) : Host.Outcome State Fault Refusal :=
  let e := curStrand s
  let past (s : State) : State := setStrand s { curStrand s with pc := nextPc e, block := none }
  let t : TrapInfo := { code := 0x38#8, imm := o.imm.setWidth 16 }
  if isTrailing s (curGroup s) then
    match recordedTrap s with
    | some t => .next (progressed (takeTrap (past (popValue s)) t))
    | none => .next (progressed (cannotFollow s))
  else .next (progressed (takeTrap (past (record s s (some t))) t))

/-- BRK (R290): the resume PC is the BRK itself. -/
def execBrk (o : ImmOp) (s : State) : Host.Outcome State Fault Refusal :=
  finish_ s (.error (.trap { code := 0x30#8, imm := o.imm.setWidth 16 }))

/-- Strands that waited to merge and no longer stand at their reconvergence PC go on (R289). -/
def unmerge (e : Entry) : Entry :=
  if e.mode == .merging && e.reconv != some e.pc then { e with mode := .pending } else e

/-- The tile states that a handler has written take effect (R289). -/
def applyTiles (s : State) (h : Handler) : State :=
  h.tileStates.foldl (fun s x => modTeam s (curGroup s) fun t =>
    { t with tiles := tset t.tiles x.1 (withState (tileAt t x.1) x.2) }) s

/-- The entry that an entry of a stack has become in a later stack: itself, or the nearest parent that merging resumed. -/
def resumedAs : Nat → List Entry → List Entry → Nat → Option Nat
  | 0, _, _, _ => none
  | n + 1, old, new, id =>
    if (findEntry new id).isSome then some id
    else ((findEntry old id).bind (·.parent)).bind (resumedAs n old new)

/-- Single-stepping after RETT (R371): where the trapped strand merged at once, it steps the parent that resumed; where it
waits to merge it can issue nothing, and no strand is stepped (log 75). -/
def settleStepping (before after : Group) : Group :=
  let next := before.stepping.bind (resumedAs (before.stack.length + 1) before.stack after.stack)
  { after with stepping := next.filter fun id => (findEntry after.stack id).any fun e => e.mode != .merging }

/-- RETT (R289, R290, R360): the return from an exception. -/
def execRett (s : State) : Host.Outcome State Fault Refusal :=
  finish_ s (do
    let g := curGroup s
    match g.handler with
    | none => trapWith 0x11
    | some h =>
      need (stackSound g) 0x05
      let s := applyTiles s h
      let g := leaveHandler g h
      let g := { g with stack := g.stack.map unmerge }
      .ok (setGroup s (settleStepping g (settleGroup s.progress g))))

/-! ### Small system instructions -/

/-- NOP (R291). -/
def execNop (s : State) : Host.Outcome State Fault Refusal := finish_ s (.ok (advance s))

/-- YIELD (R70, R291): the strand is passed over in its pipe's lowest choice. -/
def execYield (s : State) : Host.Outcome State Fault Refusal :=
  finish_ s (.ok (advance (setStrand s { curStrand s with yielded := true })))

/-- ISYNC (R133, R291): the core's fetched and buffered instruction words go. -/
def execIsync (s : State) : Host.Outcome State Fault Refusal :=
  finish_ s (.ok (advance (modCore s (curGroup s).core fun c => { c with fetched := [] })))

/-- Instruction words whose 64-byte line overlaps physical pieces. -/
def lineHit (segs : List (Nat × Nat)) (k : Nat) : Bool :=
  segs.any fun x => decide (x.1 / 64 ≤ k / 8) && decide (k / 8 ≤ (x.1 + x.2 - 1) / 64)

/-- The physical pieces of a range; a page that fails translation is skipped (R291). -/
def mappedPieces (s : State) (core ctx : Nat) (a : Word) (n : Nat) : List (Nat × Nat) :=
  if n = 0 then []
  else (cutAt 4096 a.toNat n).filterMap fun x =>
    match translateNow s (.core core) ctx (BitVec.ofNat 64 x.1) 0 with
    | .ok (pa, _) => some (pa, x.2)
    | .error _ => none

/-- Invalidate the instruction lines of pieces in the caches of one cluster and of its cores, or of all (R133, R291). Words
that a core has fetched and buffered stay until its ISYNC. -/
def invalidateLines (s : State) (cl : Option Nat) (segs : List (Nat × Nat)) : State :=
  let mine (k : Nat) : Bool := cl.all (· == k)
  let keep (t : Tab Word) : Tab Word := t.filter fun x => !lineHit segs x.1
  { s with
    cicache := s.cicache.map fun c => (c.1, if mine c.1 then keep c.2 else c.2)
    cores := s.cores.map fun c => (c.1, if mine (clusterOf c.1) then { c.2 with icache := keep c.2.icache } else c.2) }

/-- IINV (R133, R291). -/
def execIinv (o : IinvOp) (s : State) : Host.Outcome State Fault Refusal :=
  finish_ s (do
    let s ← begin_ { sr := [src o.sa o.fa, src o.sb o.fb], steerS := [o.sa.toNat, o.sb.toNat] } none s
    need (o.scope == 3#3 || o.scope == 5#3) 0x08
    let g := curGroup s
    let a := getS g o.sa.toNat
    let n := getS g o.sb.toNat
    need (n >>> 32 == 0#64) 0x03
    let record := actionRecord 0xF7#8 [a, n]
    if isTrailing s g then .ok (advance (foldRecord s record))
    else do
      let s ← afterCheck .action s
      let cl := if o.scope == 3#3 then some (clusterOf g.core) else none
      let s' := notePages s (.core g.core) (ctxOf s g) 0 (if n = 0#64 then [] else [(a.toNat, n.toNat)])
      .ok (advance (foldRecord (invalidateLines s' cl (mappedPieces s g.core (ctxOf s g) a n.toNat)) record)))

/-- PNOPRE (R292). -/
def execPnopre (s : State) : Host.Outcome State Fault Refusal :=
  finish_ s (do
    let s ← begin_ { hcode := 0x01 } none s
    .ok (advance (setStrand s { curStrand s with noPre := true })))

/-- PPRE (R292). -/
def execPpre (s : State) : Host.Outcome State Fault Refusal :=
  finish_ s (do
    let s ← begin_ { hcode := 0x01 } none s
    .ok (advance (setStrand s { curStrand s with noPre := false })))

/-- The sticky bits of sr.chk cleared (R293). -/
def clearChk (c : Chk) : Chk := { c with pc := false, pw := false, pb := false }

/-- Clear the sticky bits of a group's sr.chk; a redundant team has one register (R293, R417). -/
def clearChkOf (s : State) (g : Group) : State :=
  match g.owner with
  | .spawned k => { s with spawned := tmod s.spawned k fun x => { x with chk := clearChk x.chk } }
  | .team t =>
    let s' := { s with teams := tmod s.teams t fun x => { x with chk := clearChk x.chk } }
    match (tgetD s.teams t {}).mate with
    | some m => { s' with teams := tmod s'.teams m fun x => { x with chk := clearChk x.chk } }
    | none => s'

/-- CHKERR (R293). -/
def execChkerr (o : ChkerrOp) (s : State) : Host.Outcome State Fault Refusal :=
  finish_ s (do
    let s ← begin_ { sw := [o.sd.toNat] } none s
    let g := curGroup s
    dstFull [o.sd.toNat] [] s
    let (v, s) ← outside 2 [chkWord (chkAt s g)] s
    let s := if o.clr == 1#1 && !isTrailing s g then clearChkOf s g else s
    .ok (advance (writeScalar s o.sd.toNat (v.headD 0#64) false)))

/-! ### LAUNCH -/

/-- Slots of a queue's ring (R50). -/
def ringSize (q : Queue) : Nat := 2 ^ q.log2

/-- The queue is full (R50). -/
def ringFull (q : Queue) : Bool := (q.tail - q.head).toNat == ringSize q

/-- The virtual address of the slot for a count (R50). -/
def ringSlot (q : Queue) (i : BitVec 32) : Word := q.base + BitVec.ofNat 64 (128 * (i.toNat % ringSize q))

/-- LAUNCH (R54, R293). -/
def execLaunch (o : LaunchOp) (s : State) : Host.Outcome State Fault Refusal :=
  finish_ s (do
    let s ← begin_ { sr := [src o.sa o.fa, src o.sb o.fb], sw := [o.sd.toNat], steerS := [o.sa.toNat, o.sb.toNat],
                     hcode := 0x01 } none s
    let g := curGroup s
    let a := getS g o.sa.toNat
    let n := getS g o.sb.toNat
    checkAligned 128 [(0, a)]
    need (decide (n.toNat < 64) && (tgetD s.queues n.toNat {}).dev) 0x11
    dstFull [o.sd.toNat] [] s
    let record := actionRecord 0xFB#8 [a, n]
    if isTrailing s g then do
      let (v, s) ← outside 8 [] s
      .ok (advance (writeScalar (foldRecord s record) o.sd.toNat (v.headD 0#64) false))
    else do
      let (bytes, s) ← readImage s a 128
      let q := tgetD s.queues n.toNat {}
      until_ (!ringFull q) s
      let va := ringSlot q q.tail
      match translateNow s (.core g.core) n.toNat va 1 with
      | .error c => trapLane c 0 va
      | .ok (pa, _) => do
        releaseWide s
        let s ← afterCheck .action s
        let s := notePage s (.core g.core) n.toNat va 1
        let s := segWrite s (cutAt 8 pa 128) bytes
        let s := dropCleanIf s g.core fun l => (linesOf pa 128).contains l
        let s := { s with queues := tset s.queues n.toNat { q with tail := q.tail + 1#32 } }
        let (v, s) ← outside 8 [q.tail.setWidth 64] s
        .ok (advance (writeScalar (foldRecord s record) o.sd.toNat (v.headD 0#64) false)))

/-- UNDEFINED_INSTRUCTION (R175): a word that holds no instruction traps. -/
def execUndefinedInstruction (_w : Word) (s : State) : Host.Outcome State Fault Refusal :=
  finish_ s (trapWith 0x01)

end Sys2Proof.Machine
end

