-- ==== Sys2Proof/Machine/LaunchQueue.lean ====
section
/-!
DEFINITION. Launch queues: their registers, the activation of the record at the head of a queue, and its rejection (R47
to R56).
-/

namespace Sys2Proof.Machine

/-! ### Registers -/

/-- A queue. -/
def queueAt (s : State) (n : Nat) : Queue := tgetD s.queues n {}

/-- The state with a queue changed. -/
def modQueue (s : State) (n : Nat) (f : Queue → Queue) : State := { s with queues := tset s.queues n (f (queueAt s n)) }

/-- An active launch of the queue has an unplaced team (R55). -/
def queueUnplaced (s : State) (n : Nat) : Bool := s.launches.any fun l => l.2.queue == n && hasUnplaced s l.1 l.2

/-- LQSTAT.STATE (R53). -/
def queueState (s : State) (n : Nat) : Nat :=
  let q := queueAt s n
  if q.halted then 3 else if !q.en then 0 else if q.head == q.tail && !queueUnplaced s n then 1 else 2

/-- A register of a queue, by its offset (R50, R51, R53). -/
def queueReg (s : State) (n off : Nat) : Word :=
  let q := queueAt s n
  match off with
  | 0x00 => q.base
  | 0x08 => q.head.setWidth 64
  | 0x10 => q.tail.setWidth 64
  | 0x18 => flag q.dev 10 ||| flag q.preok 9 ||| BitVec.ofNat 64 (q.log2 * 16) ||| flag q.en 0
  | 0x20 => (q.index.setWidth 64 <<< 8) ||| BitVec.ofNat 64 (queueState s n * 16 + q.code)
  | 0x28 => BitVec.ofNat 64 q.quant
  | 0x30 => BitVec.ofInt 64 q.deficit
  | _ => 0#64

/-- A write to LQTAIL (R54): ignored for a count behind head or beyond the ring, and in a queue that device code feeds. -/
def writeTail (s : State) (n : Nat) (v : Word) : State :=
  modQueue s n fun q =>
    let t := v.setWidth 32
    let d := (t - q.head).toNat
    if q.dev || 2 ^ 31 ≤ d || ringSize q < d then q else { q with tail := t }

/-- The fields of LQCTL that a write changes (R51, R52): EN = 1 with a bad ring size gives code 7 and leaves EN 0. -/
def controlQueue (v : Word) (q : Queue) : Queue :=
  let q := if q.en then q else { q with log2 := (v.extractLsb' 4 5).toNat, dev := v.getLsbD 10 }
  let q := { q with preok := v.getLsbD 9 }
  if !v.getLsbD 0 then { q with en := false }
  else if !q.en && (q.log2 < 4 || 16 < q.log2) then { q with code := 7 }
  else { q with en := true }

/-- RESUME: the halted record is read again (R51, R53). -/
def resumeQueue (q : Queue) : Queue := if q.halted then { q with halted := false, code := 0 } else q

/-- SKIP: the halted record is discarded (R51, R53). -/
def skipQueue (q : Queue) : Queue := if q.halted then { q with halted := false, code := 0, head := q.head + 1#32 } else q

/-- A write to LQCTL; where SKIP and RESUME are both 1, SKIP takes effect (log 14). -/
def writeControl (s : State) (n : Nat) (v : Word) : State :=
  modQueue s n fun q =>
    let q := controlQueue v q
    if v.getLsbD 1 then skipQueue q else if v.getLsbD 2 then resumeQueue q else q

/-- A write to a register of a queue, by its offset (R50 to R53). -/
def writeQueueReg (s : State) (n off : Nat) (v : Word) : State :=
  match off with
  | 0x00 => modQueue s n fun q => if q.en then q else { q with base := v &&& 0x01FFFFFFFFFFF000#64 }
  | 0x10 => writeTail s n v
  | 0x18 => writeControl s n v
  | 0x20 => if v.getLsbD 0 then modQueue s n fun q => { q with code := 0 } else s
  | 0x28 => modQueue s n fun q => { q with quant := v.toNat % 2 ^ 32 }
  | _ => s

/-- A step about one of the 64 queues. -/
def queueStep (n : Nat) (s : State) (due : Bool) (f : State → State) : Host.Outcome State Fault Refusal :=
  event_ s (if decide (n < 64) && due then some (f s) else none)

/-- LQTAIL_WRITE (R54). -/
def execLqtailWrite (n : Nat) (v : Word) (s : State) : Host.Outcome State Fault Refusal :=
  queueStep n s true fun s => writeTail s n v

/-- LQ_ENABLE (R52, R53). -/
def execLqEnable (n : Nat) (v : Word) (s : State) : Host.Outcome State Fault Refusal :=
  queueStep n s (v.getLsbD 0) fun s => writeControl s n v

/-- LQ_DISABLE (R52). -/
def execLqDisable (n : Nat) (v : Word) (s : State) : Host.Outcome State Fault Refusal :=
  queueStep n s (!v.getLsbD 0) fun s => writeControl s n v

/-- LQ_RESUME (R51). -/
def execLqResume (n : Nat) (s : State) : Host.Outcome State Fault Refusal :=
  queueStep n s true fun s => modQueue s n resumeQueue

/-- LQ_SKIP (R51). -/
def execLqSkip (n : Nat) (s : State) : Host.Outcome State Fault Refusal :=
  queueStep n s true fun s => modQueue s n skipQueue

/-- LQSTAT_CLEAR (R53). -/
def execLqstatClear (n : Nat) (s : State) : Host.Outcome State Fault Refusal :=
  queueStep n s true fun s => modQueue s n fun q => { q with code := 0 }

/-! ### Activation -/

/-- The reserved bits of a launch record (R47). -/
def recordReserved (r : BitVec 1024) : Bool :=
  [(57, 7), (121, 7), (175, 1), (179, 1), (182, 2), (188, 4), (197, 3), (203, 5), (229, 11), (313, 7), (336, 48),
   (441, 7), (505, 7), (569, 6), (633, 6), (697, 71), (964, 60)].all fun x => recField r x.1 x.2 == 0

/-- A field of an address is aligned. -/
def aligned (r : BitVec 1024) (lo n : Nat) : Bool := recField r lo 57 % n == 0

/-- A dependence of a record, where it has one (R47). -/
def dependence (r : BitVec 1024) (k : Nat) : Option Word :=
  if r.getLsbD (575 + 64 * k) then some (BitVec.ofNat 64 (recField r (512 + 64 * k) 57)) else none

/-- The limits of the launch-record table (R47), and that RED = 1 goes with CHK = 1 (R411). -/
def recordLimits (r : BitVec 1024) : Bool :=
  recField r 176 3 ≤ 4 && 1 ≤ rLanes r && rLanes r ≤ 16384 && 1 ≤ rTeams r && 1 ≤ rPooln r && 63 ≤ recField r 240 16 &&
  recField r 216 13 ≤ 4096 && rScrg r ≤ 128 &&
  aligned r 0 8 && aligned r 64 64 && aligned r 384 8 && aligned r 448 8 && aligned r 256 4096 &&
  ([0, 1].all fun k => (dependence r k).all fun a => a.toNat % 8 == 0) && (!rRed r || r.getLsbD 186)

/-- A number of `n` bytes at a virtual address, as the distributor reads it; the bytes lie in one page. -/
def readNat (s : State) (ctx : Nat) (va : Word) (n : Nat) : Except Nat Nat :=
  (translateNow s .bare ctx va 0).map fun p => leNat (mread s.mem p.1 n)

/-- Every 4 KiB page of a launch's pool is writable (R66). -/
def poolOk (s : State) (ctx : Nat) (r : BitVec 1024) : Bool :=
  pagesWritable s ctx (recField r 256 57) (rPooln r * recordSize r)

/-- A declaration is smaller than the kernel header's count (R48, R300). -/
def declaresLess (r : BitVec 1024) (h : BitVec 512) : Bool :=
  [(192, 5), (200, 3), (208, 8), (216, 13)].any fun x => decide (recField r x.1 x.2 < (h.extractLsb' x.1 x.2).toNat)

/-- A single team, or a redundant pair, fits some permitted core set when it is empty (R53). -/
def singleFits (r : BitVec 1024) : Bool := !(coreSets r 0).isEmpty && decide (rCopies r ≤ rPooln r)

/-- The launch status of a record at activation, in the order of R53; 0 accepts it. -/
def activationCode (s : State) (n : Nat) (r : BitVec 1024) : Nat :=
  if !recordReserved r || !recordLimits r then 3
  else if recField r 768 196 = 0 then 4
  else if !(tgetD s.contexts n {}).en then 5
  else
    match readNat s n (BitVec.ofNat 64 (recField r 64 57)) 64 with
    | .error _ => 5
    | .ok h =>
      if !poolOk s n r then 5
      else if declaresLess r (BitVec.ofNat 512 h) then 6
      else if rGang r then
        if gangFits (emptyWith s s.dist.nextSeq { queue := n, record := r }) s.dist.nextSeq then 0 else 1
      else if singleFits r then 0 else 2

/-- A record is rejected: its queue halts (R55). -/
def haltQueue (s : State) (n code : Nat) : State :=
  modQueue s n fun q => { q with halted := true, code := code, index := q.head }

/-- What the distributor reads before an activation: the record, and whether its dependences are met (R53, R55). -/
def readHead (s : State) (n : Nat) : Except Nat (BitVec 1024 × Bool) := do
  let q := queueAt s n
  let r ← (readNat s n (ringSlot q q.head) 128).map (BitVec.ofNat 1024)
  let met (k : Nat) : Except Nat Bool :=
    match dependence r k with
    | none => .ok true
    | some a => if a.toNat % 8 ≠ 0 then .ok true else (readNat s n a 8).map fun v => v == 0
  let a ← met 0
  let b ← met 1
  .ok (r, a && b)

/-- The dependences of the record at the head of a queue, as physical addresses. -/
def headDeps (s : State) (n : Nat) : List Nat :=
  match readNat s n (ringSlot (queueAt s n) (queueAt s n).head) 128 with
  | .error _ => []
  | .ok r => [0, 1].filterMap fun k =>
    match dependence (BitVec.ofNat 1024 r) k with
    | none => none
    | some a =>
      if a.toNat % 8 ≠ 0 then none
      else match translateNow s .bare n a 0 with
        | .ok p => some p.1
        | .error _ => none

/-- The cores that own the lines of the dependences, each with its slice: the acquire that reads them promotes every one
(R55, R119). -/
def headOwners (s : State) (n : Nat) : List (Nat × Nat) :=
  ((headDeps s n).flatMap fun a => (tgetD s.owners (homeSlice a) []).filterMap fun e =>
    if e.1 = a / 128 then some (homeSlice a, e.2) else none).eraseDups

/-- A promotion for the distributor is under way. -/
def promoting (s : State) (x : Nat × Nat) : Bool :=
  s.promotions.any fun p => p.2.out == 0 && p.2.slice == x.1 && p.2.core == x.2

/-- Ask for a promotion on the distributor's behalf (R55, R119). -/
def promoteFor (s : State) (x : Nat × Nat) : State :=
  let (k, s) := freshId s
  newTrain { s with promotions := tset s.promotions k { slice := x.1, core := x.2, away := true } } (sliceSource x.1)
    .promotion k false

/-- Read the dependences once no core owns a line of them, after the promotions that this takes (R55, R119). -/
def acquireHead (s : State) (n : Nat) (f : Option State) : Option State :=
  match headOwners s n with
  | [] => f
  | l =>
    match l.filter fun x => !promoting s x with
    | [] => none
    | l => some (l.foldl promoteFor s)

/-- Launches that are active (R55). -/
def activeLaunches (s : State) : Nat := (s.launches.filter fun l => !l.2.done).length

/-- The queue has a record to activate, and nothing but its dependences holds it back (R52, R55). -/
def headDue (s : State) (n : Nat) : Bool :=
  let q := queueAt s n
  decide (n < 64) && q.en && !q.halted && q.head != q.tail && !queueUnplaced s n && decide (activeLaunches s < 256)

/-- Judge the record at the head of a queue: halt, wait, or activate it (R53, R55). -/
def judgeHead (s : State) (n : Nat) : Option State :=
  match readHead s n with
  | .error _ => some (haltQueue s n 5)
  | .ok (_, false) => none
  | .ok (r, true) =>
    match activationCode s n r with
    | 0 =>
      let seq := s.dist.nextSeq
      let s := { s with launches := tset s.launches seq { queue := n, record := r }
                        dist := { s.dist with nextSeq := seq + 1 } }
      some (modQueue s n fun q => { q with head := q.head + 1#32 })
    | c => some (haltQueue s n c)

/-- LAUNCH_ACTIVATION (R55). -/
def execLaunchActivation (n : Nat) (s : State) : Host.Outcome State Fault Refusal :=
  event_ s (if headDue s n then acquireHead s n (judgeHead s n) else none)

/-- DEPENDENCE_RECHECK (R55): the dependences at the head are read again, which may find a fault, or all of them met. -/
def execDependenceRecheck (n : Nat) (s : State) : Host.Outcome State Fault Refusal :=
  event_ s (
    let q := queueAt s n
    if !(decide (n < 64) && q.en && !q.halted && q.head != q.tail) then none
    else
      acquireHead s n (
        match readHead s n with
        | .error _ => some (haltQueue s n 5)
        | .ok _ => if headDue s n then judgeHead s n else none))

end Sys2Proof.Machine
end

