-- ==== Sys2Proof/Machine/Distributor.lean ====
section
/-!
DEFINITION. The distributor: placement turns, the retirement of teams and the completion of grids, pre-emption and saves
(R56 to R59, R63 to R65, R71 to R73, R361, R365, R398, R402, R410).
-/

namespace Sys2Proof.Machine

/-! ### The ends of grids -/

/-- A launch is complete (R56, R361, R410): what is done to its completion counter, and the event of a tainted one. -/
def completeLaunch (s : State) (seq : Nat) : State :=
  let l := tgetD s.launches seq {}
  let compl : Word := BitVec.ofNat 64 (recField l.record 448 57)
  let s := { s with launches := tset s.launches seq { l with done := true, placing := false } }
  let s :=
    if l.aborted then addCounter s seq compl fun x => x ||| 0x8000000000000000#64
    else if l.tainted then tellMgmt (addCounter s seq compl fun x => x + 0x3FFFFFFFFFFFFFFF#64) 2 [seq]
    else addCounter s seq compl fun x => x - 1#64
  dropLaunch s seq

/-- Every team of a launch has retired; of an aborted one, every team that was placed. -/
def gridOver (s : State) (seq : Nat) (l : Launch) : Bool :=
  !l.done && !(s.teams.any fun t => t.2.launch == seq) && (l.aborted || decide (rTeams l.record ≤ l.next))

/-- Complete the launches that are over. -/
def completeGrids (s : State) : State :=
  s.launches.foldl (fun s l => if gridOver s l.1 l.2 then completeLaunch s l.1 else s) s

/-! ### Both copies of a team -/

/-- A team and, of a redundant one, its other copy. -/
def copiesOf (s : State) (t : Nat) : List Nat := t :: ((tgetD s.teams t {}).mate.toList)

/-- Change a team and its other copy. -/
def modCopies (s : State) (t : Nat) (f : Team → Team) : State :=
  (copiesOf s t).foldl (fun s k => { s with teams := tmod s.teams k f }) s

/-- The groups of a team and of its other copy. -/
def copyGroups (s : State) (t : Nat) : List (Nat × Group) :=
  s.groups.filter fun g => (copiesOf s t).any fun k => g.2.owner == .team k

/-- The engines hold no matrix instruction of these groups. -/
def enginesIdle (s : State) (gids : List Nat) : Bool :=
  s.cores.all fun c => c.2.mxQueue.all fun x => !gids.contains x.2.gid

/-- No access of a team is outstanding, and its narrow-dirty sectors are written back; `none` where it must wait, or the
state that asks for the write-backs. -/
def drainTeam (s : State) (t : Nat) : Option (Option State) :=
  let os := (copiesOf s t).map Owner.team
  if !os.all (accessesDone s) then none
  else if os.any (ownerDirty s) then
    if os.any (ownerUnasked s) then some (some (os.foldl askOwner s)) else none
  else some none

/-! ### Retirement -/

/-- The source of the post has been read, or the post has ended (R56, R129, R398). -/
def sourceReleased (p : Post) : Bool := p.srcRead || p.status.isSome

/-- Nothing of a team stands in the way of its retirement but its accesses (R56). -/
def retireReady (s : State) (t : Nat) (x : Team) : Bool :=
  let aborted := (tgetD s.launches x.launch {}).aborted
  let gs := copyGroups s t
  !x.trailing && (aborted || (x.phase != .saved && gs.all (fun g => g.2.ended) && x.force.isNone)) &&
  (s.posts.all fun p => !(copiesOf s t).contains p.2.team || sourceReleased p.2 ||
    (aborted && p.2.phase == PostPhase.waiting)) &&
  (aborted || (copiesOf s t).all fun k => (tgetD s.teams k {}).arrivals.isEmpty) &&
  !(s.copies.any fun c => !c.2.load && (copiesOf s t).contains c.2.team && copiesRun s c.2.team) &&
  enginesIdle s (gs.map (·.1))

/-- What is charged for a team (R58): its resident cycles times its cores, for both copies. -/
def teamCharge (s : State) (t : Nat) (x : Team) : Nat :=
  let now := if x.phase == .saved then 0 else (coreAt s (x.cores.headD 0)).cycle - x.placedAt
  (x.resident + now) * x.cores.length * (copiesOf s t).length

/-- Free everything that one copy of a team holds. -/
def freeCopy (s : State) (t : Nat) : State :=
  let gids := (s.groups.filter fun g => g.2.owner == .team t).map (·.1)
  let s := gids.foldl unbindParty s
  let mine := s.copies.filter fun c => c.2.team == t
  let s := mine.foldl (fun s c => dropCopy s c.1) s
  let s : State := { s with
    convRequests := s.convRequests.filter fun c => !gids.contains c.2.gid
    posts := s.posts.filter fun p => !(p.2.team == t && p.2.phase == PostPhase.waiting)
    cores := s.cores.map fun c => (c.1, if c.2.mxHolder == some t then { c.2 with mxHolder := none } else c.2) }
  let s := dropGroups s (.team t)
  { s with teams := terase s.teams t }

/-- A team retires (R56, R58, R64, R410). -/
def retireTeam (s : State) (t : Nat) (x : Team) : State :=
  let l := tgetD s.launches x.launch {}
  let charge := teamCharge s t x
  let bad := x.chk.pc || x.chk.pw || x.chk.pb
  let s := (copiesOf s t).foldl freeCopy s
  let s := modQueue s l.queue fun q => { q with deficit := q.deficit - charge }
  let s := { s with launches := tmod s.launches x.launch fun l =>
    { l with retired := l.retired + 1, tainted := l.tainted || bad } }
  let s :=
    if x.phase != .saved && hasUnplaced s x.launch (tgetD s.launches x.launch {}) then
      { s with dist := { s.dist with refills := s.dist.refills ++ [{ launch := x.launch, cores := x.cores }] } }
    else s
  let l := tgetD s.launches x.launch {}
  if gridOver s x.launch l then completeLaunch s x.launch else s

/-- TEAM_RETIRE (R56). -/
def execTeamRetire (t : Nat) (s : State) : Host.Outcome State Fault Refusal :=
  event_ s (
    match tget s.teams t with
    | none => none
    | some x =>
      if !retireReady s t x then none
      else
        match drainTeam s t with
        | none => none
        | some (some s') => some s'
        | some none => some (retireTeam s t x))

/-! ### Placement turns -/

/-- The queue's oldest active launch that has unplaced teams (R57). -/
def oldestUnplaced (s : State) (n : Nat) : Option (Nat × Launch) :=
  s.launches.find? fun l => l.2.queue == n && hasUnplaced s l.1 l.2

/-- A queue of a higher class has a team that fits a core set (R64). -/
def higherFits (s : State) (prio : Nat) (cores : List Nat) : Bool :=
  (List.range 64).any fun n =>
    match oldestUnplaced s n with
    | none => false
    | some (seq, l) =>
      decide (rPrio l.record < prio) && (scanSets s seq).contains cores &&
        (match savedTeams s seq with
         | (t, _) :: _ => (placeSaved s t cores).isSome
         | [] => (placeFresh s seq cores).isSome)

/-- Refill a freed core set from its own grid (R64): the lowest saved team that may go there, else the next new one. -/
def tryRefill (s : State) (f : Refill) : Option State :=
  let l := tgetD s.launches f.launch {}
  if !hasUnplaced s f.launch l || higherFits s (rPrio l.record) f.cores || !(scanSets s f.launch).contains f.cores then
    none
  else
    let home := clusterOf (f.cores.headD 0)
    let may := (savedTeams s f.launch).filter fun t =>
      t.2.cores.length == 1 || clusterOf (t.2.cores.headD 0) == home
    match may.findSome? fun t => placeSaved s t.1 f.cores with
    | some s' => some s'
    | none => if l.next < rTeams l.record then placeFresh s f.launch f.cores else none

/-- Try the refills in order until one is made; those that cannot be made are left to the serve (R64). -/
def refillTurn : List Refill → State → State × Bool
  | [], s => ({ s with dist := { s.dist with refills := [] } }, false)
  | f :: r, s =>
    match tryRefill s f with
    | some s' => ({ s' with dist := { s'.dist with refills := r } }, true)
    | none => refillTurn r s

/-- Since when a team of a queue waits (R59). -/
def waitSince (q : Queue) (seq num : Nat) : Option Nat := (q.waits.find? fun w => w.1 == seq && w.2.1 == num).map (·.2.2)

/-- The waits of a queue with that of one team set anew. -/
def setWait (q : Queue) (seq num now : Nat) : Queue :=
  { q with waits := (q.waits.filter fun w => !(w.1 == seq && w.2.1 == num)) ++ [(seq, num, now)] }

/-- The wait of a queue's next team starts in the first turn in which it does not fit (R59). -/
def noteWait (s : State) (n : Nat) : State :=
  match oldestUnplaced s n with
  | none => s
  | some (seq, _) =>
    if (waitSince (queueAt s n) seq (nextNum s seq)).isSome || (tryNext s seq).isSome then s
    else modQueue s n fun q => setWait q seq (nextNum s seq) (clockAt s Config.clockDist)

/-- A team of a launch is unplaced (R55). -/
def unplaced (s : State) (seq num : Nat) : Bool :=
  match tget s.launches seq with
  | none => false
  | some l => !l.aborted && (decide (l.next ≤ num) || (savedTeams s seq).any fun t => t.2.num == num)

/-- The waits of teams that are placed end. -/
def endWaits (s : State) : State :=
  { s with queues := s.queues.map fun q =>
      (q.1, { q.2 with waits := q.2.waits.filter fun w => unplaced s w.1 w.2.1 }) }

/-- The queues of a class, in rotation from the one after the last served (R57). -/
def classQueues (s : State) (c : Nat) : List Nat :=
  let start := match tget s.dist.served c with
    | some n => n + 1
    | none => 0
  ((List.range 64).map fun k => (start + k) % 64).filter fun n =>
    match oldestUnplaced s n with
    | some (_, l) => rPrio l.record == c
    | none => false

/-- Serve the queues of one class (R57): deficits grow until a team is placed. -/
def serveClass (c : Nat) : List Nat → State → State × Bool
  | [], s => (s, false)
  | n :: r, s =>
    let s := modQueue s n fun q => { q with deficit := min (q.deficit + q.quant) (2 * q.quant) }
    match oldestUnplaced s n with
    | none => serveClass c r s
    | some (seq, _) =>
      match tryNext s seq with
      | none => serveClass c r s
      | some s' =>
        if 0 ≤ (queueAt s n).deficit then
          ({ s' with dist := { s'.dist with served := tset s'.dist.served c n } }, true)
        else serveClass c r s

/-- Serve the classes in order (R57). -/
def serveClasses : List Nat → State → State × Bool
  | [], s => (s, false)
  | c :: r, s =>
    match serveClass c (classQueues s c) s with
    | (s', true) => (s', true)
    | (s', false) => serveClasses r s'

/-- A gang launch that is being placed goes on with its next team, with no other placement between (R65). -/
def gangTurn (s : State) : Option State :=
  (s.launches.find? fun l => l.2.placing && !l.2.aborted).map fun l =>
    match tryFresh s l.1 with
    | none => s
    | some s' => { s' with launches := tmod s'.launches l.1 fun l =>
        { l with placing := decide (l.next < rTeams l.record) } }

/-- One placement turn (R57, R59, R64, R65). -/
def placementTurn (s : State) : State :=
  let s := (List.range 64).foldl (fun s n =>
    if queueUnplaced s n || (queueAt s n).deficit ≤ 0 then s
    else modQueue s n fun q => { q with deficit := 0 }) (completeGrids s)
  let s := (List.range 64).foldl noteWait s
  endWaits (match gangTurn s with
  | some s' => s'
  | none =>
    match refillTurn s.dist.refills s with
    | (s', true) => s'
    | (s', false) => (serveClasses [0, 1, 2, 3] s').1)

/-- DISTRIBUTOR_TURN (R57): turns are 32 cycles apart. -/
def execDistributorTurn (s : State) : Host.Outcome State Fault Refusal :=
  event_ s (
    let now := clockAt s Config.clockDist
    let due := match s.dist.lastTurn with
      | some t => decide (t + 32 ≤ now)
      | none => true
    if due then some (placementTurn { s with dist := { s.dist with lastTurn := some now } }) else none)

/-! ### Pre-emption -/

/-- The strand is inside its region and has not overrun a hold (R71, R364). -/
def holding (e : Entry) : Bool := e.noPre && !(e.pend.any fun t => t.code == 0x28#8)

/-- A strand of the group holds off a pre-emption (R71). -/
def groupHolds (g : Group) : Bool :=
  !g.ended && (match g.handler with
    | some h => holding h.strand
    | none => g.stack.any fun e => e.mode != .parent && holding e)

/-- A strand of the team, or of its other copy, is still in its region. -/
def teamHolds (s : State) (t : Nat) : Bool := (copyGroups s t).any fun g => groupHolds g.2

/-- The team that stands for both copies. -/
def leadOf (s : State) (t : Nat) : Nat :=
  let x := tgetD s.teams t {}
  if x.trailing then x.mate.getD t else t

/-- A GFUSE that has not completed is withdrawn, but for groups whose strand is in its region (R29): after restore every
partner arrives afresh, one that had a code to come as well. -/
def withdrawFuses (s : State) (t : Nat) : State :=
  let cs := copiesOf s t
  { s with groups := s.groups.map fun g =>
      if cs.any (fun k => g.2.owner == .team k) && !groupHolds g.2 then 
        (g.1, { g.2 with fuse := none, fuseCode := none })
      else g }

/-- Ask for the pre-emption of a team (R71): its strands stop, at once where none is in a region, and what they ask
of homes on other devices is withdrawn (R294). A team that is being
saved, is saved, or has no lane left is left as it is. -/
def preempt (s : State) (t : Nat) : State :=
  let t := leadOf s t
  let x := tgetD s.teams t {}
  if x.phase != .resident || (copyGroups s t).all (fun g => g.2.ended) then s
  else
    let now := (coreAt s (x.cores.headD 0)).cycle
    let ph : TeamPhase := if teamHolds s t || x.force.isSome then .stopping else .saving
    let s := withdrawFar s ((copyGroups s t).map (·.1))
    withdrawFuses (modCopies s t fun x => { x with phase := ph, requestedAt := now }) t

/-- PREEMPTION_REQUEST (R71). -/
def execPreemptionRequest (t : Nat) (s : State) : Host.Outcome State Fault Refusal :=
  event_ s (if (tget s.teams t).isSome then some (preempt s t) else none)

/-- PREEMPTION_HOLD_OVERRUN (R71, R364): the strand stops at its next boundary with the trap pending. -/
def execPreemptionHoldOverrun (gid strand : Nat) (s : State) : Host.Outcome State Fault Refusal :=
  event_ s (
    match tget s.groups gid with
    | none => none
    | some g =>
      let x := teamOf s g
      let late := decide (x.requestedAt + 2 ^ 20 ≤ (coreAt s (x.cores.headD 0)).cycle)
      let trap : TrapInfo := { code := 0x28#8 }
      if x.phase != .stopping || !late then none
      else
        match g.handler with
        | some h =>
          if !holding h.strand then none
          else
            let e := { h.strand with pend := h.strand.pend ++ [trap] }
            some { s with groups := tset s.groups gid { g with handler := some { h with strand := e } } }
        | none =>
          if g.stack.any fun e => e.id == strand && e.mode != .parent && holding e then some (pendTrap s gid strand trap)
          else none)

/-- A remote request of a post into or out of a team's share is still open (R402). -/
def shareRequests (s : State) (t : Nat) : Bool :=
  s.btes.any fun b => b.2.requests.any fun r => r.2.live && r.2.kind != 3 &&
    (match tget s.posts r.2.post with
     | some p => p.team == t && usesShare p
     | none => false)

/-- Everything that a save awaits has come about but write-backs (R71). -/
def saveReady (s : State) (t : Nat) (x : Team) : Bool :=
  x.force.isNone && !(copyGroups s t).all (fun g => g.2.ended) && enginesIdle s ((copyGroups s t).map (·.1)) &&
  (farRequests s ((copyGroups s t).map (·.1))).isEmpty &&
  (copiesOf s t).all fun k => (tgetD s.teams k {}).arrivals.isEmpty && !shareRequests s k

/-- The save of one copy completes (R71): its TLOAD and TSTORE copies pause (R252), its state stands in its context record,
and its slots, rows and granules are free. -/
def saveCopy (s : State) (t : Nat) : State :=
  let s := ((s.copies.filter fun c => c.2.team == t).map (·.1)).foldl pauseCopy s
  let s := saveMatrix (saveRecord s t) t
  let x := tgetD s.teams t {}
  let rows := (s.groups.filter fun g => g.2.owner == .team t).flatMap (·.2.rowBlocks)
  { s with
    rowBlocks := s.rowBlocks.map fun b => if rows.contains b.1 then (b.1, { b.2 with core := Config.cores }) else b
    cores := s.cores.map fun c => (c.1, if c.2.mxHolder == some t then { c.2 with mxHolder := none } else c.2)
    teams := tset s.teams t { x with
      phase := .saved, resident := x.resident + ((coreAt s (x.cores.headD 0)).cycle - x.placedAt) } }

/-- SAVE_COMPLETE (R71): a team whose strands have all stopped is being saved, and saved once everything has landed. -/
def execSaveComplete (t : Nat) (s : State) : Host.Outcome State Fault Refusal :=
  event_ s (
    match tget s.teams t with
    | none => none
    | some x =>
      if x.trailing then none
      else if x.phase == .stopping then
        if teamHolds s t || x.force.isSome then none
        else some (modCopies (withdrawFuses s t) t fun x => { x with phase := .saving })
      else if x.phase != .saving || !saveReady s t x then none
      else
        match drainTeam s t with
        | none => none
        | some (some s') => some s'
        | some none => some ((copiesOf s t).foldl saveCopy s))

/-! ### Pre-emption for a waiting team -/

/-- The state as it would be with a team gone from its cores. -/
def vacated (s : State) (t : Nat) : State :=
  (copiesOf s t).foldl (fun s k => dropGroups { s with teams := terase s.teams k } (.team k)) s

/-- A resident team may be pre-empted for the next team of a launch (R59). -/
def qualifies (s : State) (seq t : Nat) (x : Team) : Bool :=
  let r := (tgetD s.launches seq {}).record
  let l := tgetD s.launches x.launch {}
  x.phase == .resident && !x.trailing && decide (rPrio r < rPrio l.record) && (queueAt s l.queue).preok &&
  !rGang l.record && ((copiesOf s t).flatMap fun k => (tgetD s.teams k {}).cores).all (fun c => r.getLsbD (768 + c)) &&
  (tryNext (vacated s t) seq).isSome

/-- The team to pre-empt: of the lowest class, the one placed last (R59). -/
def victim (s : State) (seq : Nat) : Option Nat :=
  let cs := s.teams.filter fun t => qualifies s seq t.1 t.2
  let key (t : Nat × Team) : Nat × Nat := (rPrio (tgetD s.launches t.2.launch {}).record, t.2.placed)
  let better (a b : Nat × Team) : Bool :=
    decide ((key a).1 < (key b).1) || ((key a).1 == (key b).1 && decide ((key a).2 ≤ (key b).2))
  match cs with
  | [] => none
  | c :: r => some (r.foldl (fun a b => if better a b then b else a) c).1

/-- PREEMPTION_WAIT_EXPIRY (R59). -/
def execPreemptionWaitExpiry (n : Nat) (s : State) : Host.Outcome State Fault Refusal :=
  event_ s (
    match oldestUnplaced s n with
    | none => none
    | some (seq, _) =>
      let num := nextNum s seq
      let now := clockAt s Config.clockDist
      match waitSince (queueAt s n) seq num with
      | none => none
      | some since =>
        if now < since + 65536 || (tryNext s seq).isSome then none
        else (victim s seq).map fun t => modQueue (preempt s t) n fun q => setWait q seq num now)

/-! ### In-field test -/

/-- The teams resident on a cluster. -/
def clusterTeams (s : State) (g : Nat) : List Nat :=
  (s.teams.filter fun t => t.2.phase != .saved && t.2.cores.any fun c => clusterOf c == g).map (·.1)

/-- IN_FIELD_TEST (R365): the cluster leaves placement and its teams are pre-empted. -/
def execInFieldTest (g : Nat) (s : State) : Host.Outcome State Fault Refusal :=
  event_ s (
    if s.testing.isSome || Config.clusters ≤ g then none
    else some ((clusterTeams s g).foldl preempt { s with testing := some g }))

/-- IN_FIELD_TEST_END (R365): once every save has completed and the test has run, the cores return. -/
def execInFieldTestEnd (g : Nat) (s : State) : Host.Outcome State Fault Refusal :=
  event_ s (if s.testing == some g && (clusterTeams s g).isEmpty then some { s with testing := none } else none)

end Sys2Proof.Machine
end

