-- ==== Sys2Proof/Machine/Check.lean ====
section
/-!
DEFINITION. Check points of teams launched with CHK = 1, and error injection (R411 to R421, R439 to R444).
-/

namespace Sys2Proof.Machine

/-! ### What a check point waits for -/

/-- The conversation requests of some groups. -/
def requestsOf (s : State) (gids : List Nat) : List (Nat × ConvRequest) :=
  s.convRequests.filter fun r => gids.contains r.2.gid

/-- Requests that are with a far home, or answered and not yet completed: they are let finish. -/
def requestsOpen (s : State) (gids : List Nat) : Bool :=
  (requestsOf s gids).any fun r => r.2.answered || portHome r.2.handle

/-- The arrivals of a team that its check point may count: those that would flip a phase (R411). -/
def flipArrivals (s : State) (t : Nat) : List Nat :=
  ((tgetD s.teams t {}).arrivals.filter fun a => arrivalDue a.2 && wouldFlip s t a.2).map (·.1)

/-- Replies, coaches, copies and matrix instructions of both copies are done, and every arrival is counted but those that
the check point counts (R412). -/
def checkQuiet (s : State) (t : Nat) : Bool :=
  let cs := copiesOf s t
  let gids := (copyGroups s t).map (·.1)
  (cs.all fun k => accessesDone s (.team k)) && !(s.copies.any fun c => cs.contains c.2.team) && enginesIdle s gids &&
  (cs.all fun k => (tgetD s.teams k {}).arrivals.length == (flipArrivals s k).length) && !requestsOpen s gids

/-- The trailing copy stands where the leading copy does: it has followed every issue (R439). -/
def trailingStands (x : Team) (s : State) : Bool :=
  match x.mate with
  | none => true
  | some m => (tgetD s.teams m {}).values.isEmpty

/-- The trailing copy has no group for the oldest issue recorded: it cannot follow (R444). -/
def trailingLost (x : Team) (s : State) : Bool :=
  match x.mate with
  | none => false
  | some m =>
    match (tgetD s.teams m {}).values with
    | [] => false
    | v :: _ => !(s.groups.any fun g => g.2.owner == .team m && groupKey g.2 == v.group)

/-- The strand that forced a check point still waits for its post to be accepted. -/
def forcerWaits (s : State) (x : Team) : Bool :=
  match x.forcedBy with
  | none => false
  | some (gid, entry) => s.posts.any fun p => p.2.gid == gid && p.2.entry == entry && p.2.phase == PostPhase.waiting

/-! ### The check -/

/-- The landing records of the team's groups are folded at their stop (R443). -/
def foldLandings (s : State) (t : Nat) : State :=
  let cs := copiesOf s t
  let fold (g : Group) : Group := { g with sig := foldBytes g.sig (g.folds.flatMap fun f => f.2.bytes), folds := [] }
  { s with groups := s.groups.map fun g =>
      if cs.any fun k => g.2.owner == .team k then (g.1, fold g.2) else g }

/-- The signatures of every group of the leading copy and of its counterpart are equal (R412, R419). -/
def signaturesMatch (s : State) (t : Nat) : Bool :=
  match (tgetD s.teams t {}).mate with
  | none => true
  | some m =>
    let sigs (k : Nat) : List (Nat × Word) :=
      (s.groups.filter fun g => g.2.owner == .team k).map fun g => (groupKey g.2, g.2.sig)
    let a := sigs t
    let b := sigs m
    a.length == b.length && a.all b.contains

/-! ### A check that passes -/

/-- Perform one held store at its homes, and in what the cores of its team hold of the bytes (R412, R414). -/
def performHeld (cores : List Nat) (s : State) (h : HeldStore) : State :=
  h.lanes.foldl (fun s a =>
    let b := leBytes a.data.toNat h.size
    let s := memPut s a.pa b a.poisoned
    cores.foldl (fun s c => l1Patch s c a.pa b a.poisoned) s) s

/-- Perform the held stores of a team in buffer order. -/
def performAllHeld (s : State) (t : Nat) : State :=
  let x := tgetD s.teams t {}
  let s := x.held.foldl (performHeld x.cores) s
  { s with teams := tmod s.teams t fun x => { x with held := [] } }

/-- Groups that ended before the check point leave their slots and rows (R202, R440). -/
def freeEndedGroups (s : State) (t : Nat) : State :=
  let cs := copiesOf s t
  dropRows { s with groups := s.groups.filter fun g => !(g.2.ended && cs.any fun k => g.2.owner == .team k) }

/-- Waits of the team's strands on homes of this device end, so that each stands before its instruction (R412). -/
def cancelRequests (s : State) (t : Nat) : State :=
  let gids := (copyGroups s t).map (·.1)
  let ids := (requestsOf s gids).map (·.1)
  let fix (e : Entry) : Entry := if e.stage = 1 && ids.contains e.request then { e with stage := 0, request := 0 } else e
  { s with
    convRequests := s.convRequests.filter fun r => !ids.contains r.1
    groups := s.groups.map fun g =>
      if gids.contains g.1 then (g.1, { g.2 with stack := g.2.stack.map fix }) else g }

/-- The team's present state is its checkpoint, and its groups go on (R412). -/
def closeCheck (s : State) (t : Nat) : State :=
  let s := freeEndedGroups (cancelRequests s t) t
  let s := (copiesOf s t).foldl takeSnapshot s
  modCopies s t fun x => { x with force := none, forcedBy := none, granted := none, failed := false }

/-- What follows the held stores of a check point that passed (R412): the strand that forced it performs its action or
flip, or the arrivals that flip are counted, or nothing. -/
def passCheck (s : State) (t : Nat) (why : Force) (x : Team) : State :=
  let s := performAllHeld s t
  match why, x.forcedBy with
  | .action, some f => { s with teams := tmod s.teams t fun x => { x with granted := some f, failed := false } }
  | .flip, some f => { s with teams := tmod s.teams t fun x => { x with granted := some f, failed := false } }
  | .flip, none => closeCheck ((flipArrivals s t).foldl (fun s a => countArrival s t a) s) t
  | _, _ => closeCheck s t

/-! ### A check that fails -/

/-- A group of the leading snapshot, in the place that its counterpart has in another snapshot (R412, R413). -/
def inPlaceOf (p g : Group) : Group :=
  { g with owner := p.owner, core := p.core, slot := p.slot, held := p.held, rowBlocks := p.rowBlocks }

/-- The groups of one copy at the checkpoint: the leading copy's own, or, in the trailing copy's places, the leading
copy's state. -/
def restoredGroups (own lead : Snapshot) : Tab Group :=
  own.groups.filterMap fun p => (lead.groups.find? fun g => groupKey g.2 == groupKey p.2).map fun g =>
    (p.1, inPlaceOf p.2 g.2)

/-- Restore one copy of a team from the leading copy's checkpoint (R412). -/
def restoreCheck (lead : Snapshot) (mismatch : Bool) (s : State) (t : Nat) : State :=
  let x := tgetD s.teams t {}
  let own := x.snap.getD lead
  let gids := (s.groups.filter fun g => g.2.owner == .team t).map (·.1)
  let kept := s.groups.filter fun g => g.2.owner != .team t
  let chk : Chk := { mmcnt := if mismatch then min 255 (x.chk.mmcnt + 1) else x.chk.mmcnt,
                     rbcnt := min 255 (x.chk.rbcnt + 1) }
  let x' : Team := { x with
    points := lead.points, tiles := lead.tiles, templates := lead.templates, share := lead.share,
    sharePoison := lead.sharePoison, matrix := lead.matrix, refusals := lead.refusals, arrivals := [], held := [],
    values := [], chk := chk, force := none, forcedBy := none, granted := none, failed := true }
  let s := { s with
    groups := (restoredGroups own lead).foldl (fun l g => tset l g.1 g.2) kept
    convRequests := s.convRequests.filter fun r => !gids.contains r.2.gid
    teams := tset s.teams t x' }
  x.cores.foldl (fun s c => dropCleanIf s c fun _ => true) s

/-- A check point fails (R412): both copies go back to the checkpoint; the second failure in a row aborts the launch, and so
does a snapshot that meets an uncorrectable error (R413). -/
def failCheck (s : State) (t : Nat) (mismatch : Bool) (x : Team) : State :=
  let lost := snapshotLost s t
  let s := dropRows ((copiesOf s t).foldl (restoreCheck (x.snap.getD {}) mismatch) s)
  if x.failed || lost then abortLaunch (tellMgmt s 10 [x.launch, x.num]) x.launch [x.num, 0x18] else s

/-- CHECK_POINT (R412, R439, R440, R444): the first of a check point judges it; where it let a strand perform its action
or flip, the second copies the state. -/
def execCheckPoint (t : Nat) (s : State) : Host.Outcome State Fault Refusal :=
  event_ s (
    match tget s.teams t with
    | none => none
    | some x =>
      match if trailingLost x s then some .schedule else x.force with
      | none => none
      | some why =>
        if x.trailing || x.granted.isSome || (tgetD s.launches x.launch {}).aborted || !checkQuiet s t then none
        else if why == .schedule then some (failCheck s t true x)
        else if !trailingStands x s then none
        else if why == .settle then if forcerWaits s x then none else some (closeCheck s t)
        else
          let s := foldLandings s t
          let same := signaturesMatch s t
          if same && !(x.chk.pc || x.chk.pw || x.chk.pb) then some (passCheck s t why x)
          else some (failCheck s t (!same) x))

/-! ### Error injection -/

/-- Flip a bit of one lane of a vector register, or of a scalar register. -/
def flipBit (g : Group) (i : Injection) (bit : Nat) : Group :=
  if i.scalar then { g with sregs := tset g.sregs i.reg (tgetD g.sregs i.reg 0#64 ^^^ (1#64 <<< bit)) }
  else { g with vregs := tset g.vregs (laneKey i.reg i.lane) (getV g i.reg i.lane ^^^ (1#32 <<< bit)) }

/-- INJECTION_FIRE (R420, R441): a silent flip changes the value, a correctable one is repaired and counted (R405), and an
uncorrectable one flips a second bit, freely chosen, and poisons. -/
def execInjectionFire (k : Nat) (s : State) : Host.Outcome State Fault Refusal :=
  event_ s (
    match tget s.injections k with
    | none => none
    | some i =>
      if i.after ≠ 0 then none
      else
        match groupInSlot s i.core i.slot with
        | none => none
        | some (gid, g) =>
          let s := { s with injections := terase s.injections k }
          let put (s : State) (g : Group) : State := { s with groups := tset s.groups gid g }
          match i.mode with
          | 0 => some (put s (flipBit g i i.bit))
          | 1 => some (countError s .registers)
          | _ =>
            let others := (List.range (if i.scalar then 64 else 32)).filter fun b => b ≠ i.bit
            let (b, s) := pickFree others s
            let g := flipBit (flipBit g i i.bit) i b
            some (put s (if i.scalar then { g with spoison := sadd1 g.spoison i.reg } else poisonV g i.reg i.lane)))

end Sys2Proof.Machine
end

