-- ==== Sys2Proof/Machine/Coherence.lean ====
section
/-!
DEFINITION. Owner notices, write-backs and promotions on their way between cores and home slices (R78 to R80, R117 to
R119).
-/

namespace Sys2Proof.Machine

/-- The line of a sector. -/
def sectorLine (sec : Nat) : Nat := sec / 4

/-- The home slice of a line. -/
def lineSlice (line : Nat) : Nat := homeSlice (128 * line)

/-- Entries of a slice's owner table (R80). -/
def ownerLimit : Nat := 4096

/-- A core's write-back of a line that it sent before a place in its order, and that is not yet performed. -/
def wbBefore (s : State) (c line order : Nat) : Bool :=
  s.writeBacks.any fun w => w.2.core == c && sectorLine w.2.sector == line && !w.2.performed && decide (w.2.order < order)

/-- A core's notice of a line that it sent before a place in its order. -/
def noticeBefore (s : State) (c line order : Nat) : Bool :=
  s.notices.any fun n => n.2.core == c && n.2.line == line && decide (n.1 < order)

/-- Ask a core to write a line back. -/
def askLine (s : State) (c line : Nat) : State := askWriteBack s c fun sec => sectorLine sec == line

/-- OWNER_NOTICE (R80): the pair is recorded; a full table first asks the owner of its oldest entry for a
write-back. -/
def execOwnerNotice (id : Nat) (s : State) : Host.Outcome State Fault Refusal :=
  event_ s (
    match tget s.notices id with
    | none => none
    | some n =>
      let sl := lineSlice n.line
      let t := tgetD s.owners sl []
      if n.away || wbBefore s n.core n.line id || noticeBefore s n.core n.line id then none
      else if t.contains (n.line, n.core) then some { s with notices := terase s.notices id }
      else if ownerLimit ≤ t.length then
        match t with
        | [] => none
        | (line, c) :: _ => some (askLine s c line)
      else some { s with notices := terase s.notices id, owners := tset s.owners sl (t ++ [(n.line, n.core)]) })

/-- Narrow-dirty data of a line is still in a core or on its way. -/
def lineBusy (s : State) (c line : Nat) : Bool :=
  ((coreAt s c).dirty.any fun d => sectorLine d.sector == line) ||
  s.writeBacks.any fun w => w.2.core == c && sectorLine w.2.sector == line && !w.2.performed

/-- Clear the entry of a line and core (R80). -/
def clearOwner (s : State) (c line : Nat) : State :=
  let sl := lineSlice line
  { s with owners := tset s.owners sl ((tgetD s.owners sl []).filter fun e => e != (line, c)) }

/-- WRITEBACK_AT_SLICE (R80): the bytes are performed and the acknowledgement leaves; once the line has nothing more to come,
its entry is cleared. -/
def execWritebackAtSlice (id : Nat) (s : State) : Host.Outcome State Fault Refusal :=
  event_ s (
    match tget s.writeBacks id with
    | none => none
    | some w =>
      let line := sectorLine w.sector
      if w.away || w.performed || noticeBefore s w.core line w.order then none
      else
        let s := leftL1 (performWriteBack s w) w
        let s := { s with writeBacks := tset s.writeBacks id { w with performed := true, away := true } }
        let s := newTrain s (sliceSource (lineSlice line)) .writeBack id true
        some (if lineBusy s w.core line then s else clearOwner s w.core line))

/-- WRITEBACK_REQUEST (R80, R118): a core writes a line back, for its slice or because it evicts it. -/
def execWritebackRequest (core line : Nat) (s : State) : Host.Outcome State Fault Refusal :=
  event_ s (some (askLine s core line))

/-- No access, arrival or promotion waits for a write-back any more. -/
def pruneWb (s : State) (id : Nat) : State :=
  { s with
    outs := s.outs.map fun o => (o.1, { o.2 with afterWb := sdel1 o.2.afterWb id })
    teams := s.teams.map fun t => (t.1, { t.2 with arrivals := t.2.arrivals.map fun a =>
      (a.1, { a.2 with afterWb := sdel1 a.2.afterWb id }) })
    promotions := s.promotions.map fun p => (p.1, { p.2 with awaits := sdel1 p.2.awaits id }) }

/-- WRITEBACK_ACK (R118): the core may send its next write-back. -/
def execWritebackAck (id : Nat) (s : State) : Host.Outcome State Fault Refusal :=
  event_ s (
    match tget s.writeBacks id with
    | none => none
    | some w =>
      if !w.performed || w.away then none
      else
        let s := pruneWb { s with writeBacks := terase s.writeBacks id } id
        some (pump (modCore s w.core fun c => { c with sending := none }) w.core))

/-- PROMOTION_REQUEST (R119): the owner core writes back every narrow-dirty sector. -/
def execPromotionRequest (id : Nat) (s : State) : Host.Outcome State Fault Refusal :=
  event_ s (
    match tget s.promotions id with
    | none => none
    | some p =>
      if p.received || p.away then none
      else
        let p := { p with received := true, awaits := pendingWb s p.core fun _ => true }
        some (askWriteBack { s with promotions := tset s.promotions id p } p.core fun _ => true))

/-- PROMOTION_ACK (R119): once every write-back of the owner core is acknowledged its own acknowledgement leaves, and the
slice takes it. -/
def execPromotionAck (id : Nat) (s : State) : Host.Outcome State Fault Refusal :=
  event_ s (
    match tget s.promotions id with
    | none => none
    | some p =>
      if !p.received || !p.awaits.isEmpty || p.away then none
      else if !p.acked then
        some (newTrain { s with promotions := tset s.promotions id { p with acked := true, away := true } } p.core .promotion
          id true)
      else
        let s := { s with outs := tmod s.outs p.out fun o => { o with promos := sdel1 o.promos id } }
        some { s with promotions := terase s.promotions id })

end Sys2Proof.Machine
end

