-- ==== Sys2Proof/Machine/Scalar.lean ====
section
/-!
DEFINITION. Scalar arithmetic, moves, bit fields, uniform predicates and votes (R177 to R190).
-/

namespace Sys2Proof.Machine

/-- Bits [127:64] of the signed product (R179). -/
def mulHigh (a b : Word) : Word := BitVec.ofInt 64 (a.toInt * b.toInt / 2 ^ 64)

/-- Signed quotient (R180). -/
def divSigned (a b : Word) : Word := if b = 0#64 then BitVec.allOnes 64 else BitVec.ofInt 64 (a.toInt.tdiv b.toInt)

/-- Unsigned quotient (R180). -/
def divUnsigned (a b : Word) : Word := if b = 0#64 then BitVec.allOnes 64 else a / b

/-- Signed remainder, with the dividend's sign (R180). -/
def remSigned (a b : Word) : Word := if b = 0#64 then a else BitVec.ofInt 64 (a.toInt.tmod b.toInt)

/-- Unsigned remainder (R180). -/
def remUnsigned (a b : Word) : Word := if b = 0#64 then a else a % b

/-- Shifts by an unsigned 64-bit count (R179). -/
def shiftLeft (a b : Word) : Word := if b.toNat < 64 then a <<< b.toNat else 0#64
/-- Logical shift right (R179). -/
def shiftRight (a b : Word) : Word := if b.toNat < 64 then a >>> b.toNat else 0#64
/-- Arithmetic shift right (R179). -/
def shiftArith (a b : Word) : Word := a.sshiftRight (min b.toNat 63)

/-- The smaller and larger of two words (R179). -/
def minSigned (a b : Word) : Word := if b.slt a then b else a
/-- Unsigned minimum. -/
def minUnsigned (a b : Word) : Word := if b.ult a then b else a
/-- Signed maximum. -/
def maxSigned (a b : Word) : Word := if a.slt b then b else a
/-- Unsigned maximum. -/
def maxUnsigned (a b : Word) : Word := if a.ult b then b else a

/-- The low n bits of a word, sign- or zero-extended (R185). -/
def extend (x : Word) (n : Nat) (unsigned : Bool) : Word :=
  let m := x &&& widthMask n
  if !unsigned && x.getLsbD (n - 1) then m ||| ~~~(widthMask n) else m

/-- SBFX: n bits from lo, bits above bit 63 reading 0 (R185). -/
def fieldOf (x : Word) (lo n : Nat) (signed : Bool) : Word := extend (x >>> lo) n (!signed)

/-- SBFI: the low n bits of x into d at lo; bits above bit 63 are not written (R185). -/
def insertField (d x : Word) (lo n : Nat) : Word :=
  let m := widthMask n <<< lo
  (d &&& ~~~m) ||| ((x <<< lo) &&& m)

/-- Leading zeros of the low n bits. -/
def leadingZeros (x : Word) (n : Nat) : Nat := n - (if x = 0#64 then 0 else Nat.log2 x.toNat + 1)

/-- SADD, register form: a + b (R179). -/
def execSadd (o : SRegs) (s : State) : Host.Outcome State Fault Refusal := finish_ s (scalarRR o (fun a b => a + b) s)

/-- SADD, immediate form: a + b (R179). -/
def execSaddImm (o : SImm) (s : State) : Host.Outcome State Fault Refusal := finish_ s (scalarRI o (fun a b => a + b) s)

/-- SSUB, register form: a - b (R179). -/
def execSsub (o : SRegs) (s : State) : Host.Outcome State Fault Refusal := finish_ s (scalarRR o (fun a b => a - b) s)

/-- SSUB, immediate form: a - b (R179). -/
def execSsubImm (o : SImm) (s : State) : Host.Outcome State Fault Refusal := finish_ s (scalarRI o (fun a b => a - b) s)

/-- SMUL, register form: the low 64 bits of a × b (R179). -/
def execSmul (o : SRegs) (s : State) : Host.Outcome State Fault Refusal := finish_ s (scalarRR o (fun a b => a * b) s)

/-- SMUL, immediate form: the low 64 bits of a × b (R179). -/
def execSmulImm (o : SImm) (s : State) : Host.Outcome State Fault Refusal := finish_ s (scalarRI o (fun a b => a * b) s)

/-- SMULH, register form: bits [127:64] of the signed product (R179). -/
def execSmulh (o : SRegs) (s : State) : Host.Outcome State Fault Refusal := finish_ s (scalarRR o (mulHigh) s)

/-- SMULH, immediate form: bits [127:64] of the signed product (R179). -/
def execSmulhImm (o : SImm) (s : State) : Host.Outcome State Fault Refusal := finish_ s (scalarRI o (mulHigh) s)

/-- SDIV, register form: the signed quotient (R180). -/
def execSdiv (o : SRegs) (s : State) : Host.Outcome State Fault Refusal := finish_ s (scalarRR o (divSigned) s)

/-- SDIV, immediate form: the signed quotient (R180). -/
def execSdivImm (o : SImm) (s : State) : Host.Outcome State Fault Refusal := finish_ s (scalarRI o (divSigned) s)

/-- SDIVU, register form: the unsigned quotient (R180). -/
def execSdivu (o : SRegs) (s : State) : Host.Outcome State Fault Refusal := finish_ s (scalarRR o (divUnsigned) s)

/-- SDIVU, immediate form: the unsigned quotient (R180). -/
def execSdivuImm (o : SImm) (s : State) : Host.Outcome State Fault Refusal := finish_ s (scalarRI o (divUnsigned) s)

/-- SREM, register form: the signed remainder (R180). -/
def execSrem (o : SRegs) (s : State) : Host.Outcome State Fault Refusal := finish_ s (scalarRR o (remSigned) s)

/-- SREM, immediate form: the signed remainder (R180). -/
def execSremImm (o : SImm) (s : State) : Host.Outcome State Fault Refusal := finish_ s (scalarRI o (remSigned) s)

/-- SREMU, register form: the unsigned remainder (R180). -/
def execSremu (o : SRegs) (s : State) : Host.Outcome State Fault Refusal := finish_ s (scalarRR o (remUnsigned) s)

/-- SREMU, immediate form: the unsigned remainder (R180). -/
def execSremuImm (o : SImm) (s : State) : Host.Outcome State Fault Refusal := finish_ s (scalarRI o (remUnsigned) s)

/-- SAND, register form: a AND b (R179). -/
def execSand (o : SRegs) (s : State) : Host.Outcome State Fault Refusal := finish_ s (scalarRR o (fun a b => a &&& b) s)

/-- SAND, immediate form: a AND b (R179). -/
def execSandImm (o : SImm) (s : State) : Host.Outcome State Fault Refusal := finish_ s (scalarRI o (fun a b => a &&& b) s)

/-- SOR, register form: a OR b (R179). -/
def execSor (o : SRegs) (s : State) : Host.Outcome State Fault Refusal := finish_ s (scalarRR o (fun a b => a ||| b) s)

/-- SOR, immediate form: a OR b (R179). -/
def execSorImm (o : SImm) (s : State) : Host.Outcome State Fault Refusal := finish_ s (scalarRI o (fun a b => a ||| b) s)

/-- SXOR, register form: a XOR b (R179). -/
def execSxor (o : SRegs) (s : State) : Host.Outcome State Fault Refusal := finish_ s (scalarRR o (fun a b => a ^^^ b) s)

/-- SXOR, immediate form: a XOR b (R179). -/
def execSxorImm (o : SImm) (s : State) : Host.Outcome State Fault Refusal := finish_ s (scalarRI o (fun a b => a ^^^ b) s)

/-- SSHL, register form: a shifted left (R179). -/
def execSshl (o : SRegs) (s : State) : Host.Outcome State Fault Refusal := finish_ s (scalarRR o (shiftLeft) s)

/-- SSHL, immediate form: a shifted left (R179). -/
def execSshlImm (o : SImm) (s : State) : Host.Outcome State Fault Refusal := finish_ s (scalarRI o (shiftLeft) s)

/-- SSHR, register form: a shifted right with zeros (R179). -/
def execSshr (o : SRegs) (s : State) : Host.Outcome State Fault Refusal := finish_ s (scalarRR o (shiftRight) s)

/-- SSHR, immediate form: a shifted right with zeros (R179). -/
def execSshrImm (o : SImm) (s : State) : Host.Outcome State Fault Refusal := finish_ s (scalarRI o (shiftRight) s)

/-- SSRA, register form: a shifted right with copies of bit 63 (R179). -/
def execSsra (o : SRegs) (s : State) : Host.Outcome State Fault Refusal := finish_ s (scalarRR o (shiftArith) s)

/-- SSRA, immediate form: a shifted right with copies of bit 63 (R179). -/
def execSsraImm (o : SImm) (s : State) : Host.Outcome State Fault Refusal := finish_ s (scalarRI o (shiftArith) s)

/-- SMIN, register form: the signed minimum (R179). -/
def execSmin (o : SRegs) (s : State) : Host.Outcome State Fault Refusal := finish_ s (scalarRR o (minSigned) s)

/-- SMIN, immediate form: the signed minimum (R179). -/
def execSminImm (o : SImm) (s : State) : Host.Outcome State Fault Refusal := finish_ s (scalarRI o (minSigned) s)

/-- SMINU, register form: the unsigned minimum (R179). -/
def execSminu (o : SRegs) (s : State) : Host.Outcome State Fault Refusal := finish_ s (scalarRR o (minUnsigned) s)

/-- SMINU, immediate form: the unsigned minimum (R179). -/
def execSminuImm (o : SImm) (s : State) : Host.Outcome State Fault Refusal := finish_ s (scalarRI o (minUnsigned) s)

/-- SMAX, register form: the signed maximum (R179). -/
def execSmax (o : SRegs) (s : State) : Host.Outcome State Fault Refusal := finish_ s (scalarRR o (maxSigned) s)

/-- SMAX, immediate form: the signed maximum (R179). -/
def execSmaxImm (o : SImm) (s : State) : Host.Outcome State Fault Refusal := finish_ s (scalarRI o (maxSigned) s)

/-- SMAXU, register form: the unsigned maximum (R179). -/
def execSmaxu (o : SRegs) (s : State) : Host.Outcome State Fault Refusal := finish_ s (scalarRR o (maxUnsigned) s)

/-- SMAXU, immediate form: the unsigned maximum (R179). -/
def execSmaxuImm (o : SImm) (s : State) : Host.Outcome State Fault Refusal := finish_ s (scalarRI o (maxUnsigned) s)

/-- SMOV (R181). -/
def execSmov (o : SOne) (s : State) : Host.Outcome State Fault Refusal :=
  finish_ s (scalarOp [src o.sa o.fa] o.sd.toNat (fun g => getS g o.sa.toNat) s)

/-- SMOVI (R181). -/
def execSmovi (o : SConst) (s : State) : Host.Outcome State Fault Refusal :=
  finish_ s (scalarOp [] o.sd.toNat (fun _ => imm64 o.imm) s)

/-- SMOVH: sd is read in wait mode and keeps its low half (R181). -/
def execSmovh (o : SConst) (s : State) : Host.Outcome State Fault Refusal :=
  finish_ s (scalarOp [(o.sd.toNat, false)] o.sd.toNat
    (fun g => o.imm ++ (getS g o.sd.toNat).setWidth 32) s)

/-- SLEA, register form (R182). -/
def execSlea (o : SLeaRegs) (s : State) : Host.Outcome State Fault Refusal :=
  finish_ s (scalarOp [src o.sa o.fa, src o.sb o.fb] o.sd.toNat
    (fun g => getS g o.sa.toNat + (getS g o.sb.toNat <<< o.sh.toNat)) s)

/-- SLEA, immediate form (R182). -/
def execSleaImm (o : SLeaImm) (s : State) : Host.Outcome State Fault Refusal :=
  finish_ s (scalarOp [src o.sa o.fa] o.sd.toNat
    (fun g => getS g o.sa.toNat + (o.disp.signExtend 64 <<< o.sh.toNat)) s)

/-- SCLZ (R183). -/
def execSclz (o : SOne) (s : State) : Host.Outcome State Fault Refusal :=
  finish_ s (scalarOp [src o.sa o.fa] o.sd.toNat (fun g => BitVec.ofNat 64 (leadingZeros (getS g o.sa.toNat) 64)) s)

/-- SPOPC (R183). -/
def execSpopc (o : SOne) (s : State) : Host.Outcome State Fault Refusal :=
  finish_ s (scalarOp [src o.sa o.fa] o.sd.toNat (fun g => BitVec.ofNat 64 (popcount (getS g o.sa.toNat))) s)

/-- SSEL, register form: both sources are read whichever is chosen (R184). -/
def execSsel (o : SSelRegs) (s : State) : Host.Outcome State Fault Refusal :=
  finish_ s (scalarOp [src o.sa o.fa, src o.sb o.fb] o.sd.toNat
    (fun g => if getQ g o.q.toNat then getS g o.sa.toNat else getS g o.sb.toNat) s)

/-- SSEL, immediate form (R184). -/
def execSselImm (o : SSelImm) (s : State) : Host.Outcome State Fault Refusal :=
  finish_ s (scalarOp [src o.sa o.fa] o.sd.toNat
    (fun g => if getQ g o.q.toNat then getS g o.sa.toNat else o.imm.signExtend 64) s)

/-- SEXT (R185). -/
def execSext (o : SExt) (s : State) : Host.Outcome State Fault Refusal :=
  finish_ s (scalarOp [src o.sa o.fa] o.sd.toNat
    (fun g => extend (getS g o.sa.toNat) (o.n1.toNat + 1) (bit1 o.u)) s)

/-- SBFX (R185). -/
def execSbfx (o : SBfx) (s : State) : Host.Outcome State Fault Refusal :=
  finish_ s (scalarOp [src o.sa o.fa] o.sd.toNat
    (fun g => fieldOf (getS g o.sa.toNat) o.lo.toNat (o.n1.toNat + 1) (bit1 o.s)) s)

/-- SBFI: sd is read in wait mode (R185). -/
def execSbfi (o : SBfi) (s : State) : Host.Outcome State Fault Refusal :=
  finish_ s (scalarOp [src o.sa o.fa, (o.sd.toNat, false)] o.sd.toNat
    (fun g => insertField (getS g o.sd.toNat) (getS g o.sa.toNat) o.lo.toNat (o.n1.toNat + 1)) s)

/-- SCMP, register form (R186). -/
def execScmp (o : SCmpRegs) (s : State) : Host.Outcome State Fault Refusal :=
  finish_ s (predOp [src o.sa o.fa, src o.sb o.fb] o.qd.toNat
    (fun g => scmpHolds o.rel.toNat (getS g o.sa.toNat) (getS g o.sb.toNat)) s)

/-- SCMP, immediate form (R186). -/
def execScmpImm (o : SCmpImm) (s : State) : Host.Outcome State Fault Refusal :=
  finish_ s (predOp [src o.sa o.fa] o.qd.toNat
    (fun g => scmpHolds o.rel.toNat (getS g o.sa.toNat) (o.imm.signExtend 64)) s)

/-- QAND (R187). -/
def execQand (o : QOp) (s : State) : Host.Outcome State Fault Refusal :=
  finish_ s (predOp [] o.qd.toNat (fun g => getQ g o.qa.toNat && getQ g o.qb.toNat) s)

/-- QOR (R187). -/
def execQor (o : QOp) (s : State) : Host.Outcome State Fault Refusal :=
  finish_ s (predOp [] o.qd.toNat (fun g => getQ g o.qa.toNat || getQ g o.qb.toNat) s)

/-- QXOR (R187). -/
def execQxor (o : QOp) (s : State) : Host.Outcome State Fault Refusal :=
  finish_ s (predOp [] o.qd.toNat (fun g => getQ g o.qa.toNat != getQ g o.qb.toNat) s)

/-- The reductions of VOTE over the lanes of a mask (R188). -/
def voteHolds (mode : Nat) (p : Word) (lanes : List Nat) : Bool :=
  match mode with
  | 0 => lanes.any fun l => p.getLsbD l
  | 1 => lanes.all fun l => p.getLsbD l
  | _ => (lanes.all fun l => p.getLsbD l) || (lanes.all fun l => !p.getLsbD l)

/-- VOTE over the issuing strand's active mask (R188). -/
def execVote (o : VoteOp) (s : State) : Host.Outcome State Fault Refusal :=
  finish_ s (predOp [] o.qd.toNat
    (fun g => voteHolds o.mode.toNat (getP g o.pa.toNat) (strandLanes g (curStrand s))) s)

/-- PCOUNT over the issuing strand's active mask (R189). -/
def execPcount (o : PCountOp) (s : State) : Host.Outcome State Fault Refusal :=
  finish_ s (scalarOp [] o.sd.toNat
    (fun g => BitVec.ofNat 64 ((strandLanes g (curStrand s)).filter fun l => (getP g o.pa.toNat).getLsbD l).length) s)

/-- PMOV, direction 0: the predicate's lanes of the active mask as a scalar (R190). -/
def execPmovToScalar (o : PCountOp) (s : State) : Host.Outcome State Fault Refusal :=
  finish_ s (scalarOp [] o.sd.toNat
    (fun g => getP g o.pa.toNat &&& maskOf (strandLanes g (curStrand s))) s)

/-- PMOV, direction 1: a scalar's bits into the predicate's lanes of the active mask (R190). -/
def execPmovToPredicate (o : PMovToPred) (s : State) : Host.Outcome State Fault Refusal :=
  finish_ s (do
    let s ← begin_ { sr := [src o.sa o.fa], steerS := [o.sa.toNat] } none s
    let g := curGroup s
    let m := maskOf (strandLanes g (curStrand s))
    let p := (getP g o.pd.toNat &&& ~~~m) ||| (getS g o.sa.toNat &&& m)
    .ok (advance (setGroup s (putP g o.pd.toNat p))))

end Sys2Proof.Machine
end

