-- ==== Sys2Proof/Machine/Vector.lean ====
section
/-!
DEFINITION. Lane-wise integer arithmetic, shifts, bit operations, selects and compares (R207 to R213).
-/

namespace Sys2Proof.Machine

/-- Bits [63:32] of the product of two lanes (R208). -/
def laneMulHigh (unsigned : Bool) (a b : Lane) : Lane :=
  if unsigned then BitVec.ofNat 32 (a.toNat * b.toNat / 2 ^ 32) else BitVec.ofInt 32 (a.toInt * b.toInt / 2 ^ 32)

/-- The smaller of two lanes (R208). -/
def laneMin (unsigned : Bool) (a b : Lane) : Lane := if (if unsigned then b.ult a else b.slt a) then b else a
/-- The larger of two lanes (R208). -/
def laneMax (unsigned : Bool) (a b : Lane) : Lane := if (if unsigned then a.ult b else a.slt b) then b else a

/-- |a - b|, computed exactly (R208). -/
def laneAbsDiff (unsigned : Bool) (a b : Lane) : Lane :=
  if unsigned then BitVec.ofInt 32 ((a.toNat : Int) - b.toNat).natAbs else BitVec.ofInt 32 (a.toInt - b.toInt).natAbs

/-- A lane's number in INT32 or UINT32. -/
def laneInt (unsigned : Bool) (a : Lane) : Int := if unsigned then (a.toNat : Int) else a.toInt

/-- An exact number clamped to INT32 or UINT32 (R210). -/
def laneSat (unsigned : Bool) (y : Int) : Lane := BitVec.ofInt 32 (satInt (if unsigned then 5 else 4) y)

/-- VADDSAT (R210). -/
def addSat (unsigned : Bool) (a b : Lane) : Lane := laneSat unsigned (laneInt unsigned a + laneInt unsigned b)
/-- VSUBSAT (R210). -/
def subSat (unsigned : Bool) (a b : Lane) : Lane := laneSat unsigned (laneInt unsigned a - laneInt unsigned b)

/-- The shifts by an unsigned count (R209). -/
def laneShl (a n : Lane) : Lane := if n.toNat < 32 then a <<< n.toNat else 0#32
/-- Logical shift right (R209). -/
def laneShr (a n : Lane) : Lane := if n.toNat < 32 then a >>> n.toNat else 0#32
/-- Arithmetic shift right (R209). -/
def laneSra (a n : Lane) : Lane := a.sshiftRight (min n.toNat 31)

/-- Bits lo to lo + n - 1 of a lane (R212). -/
def laneField (a : Lane) (lo n : Nat) (unsigned : Bool) : Lane :=
  (extend (a.setWidth 64 >>> lo) n unsigned).setWidth 32

/-- Replace bits lo to lo + n - 1 of a lane; bits above bit 31 are not written (R212). -/
def laneInsert (d a : Lane) (lo n : Nat) : Lane := (insertField (d.setWidth 64) (a.setWidth 64) lo n).setWidth 32

/-- A byte of the 8-byte value b × 2^32 + a (R212). -/
def pairByte (a b : Lane) (k : Nat) : Byte := (if k < 4 then a >>> (8 * k) else b >>> (8 * (k - 4))).setWidth 8

/-- A lane of four bytes, least significant first. -/
def laneOfBytes (f : Nat → Byte) : Lane :=
  (f 0).setWidth 32 ||| ((f 1).setWidth 32 <<< 8) ||| ((f 2).setWidth 32 <<< 16) ||| ((f 3).setWidth 32 <<< 24)

/-- VPRMT, register control (R212). -/
def permute (a b c : Lane) : Lane :=
  laneOfBytes fun k =>
    let t := (c >>> (8 * k)).setWidth 8
    let x := pairByte a b (t.toNat % 8)
    if t.getLsbD 3 then 0#8 else if t.getLsbD 4 then ~~~x else x

/-- VPRMT, immediate control (R212). -/
def permuteImm (ctl : BitVec 12) (a b : Lane) : Lane :=
  laneOfBytes fun k => pairByte a b ((ctl >>> (3 * k)).toNat % 8)

/-- A two-source instruction without U (R208). -/
def twoOp (o : VTwo) (f : Lane → Lane → Lane) (s : State) : Act State :=
  vectorTwo o.gn o.gp o.vd o.va o.vb o.vbs o.fa o.fb f s

/-- A two-source instruction with U (R208). -/
def twoOpU (o : VTwoU) (f : Bool → Lane → Lane → Lane) (s : State) : Act State :=
  vectorTwo o.gn o.gp o.vd o.va o.vb o.vbs o.fa o.fb (f (bit1 o.u)) s

/-- A shift by an immediate or by the second source (R209). -/
def shiftOp (o : VShift) (f : Lane → Lane → Lane) (s : State) : Act State :=
  if bit1 o.imm then vectorOne o.gn o.gp o.vd o.va o.fa (fun a => f a (o.cnt.setWidth 32)) s
  else vectorTwo o.gn o.gp o.vd o.va o.vb o.vbs o.fa o.fb f s

/-- VADD: a + b (R208). -/
def execVadd (o : VTwo) (s : State) : Host.Outcome State Fault Refusal := finish_ s (twoOp o (fun a b => a + b) s)

/-- VSUB: a - b (R208). -/
def execVsub (o : VTwo) (s : State) : Host.Outcome State Fault Refusal := finish_ s (twoOp o (fun a b => a - b) s)

/-- VMUL: the low 32 bits of a × b (R208). -/
def execVmul (o : VTwo) (s : State) : Host.Outcome State Fault Refusal := finish_ s (twoOp o (fun a b => a * b) s)

/-- VMULH (R208). -/
def execVmulh (o : VTwoU) (s : State) : Host.Outcome State Fault Refusal := finish_ s (twoOpU o laneMulHigh s)

/-- VMAD: the low 32 bits of a × b + c (R208). -/
def execVmad (o : VThree) (s : State) : Host.Outcome State Fault Refusal :=
  finish_ s (vectorThree o.gn o.gp o.vd o.va o.vb o.vc o.vbs o.fa o.fb o.fc (fun a b c => a * b + c) s)

/-- VADDSAT (R210). -/
def execVaddsat (o : VTwoU) (s : State) : Host.Outcome State Fault Refusal := finish_ s (twoOpU o addSat s)

/-- VSUBSAT (R210). -/
def execVsubsat (o : VTwoU) (s : State) : Host.Outcome State Fault Refusal := finish_ s (twoOpU o subSat s)

/-- VAND (R208). -/
def execVand (o : VTwo) (s : State) : Host.Outcome State Fault Refusal := finish_ s (twoOp o (fun a b => a &&& b) s)

/-- VOR (R208). -/
def execVor (o : VTwo) (s : State) : Host.Outcome State Fault Refusal := finish_ s (twoOp o (fun a b => a ||| b) s)

/-- VXOR (R208). -/
def execVxor (o : VTwo) (s : State) : Host.Outcome State Fault Refusal := finish_ s (twoOp o (fun a b => a ^^^ b) s)

/-- VSHL (R209). -/
def execVshl (o : VShift) (s : State) : Host.Outcome State Fault Refusal := finish_ s (shiftOp o laneShl s)

/-- VSHR (R209). -/
def execVshr (o : VShift) (s : State) : Host.Outcome State Fault Refusal := finish_ s (shiftOp o laneShr s)

/-- VSRA (R209). -/
def execVsra (o : VShift) (s : State) : Host.Outcome State Fault Refusal := finish_ s (shiftOp o laneSra s)

/-- VMIN (R208). -/
def execVmin (o : VTwoU) (s : State) : Host.Outcome State Fault Refusal := finish_ s (twoOpU o laneMin s)

/-- VMAX (R208). -/
def execVmax (o : VTwoU) (s : State) : Host.Outcome State Fault Refusal := finish_ s (twoOpU o laneMax s)

/-- VABSD (R208). -/
def execVabsd (o : VTwoU) (s : State) : Host.Outcome State Fault Refusal := finish_ s (twoOpU o laneAbsDiff s)

/-- VADDMIN (R210). -/
def execVaddmin (o : VThreeU) (s : State) : Host.Outcome State Fault Refusal :=
  finish_ s (vectorThree o.gn o.gp o.vd o.va o.vb o.vc o.vbs o.fa o.fb o.fc
    (fun a b c => laneMin (bit1 o.u) (addSat (bit1 o.u) a b) c) s)

/-- VADDMAX (R210). -/
def execVaddmax (o : VThreeU) (s : State) : Host.Outcome State Fault Refusal :=
  finish_ s (vectorThree o.gn o.gp o.vd o.va o.vb o.vc o.vbs o.fa o.fb o.fc
    (fun a b c => laneMax (bit1 o.u) (addSat (bit1 o.u) a b) c) s)

/-- VSEL: a where the predicate XOR negate is true, else b (R212). -/
def execVsel (o : VSelOp) (s : State) : Host.Outcome State Fault Refusal :=
  finish_ s (vectorOp o.gn o.gp (bScalar o.vbs o.vb o.fb) (src o.va o.fa :: bVector o.vbs o.vb o.fb) o.vd.toNat
    (fun g l => if (getP g o.ps.toNat).getLsbD l != bit1 o.neg then getV g o.va.toNat l else bLane g o.vbs o.vb l)
    (fun g l => poisonedV g o.va.toNat l || bPoison g o.vbs o.vb l) s)

/-- VMOV (R211). -/
def execVmov (o : VMovOp) (s : State) : Host.Outcome State Fault Refusal :=
  finish_ s (vectorOp o.gn o.gp (bScalar o.vbs o.vb o.fb) (bVector o.vbs o.vb o.fb) o.vd.toNat
    (fun g l => bLane g o.vbs o.vb l) (fun g l => bPoison g o.vbs o.vb l) s)

/-- VMOVI (R211). -/
def execVmovi (o : VMoviOp) (s : State) : Host.Outcome State Fault Refusal :=
  finish_ s (vectorOp o.gn o.gp [] [] o.vd.toNat (fun _ _ => o.imm) (fun _ _ => false) s)

/-- VCLZ (R212). -/
def execVclz (o : VOne) (s : State) : Host.Outcome State Fault Refusal :=
  finish_ s (vectorOne o.gn o.gp o.vd o.va o.fa (fun a => BitVec.ofNat 32 (leadingZeros (a.setWidth 64) 32)) s)

/-- VPOPC (R212). -/
def execVpopc (o : VOne) (s : State) : Host.Outcome State Fault Refusal :=
  finish_ s (vectorOne o.gn o.gp o.vd o.va o.fa (fun a => BitVec.ofNat 32 (popcount (a.setWidth 64))) s)

/-- VBFX (R212). -/
def execVbfx (o : VBfxOp) (s : State) : Host.Outcome State Fault Refusal :=
  finish_ s (vectorOne o.gn o.gp o.vd o.va o.fa (fun a => laneField a o.lo.toNat (o.n1.toNat + 1) (bit1 o.u)) s)

/-- VBFI: vd is read in wait mode (R212). -/
def execVbfi (o : VBfiOp) (s : State) : Host.Outcome State Fault Refusal :=
  finish_ s (vectorOp o.gn o.gp [] [src o.va o.fa, (o.vd.toNat, false)] o.vd.toNat
    (fun g l => laneInsert (getV g o.vd.toNat l) (getV g o.va.toNat l) o.lo.toNat (o.n1.toNat + 1))
    (fun g l => poisonedV g o.va.toNat l || poisonedV g o.vd.toNat l) s)

/-- VPRMT (R212). -/
def execVprmt (o : VPrmtOp) (s : State) : Host.Outcome State Fault Refusal :=
  finish_ s (
    if bit1 o.i then vectorTwo o.gn o.gp o.vd o.va o.vb o.vbs o.fa o.fb (permuteImm o.ctl) s
    else vectorThree o.gn o.gp o.vd o.va o.vb o.vc o.vbs o.fa o.fb o.fc permute s)

/-- VIDX: b + l × step (R212). -/
def execVidx (o : VIdxOp) (s : State) : Host.Outcome State Fault Refusal :=
  finish_ s (vectorOp o.gn o.gp (bScalar o.vbs o.vb o.fb) (bVector o.vbs o.vb o.fb) o.vd.toNat
    (fun g l => bLane g o.vbs o.vb l + BitVec.ofNat 32 l * o.step.signExtend 32)
    (fun g l => bPoison g o.vbs o.vb l) s)

/-- VCMP (R213). -/
def execVcmp (o : VCmpOp) (s : State) : Host.Outcome State Fault Refusal :=
  finish_ s (compareOp o.gn o.gp o.ct o.pd1 o.pd2 (bScalar o.vbs o.vb o.fb) (src o.va o.fa :: bVector o.vbs o.vb o.fb)
    (fun g l => vcmpHolds o.rel.toNat (o.ctyp == 1#3) (getV g o.va.toNat l) (bLane g o.vbs o.vb l)) s)

end Sys2Proof.Machine
end

