-- ==== Sys2Proof/Machine/CrossLane.lean ====
section
/-!
DEFINITION. Cross-lane operations and the neighbour links (R223 to R231).
-/

namespace Sys2Proof.Machine

/-- A lane of a register, 0 where the lane is beyond the width (R224 to R226). -/
def laneAt (g : Group) (r j : Nat) : Lane := if j < g.width then getV g r j else 0#32

/-- A lane beyond the width carries no poison. -/
def laneAtPoison (g : Group) (r j : Nat) : Bool := decide (j < g.width) && poisonedV g r j

/-- VSHUF (R224). -/
def execVshuf (o : VShufOp) (s : State) : Host.Outcome State Fault Refusal :=
  let idx (g : Group) (l : Nat) : Nat :=
    let x := (bLane g o.vbs o.vb l).toNat
    if bit1 o.wrap then x % g.width else x
  finish_ s (vectorOp o.gn o.gp (bScalar o.vbs o.vb o.fb) (src o.va o.fa :: bVector o.vbs o.vb o.fb) o.vd.toNat
    (fun g l => laneAt g o.va.toNat (idx g l))
    (fun g l => laneAtPoison g o.va.toNat (idx g l) || bPoison g o.vbs o.vb l) s)

/-- The lane VLSH reads for a lane, none where the fill is taken (R225). -/
def shiftFrom (w : Nat) (rot : Bool) (k : Int) (l : Nat) : Option Nat :=
  let j : Int := (l : Int) - k
  if rot then some (j % (w : Int)).toNat
  else if 0 ≤ j && j < (w : Int) then some j.toNat
  else none

/-- VLSH (R225). -/
def execVlsh (o : VLshOp) (s : State) : Host.Outcome State Fault Refusal :=
  let fill := bit1 o.f
  let k (g : Group) : Int := if bit1 o.vbs then ((getS g o.vb.toNat).setWidth 32).toInt else o.k.toInt
  let sr := bScalar o.vbs o.vb o.fb ++ (if fill then [src o.vc o.fc] else [])
  finish_ s (vectorOp o.gn o.gp sr [src o.va o.fa] o.vd.toNat
    (fun g l =>
      match shiftFrom g.width (bit1 o.rot) (k g) l with
      | some j => getV g o.va.toNat j
      | none => if fill then (getS g o.vc.toNat).setWidth 32 else 0#32)
    (fun g l =>
      (bit1 o.vbs && poisonedS g o.vb.toNat) ||
      (match shiftFrom g.width (bit1 o.rot) (k g) l with
       | some j => poisonedV g o.va.toNat j
       | none => fill && poisonedS g o.vc.toNat)) s)

/-- VBCAST (R226). -/
def execVbcast (o : VBcastOp) (s : State) : Host.Outcome State Fault Refusal :=
  let j (g : Group) : Nat := if bit1 o.vbs then ((getS g o.vb.toNat).setWidth 32).toNat else o.j.toNat
  finish_ s (vectorOp o.gn o.gp (bScalar o.vbs o.vb o.fb) [src o.va o.fa] o.vd.toNat
    (fun g _ => laneAt g o.va.toNat (j g))
    (fun g _ => laneAtPoison g o.va.toNat (j g) || (bit1 o.vbs && poisonedS g o.vb.toNat)) s)

/-- The operators of VRED and VSCAN (R227). -/
def redCombine (op rm : Nat) (sat : Bool) (a b : Lane) : Lane :=
  match op with
  | 0 => a + b
  | 1 => laneMin false a b
  | 2 => laneMax false a b
  | 3 => laneMin true a b
  | 4 => laneMax true a b
  | 5 => a &&& b
  | 6 => a ||| b
  | 7 => a ^^^ b
  | 8 => fadd32 rm sat a b
  | 9 => fmin32 a b
  | _ => fmax32 a b

/-- The identities of an exclusive scan (R227). -/
def redIdentity (op : Nat) : Lane :=
  match op with
  | 1 => 0x7FFFFFFF#32
  | 2 => 0x80000000#32
  | 3 => 0xFFFFFFFF#32
  | 5 => 0xFFFFFFFF#32
  | 8 => 0x80000000#32
  | 9 => inf32 false
  | 10 => inf32 true
  | _ => 0#32

/-- A combination with an absent operand passes on the other (R228). -/
def combineOpt (f : Lane → Lane → Lane) (a b : Option Lane) : Option Lane :=
  match a, b with
  | some x, some y => some (f x y)
  | some x, none => some x
  | none, y => y

/-- One level of the reduction tree: neighbours are combined (R228). -/
def redLevel (f : Lane → Lane → Lane) : List (Option Lane) → List (Option Lane)
  | a :: b :: r => combineOpt f a b :: redLevel f r
  | l => l

/-- The reduction tree over lane positions; its levels halve the list (R228). -/
def redTree (f : Lane → Lane → Lane) : Nat → List (Option Lane) → List (Option Lane)
  | 0, l => l
  | n + 1, l => redTree f n (redLevel f l)

/-- The result of VRED over the active lanes (R228). -/
def reduce (f : Lane → Lane → Lane) (w : Nat) (lanes : List Nat) (a : Nat → Lane) : Lane :=
  let xs := (List.range w).map fun i => if lanes.contains i then some (a i) else none
  ((redTree f 6 xs).headD none).getD 0#32

/-- The prefix combinations of VSCAN, one per active lane, in increasing lane order (R229). -/
def scanFrom (f : Lane → Lane → Lane) (excl : Bool) : Option Lane → List Lane → Lane → List Lane
  | _, [], _ => []
  | acc, x :: r, ident =>
    let next := match acc with
      | none => x
      | some y => f y x
    (if excl then acc.getD ident else next) :: scanFrom f excl (some next) r ident

/-- The scalar extension of a reduction (R227). -/
def redExtend (op : Nat) (x : Lane) : Word := if op < 3 then x.signExtend 64 else x.setWidth 64

/-- VRED: to every active lane of vd, or to a scalar (R228). -/
def execVred (o : VRedOp) (s : State) : Host.Outcome State Fault Refusal :=
  finish_ s (do
    let lanes := guardLanes (curGroup s) (curStrand s) o.gn o.gp
    let sc := bit1 o.d
    let sw := if sc then [o.vd.toNat] else []
    let vw := if sc then [] else [o.vd.toNat]
    let s ← begin_ { vr := [src o.va o.fa], sw := sw, vw := vw } (some lanes) s
    if lanes.isEmpty then .ok (advance s)
    else do
      dstFull sw vw s
      let g := curGroup s
      let r := reduce (redCombine o.op.toNat o.rm.toNat (bit1 o.sat)) g.width lanes (getV g o.va.toNat)
      let p := lanes.any fun l => poisonedV g o.va.toNat l
      if sc then .ok (advance (writeScalar s o.vd.toNat (redExtend o.op.toNat r) p))
      else .ok (advance (writeLanes s o.vd.toNat (lanes.map fun l => (l, r, p)))))

/-- VSCAN (R229). -/
def execVscan (o : VScanOp) (s : State) : Host.Outcome State Fault Refusal :=
  finish_ s (do
    let lanes := guardLanes (curGroup s) (curStrand s) o.gn o.gp
    let s ← begin_ { vr := [src o.va o.fa], vw := [o.vd.toNat] } (some lanes) s
    if lanes.isEmpty then .ok (advance s)
    else do
      dstFull [] [o.vd.toNat] s
      let g := curGroup s
      let ex := bit1 o.excl
      let r := scanFrom (redCombine o.op.toNat o.rm.toNat (bit1 o.sat)) ex none
        (lanes.map fun l => getV g o.va.toNat l) (redIdentity o.op.toNat)
      let bad (l : Nat) : Bool := lanes.any fun k => decide (if ex then k < l else k ≤ l) && poisonedV g o.va.toNat k
      .ok (advance (writeLanes s o.vd.toNat ((lanes.zip r).map fun x => (x.1, x.2, bad x.1)))))

/-! ### Neighbour links -/

/-- The grid row of a core, and its column on its die (R3, R4). -/
def coreRow (c : Nat) : Nat := c % 14 / 2
/-- The column. -/
def coreCol (c : Nat) : Nat := 2 * (c / 14 % 7) + c % 2

/-- The core on a row and column of a die. -/
def coreAtGrid (die row col : Nat) : Nat := (die * 7 + col / 2) * 14 + 2 * row + col % 2

/-- The neighbour of a core in a direction, 0 north, 1 east, 2 south, 3 west; none where the link is absent (R5). -/
def neighbour (c d : Nat) : Option Nat :=
  let die := c / 98
  let r := coreRow c
  let k := coreCol c
  match d with
  | 0 => if r = 0 then none else some (coreAtGrid die (r - 1) k)
  | 1 => if k = 13 then none else some (coreAtGrid die r (k + 1))
  | 2 => if r = 6 then none else some (coreAtGrid die (r + 1) k)
  | _ => if k = 0 then none else some (coreAtGrid die r (k - 1))

/-- The opposite direction. -/
def opposite (d : Nat) : Nat := (d + 2) % 4

/-- Words of a transfer at a width (R230). -/
def linkWords (w : Nat) : Nat := max 1 (w / 16)

/-- Word k of a push: the lanes' bytes, 0 where a lane is not active or beyond the width (R231). -/
def pushWord (g : Group) (va : Nat) (lanes : List Nat) (k : Nat) : LinkWord :=
  let mine := (List.range 16).filter fun i => lanes.contains (16 * k + i)
  { bytes := mine.foldl (fun x i => x ||| ((getV g va (16 * k + i)).setWidth 512 <<< (32 * i))) 0#512
    poison := mine.foldl (fun x i => if poisonedV g va (16 * k + i) then x ||| (1#16 <<< i) else x) 0#16 }

/-- The words of a receive queue. -/
def linkQueue (s : State) (c d : Nat) : List LinkWord := tgetD (coreAt s c).links d []

/-- A core's receive queue replaced. -/
def setLink (s : State) (c d : Nat) (l : List LinkWord) : State :=
  modCore s c fun x => { x with links := tset x.links d l }

/-- NPUSH (R231). -/
def execNpush (o : NPushOp) (s : State) : Host.Outcome State Fault Refusal :=
  finish_ s (do
    let lanes := guardLanes (curGroup s) (curStrand s) o.gn o.gp
    let s ← begin_ { vr := [src o.va o.fa] } (some lanes) s
    let g := curGroup s
    if lanes.isEmpty then .ok (advance s)
    else
      match neighbour g.core o.d.toNat with
      | none => .ok (advance s)
      | some c =>
        if isTrailing s g then .ok (advance s)
        else do
          let n := linkWords g.width
          let q := linkQueue s c (opposite o.d.toNat)
          until_ (decide (q.length + n ≤ 32)) s
          let bad := lanes.any fun l => poisonedV g o.va.toNat l
          let s := if bad then consumed s g else s
          .ok (advance (setLink s c (opposite o.d.toNat)
            (q ++ (List.range n).map fun k => pushWord g o.va.toNat lanes k))))

/-- NPOP (R231). -/
def execNpop (o : NPopOp) (s : State) : Host.Outcome State Fault Refusal :=
  finish_ s (do
    let lanes := guardLanes (curGroup s) (curStrand s) o.gn o.gp
    let s ← begin_ { vw := [o.vd.toNat] } (some lanes) s
    let g := curGroup s
    if lanes.isEmpty then .ok (advance s)
    else
      match neighbour g.core o.d.toNat with
      | none => do
        dstFull [] [o.vd.toNat] s
        .ok (advance (writeLanes s o.vd.toNat (lanes.map fun l => (l, 0#32, false))))
      | some _ => do
        dstFull [] [o.vd.toNat] s
        let n := linkWords g.width
        let q := linkQueue s g.core o.d.toNat
        if !isTrailing s g then until_ (decide (n ≤ q.length)) s
        let word (l : Nat) : LinkWord := q.getD (l / 16) {}
        let val (l : Nat) : Word := ((word l).bytes.extractLsb' (32 * (l % 16)) 32).setWidth 64 |||
          (if (word l).poison.getLsbD (l % 16) then 1#64 <<< 32 else 0#64)
        let (v, s) ← outside 1 (lanes.map val) s
        let s := if isTrailing s g then s else setLink s g.core o.d.toNat (q.drop n)
        .ok (advance (writeLanes s o.vd.toNat
          ((lanes.zip v).map fun x => (x.1, x.2.setWidth 32, x.2.getLsbD 32)))))

end Sys2Proof.Machine
end

