-- ==== Sys2Proof/Machine/Float.lean ====
section
/-!
DEFINITION. FP32 arithmetic, approximations, compares and classes (R214 to R218).
-/

namespace Sys2Proof.Machine

/-- FP32 arithmetic of two sources under a rounding code and .sat (R214). -/
def floatTwo (o : FTwo) (f : Nat → Bool → Lane → Lane → Lane) (s : State) : Act State :=
  vectorTwo o.gn o.gp o.vd o.va o.vb o.vbs o.fa o.fb (f o.rm.toNat (bit1 o.sat)) s

/-- FADD (R214). -/
def execFadd (o : FTwo) (s : State) : Host.Outcome State Fault Refusal := finish_ s (floatTwo o fadd32 s)

/-- FSUB (R214). -/
def execFsub (o : FTwo) (s : State) : Host.Outcome State Fault Refusal := finish_ s (floatTwo o fsub32 s)

/-- FMUL (R214). -/
def execFmul (o : FTwo) (s : State) : Host.Outcome State Fault Refusal := finish_ s (floatTwo o fmul32 s)

/-- FFMA (R214). -/
def execFfma (o : FThree) (s : State) : Host.Outcome State Fault Refusal :=
  finish_ s (vectorThree o.gn o.gp o.vd o.va o.vb o.vc o.vbs o.fa o.fb o.fc (ffma32 o.rm.toNat (bit1 o.sat)) s)

/-- FMIN (R215). -/
def execFmin (o : VTwo) (s : State) : Host.Outcome State Fault Refusal :=
  finish_ s (vectorTwo o.gn o.gp o.vd o.va o.vb o.vbs o.fa o.fb fmin32 s)

/-- FMAX (R215). -/
def execFmax (o : VTwo) (s : State) : Host.Outcome State Fault Refusal :=
  finish_ s (vectorTwo o.gn o.gp o.vd o.va o.vb o.vbs o.fa o.fb fmax32 s)

/-- FRCP: the device's approximation (R216). -/
def execFrcp (o : VOne) (s : State) : Host.Outcome State Fault Refusal :=
  finish_ s (vectorOne o.gn o.gp o.vd o.va o.fa (frcp32 (Config.approx 0xA6)) s)

/-- FRSQ: the device's approximation (R216). -/
def execFrsq (o : VOne) (s : State) : Host.Outcome State Fault Refusal :=
  finish_ s (vectorOne o.gn o.gp o.vd o.va o.fa (frsq32 (Config.approx 0xA7)) s)

/-- FSQRT, rounded once (R216). -/
def execFsqrt (o : VOneRm) (s : State) : Host.Outcome State Fault Refusal :=
  finish_ s (vectorOne o.gn o.gp o.vd o.va o.fa (fsqrt32 o.rm.toNat) s)

/-- FEXP2: the device's approximation (R216). -/
def execFexp2 (o : VOne) (s : State) : Host.Outcome State Fault Refusal :=
  finish_ s (vectorOne o.gn o.gp o.vd o.va o.fa (fexp32 (Config.approx 0xA9)) s)

/-- FLOG2: the device's approximation (R216). -/
def execFlog2 (o : VOne) (s : State) : Host.Outcome State Fault Refusal :=
  finish_ s (vectorOne o.gn o.gp o.vd o.va o.fa (flog32 (Config.approx 0xAA)) s)

/-- FSIN: the device's approximation (R216). -/
def execFsin (o : VOne) (s : State) : Host.Outcome State Fault Refusal :=
  finish_ s (vectorOne o.gn o.gp o.vd o.va o.fa (ftrig32 false (Config.approx 0xAB)) s)

/-- FCOS: the device's approximation (R216). -/
def execFcos (o : VOne) (s : State) : Host.Outcome State Fault Refusal :=
  finish_ s (vectorOne o.gn o.gp o.vd o.va o.fa (ftrig32 true (Config.approx 0xAC)) s)

/-- FCMP (R217). -/
def execFcmp (o : VCmpOp) (s : State) : Host.Outcome State Fault Refusal :=
  finish_ s (compareOp o.gn o.gp o.ct o.pd1 o.pd2 (bScalar o.vbs o.vb o.fb) (src o.va o.fa :: bVector o.vbs o.vb o.fb)
    (fun g l => fcmpHolds o.rel.toNat (ctypValue o.ctyp.toNat (getV g o.va.toNat l))
      (ctypValue o.ctyp.toNat (bLane g o.vbs o.vb l))) s)

/-- FCLASS (R218). -/
def execFclass (o : FClassOp) (s : State) : Host.Outcome State Fault Refusal :=
  let f := ctypFmt o.ty.toNat
  finish_ s (compareOp o.gn o.gp o.ct o.pd1 o.pd2 [] [src o.va o.fa]
    (fun g l => o.mask.getLsbD (floatClass f ((getV g o.va.toNat l).toNat % (2 * f.sign)))) s)

end Sys2Proof.Machine
end

