-- ==== Sys2Proof/Machine/Tcinv.lean ====
section
/-!
DEFINITION. Invalidations of a translation context (R86, R87), and the retry of paused posts when one completes (R401).
-/

namespace Sys2Proof.Machine

/-- A context. -/
def contextAt (s : State) (n : Nat) : Context := tgetD s.contexts n {}

/-- The state with a context changed. -/
def modContext (s : State) (n : Nat) (f : Context → Context) : State :=
  { s with contexts := tset s.contexts n (f (contextAt s n)) }

/-- Start an invalidation (R87): entries go, walks in progress are awaited and those that cover the page leave nothing,
and accesses and coaches translated through the entries, with every copy of the context, are awaited. -/
def startInvalidation (s : State) (n : Nat) (v : Word) : State :=
  let all := v.getLsbD 0
  let page := (v.extractLsb' 12 45).toNat
  let hit := invCovers n page all
  let gone := (s.cores.flatMap fun c => c.2.tlb.filter hit) ++ (s.tlb2.flatMap fun t => t.2.filter hit)
  let through (va : Word) : Bool := all || va.toNat / 4096 == page || gone.any (covers n va)
  let outs := (s.outs.filter fun o => o.2.ctx == n && o.2.lanes.any fun a => through a.va).map (·.1)
  let copies := (s.copies.filter fun c => c.2.ctx == n).map (·.1)
  let walks := (s.walks.filter fun w => w.2.ctx == n).map (·.1)
  let s := { s with
    cores := s.cores.map fun c => (c.1, { c.2 with tlb := c.2.tlb.filter fun e => !hit e })
    tlb2 := s.tlb2.map fun t => (t.1, t.2.filter fun e => !hit e)
    walks := s.walks.map fun w =>
      if w.2.ctx == n && (all || w.2.va == page) then (w.1, { w.2 with dead := true }) else w }
  modContext s n fun c => { c with running := some { page := page, all := all, walks := walks, outs := outs ++ copies } }

/-- A write to TCINV (R87): it starts an invalidation, or waits behind the one in progress. -/
def writeTcinv (s : State) (n : Nat) (v : Word) : State :=
  if (contextAt s n).running.isSome then modContext s n fun c => { c with queued := c.queued ++ [v] }
  else startInvalidation s n v

/-- TCINV_WRITE (R87). -/
def execTcinvWrite (n : Nat) (v : Word) (s : State) : Host.Outcome State Fault Refusal :=
  event_ s (if n < 64 then some (writeTcinv s n v) else none)

/-- Replies of other devices that will be written through translations of a context. -/
def farReplies (s : State) (n : Nat) : Bool :=
  s.btes.any fun b => b.2.requests.any fun r => r.2.live && (r.2.kind == 1 || r.2.kind == 2) &&
    (tgetD s.posts r.2.post {}).ctx == n

/-- Paused posts of a context try their cart again (R401). -/
def retryPosts (s : State) (n : Nat) : State :=
  { s with posts := s.posts.map fun p =>
      if p.2.ctx == n && p.2.phase == PostPhase.paused && !p.2.far then
        (p.1, ({ p.2 with phase := PostPhase.queued } : Post)) else p }

/-- TCINV_COMPLETE (R87): what the invalidation awaited is done; the next one starts, and paused posts are retried. -/
def execTcinvComplete (n : Nat) (s : State) : Host.Outcome State Fault Refusal :=
  event_ s (
    let c := contextAt s n
    match c.running with
    | none => none
    | some r =>
      if !r.walks.isEmpty || !r.outs.isEmpty || farReplies s n then none
      else
        let s := retryPosts (modContext s n fun c => { c with running := none }) n
        match c.queued with
        | [] => some s
        | v :: rest => some (startInvalidation (modContext s n fun c => { c with queued := rest }) n v))

end Sys2Proof.Machine
end

