-- ==== Sys2Proof/Machine/Host.lean ====
section
/-!
DEFINITION. The device control window, host accesses, port locking, and the debug space (R12, R309, R332 to R335, R343 to
R346, R367).
-/

namespace Sys2Proof.Machine

/-! ### Ports -/

/-- The fields of PLCFG (R343). -/
def plcfgMask : Word := 0x000003FF03FFFF03#64

/-- A write to PLCFG (0) or PLQMASK (1) of a port (R344): of a LOCKED or RUN port it is not applied, and the port enters
ERROR. -/
def writePortConfig (s : State) (port reg : Nat) (v : Word) : State :=
  let p := portAt s port
  if p.state = 2 || p.state = 3 then portError s port 3
  else if reg = 0 then { s with ports := tset s.ports port { p with cfg := v &&& plcfgMask } }
  else { s with ports := tset s.ports port { p with qmask := v } }

/-- A port command (R344); one that the table does not list for the state is ignored. LOCK installs the session's keys,
which stay the port's until RESET zeroises them. A port that starts has heard and sent nothing yet, and its link is no
longer reported down. -/
def portCommand (s : State) (port cmd : Nat) : State :=
  let p := portAt s port
  let put (p : Port) : State := { s with ports := tset s.ports port p }
  match cmd, p.state with
  | 1, 0 => put { p with state := 1 }
  | 2, 1 => if p.session.established then put { p with state := 2, keys := some p.session.secret } else s
  | 3, 2 =>
    let now := clockAt s (Config.clockPort port)
    modAgreement (put { p with state := 3, lastRx := now, lastTx := now }) fun a =>
      { a with downs := a.downs.filter fun d => d != (devNo s, peerOf p) }
  | 4, 2 => portError s port 1
  | 4, 3 => portError s port 1
  | 5, 1 => put { p with state := 0 }
  | 5, 4 => put { p with state := 0, errc := 0, session := {}, keys := none }
  | _, _ => s

/-- A command that the management core writes to PLCMD (R343). -/
def commandStep (port cmd : Nat) (s : State) : Host.Outcome State Fault Refusal :=
  event_ s (if decide (port < 32) && s.boot.stage == 3 then some (portCommand s port cmd) else none)

/-- CONFIG (R344). -/
def execConfig (port : Nat) (s : State) : Host.Outcome State Fault Refusal := commandStep port 1 s
/-- LOCK (R344). -/
def execLock (port : Nat) (s : State) : Host.Outcome State Fault Refusal := commandStep port 2 s
/-- START (R344). -/
def execStart (port : Nat) (s : State) : Host.Outcome State Fault Refusal := commandStep port 3 s
/-- STOP (R344). -/
def execStop (port : Nat) (s : State) : Host.Outcome State Fault Refusal := commandStep port 4 s
/-- RESET (R344). -/
def execReset (port : Nat) (s : State) : Host.Outcome State Fault Refusal := commandStep port 5 s

/-- PORT_CONFIG_WRITE (R344), by firmware, which runs at STAGE 3 (R331). -/
def execPortConfigWrite (port reg : Nat) (v : Word) (s : State) : Host.Outcome State Fault Refusal :=
  event_ s (if decide (port < 32) && decide (reg < 2) && s.boot.stage == 3 then some (writePortConfig s port reg v) else none)

/-! ### The control window -/

/-- A register of a translation context (R86). -/
def contextReg (s : State) (n off : Nat) : Word :=
  let c := contextAt s n
  match off with
  | 0x00 => c.root
  | 0x08 => c.vlt
  | 0x10 => flag c.running.isSome 63 ||| flag c.en 0
  | _ => 0#64

/-- A write to a register of a translation context (R86, R87). -/
def writeContextReg (s : State) (n off : Nat) (v : Word) : State :=
  match off with
  | 0x00 => modContext s n fun c => { c with root := v &&& 0x000FFFFFFFFFF000#64 }
  | 0x08 => modContext s n fun c => { c with vlt := v &&& 0xFFFF#64 }
  | 0x10 => modContext s n fun c => { c with en := v.getLsbD 0 }
  | 0x18 => writeTcinv s n v
  | _ => s

/-- A fabric register (R309, R310). -/
def fabricReg (s : State) (off : Nat) : Word :=
  match off with
  | 0x00 => s.fabric.frpos
  | 0x08 => s.fabric.frshape
  | 0x10 => BitVec.ofNat 64 (curView s)
  | 0x18 => tgetD s.fabric.staged 0 0#64
  | 0x20 => tgetD s.fabric.staged 1 0#64
  | 0x28 => tgetD s.fabric.staged 2 0#64
  | 0x30 => tgetD s.fabric.staged 3 0#64
  | _ => 0#64

/-- A write to a fabric register (R309). -/
def writeFabricReg (s : State) (off : Nat) (v : Word) : State :=
  let stage (k : Nat) : State := { s with fabric := { s.fabric with staged := tset s.fabric.staged k v } }
  match off with
  | 0x00 => writeFrpos s v
  | 0x08 => { s with fabric := { s.fabric with frshape := v &&& 0xFF#64 } }
  | 0x10 => writeViewnum s v
  | 0x18 => stage 0
  | 0x20 => stage 1
  | 0x28 => stage 2
  | 0x30 => stage 3
  | _ => s

/-- A boot register (R335). -/
def bootReg (s : State) (off : Nat) : Word :=
  match off with
  | 0x00 => 0x337303#64
  | 0x08 => BitVec.ofNat 64 (s.boot.stage + s.boot.code * 2 ^ 8 + s.boot.bootNum % 2 ^ 16 * 2 ^ 16)
  | 0x18 => BitVec.ofNat 64 s.boot.length
  | _ => 0#64

/-- A port lock register (R343). -/
def portReg (s : State) (port off : Nat) : Word :=
  let p := portAt s port
  match off with
  | 0x00 => BitVec.ofNat 64 (p.state + p.errc * 2 ^ 8)
  | 0x08 => p.cfg
  | 0x10 => p.qmask
  | _ => 0#64

/-- The blocks of the control window (R333): what an offset names. -/
inductive Place where
  | boot (off : Nat)
  | queue (n off : Nat)
  | context (n off : Nat)
  | fabric (off : Nat)
  | port (p off : Nat)
  | measure (k part : Nat)
  | staging (off : Nat)
  | nothing
  deriving DecidableEq, Repr

/-- What an offset of the control window names. -/
def placeOf (off : Nat) : Place :=
  if off < 0x20 then .boot off
  else if 0x10000 ≤ off && off < 0x11000 then .queue ((off - 0x10000) / 0x40) (off % 0x40)
  else if 0x20000 ≤ off && off < 0x20800 then .context ((off - 0x20000) / 0x20) (off % 0x20)
  else if 0x30000 ≤ off && off < 0x30040 then .fabric (off - 0x30000)
  else if 0x40000 ≤ off && off < 0x40800 then .port ((off - 0x40000) / 0x40) (off % 0x40)
  else if 0x50000 ≤ off && off < 0x50100 then .measure ((off - 0x50000) / 0x20) (off % 0x20 / 8)
  else if 0x1000000 ≤ off && off < 0x2000000 then .staging (off - 0x1000000)
  else .nothing

/-- Read a register of the control window (R12, R333). -/
def readPlace (s : State) (p : Place) : Word :=
  match p with
  | .boot off => bootReg s off
  | .queue n off => queueReg s n off
  | .context n off => contextReg s n off
  | .fabric off => fabricReg s off
  | .port p off => portReg s p off
  | .measure k part => (measureOf s k).extractLsb' (64 * part) 64
  | .staging off => mword s.boot.staging off
  | .nothing => 0#64

/-- The staging block with eight bytes written. -/
def stageBytes (s : State) (off : Nat) (v : Word) : State :=
  modBoot s fun b => { b with staging := mwrite b.staging off (wordBytes8 v) }

/-- BOOTLEN written (R335). -/
def setLength (s : State) (v : Word) : State := modBoot s fun b => { b with length := v.toNat % 2 ^ 24 }

/-- Write a register of the control window, as the management core or a host that is granted it does. Measurements take
no write (R339, R346); of the boot registers BOOTLEN alone does, since it is a port that claims the boot and starts it
(R335, R336). -/
def writePlace (s : State) (p : Place) (v : Word) : State :=
  match p with
  | .boot 0x18 => setLength s v
  | .staging off => stageBytes s off v
  | .queue n off => writeQueueReg s n off v
  | .context n off => writeContextReg s n off v
  | .fabric off => writeFabricReg s off v
  | .port p 0x08 => writePortConfig s p 0 v
  | .port p 0x10 => writePortConfig s p 1 v
  | .port p 0x18 => portCommand s p (v.extractLsb' 0 3).toNat
  | _ => s

/-! ### The debug space -/

/-- The bits of a debug register that a write changes, by its offset in the core's block (R367); none for reserved
offsets. -/
def debugMask (off : Nat) : Option Word :=
  if off = 0x180 then some 1#64
  else if off < 0x100 then
    match off % 0x20 with
    | 0x00 => some 0x01FFFFFFFFFFFFF8#64
    | 0x08 => some 0x0000000000FF3F07#64
    | 0x10 => some (BitVec.allOnes 64)
    | _ => none
  else if off < 0x180 then
    match off % 0x20 with
    | 0x00 => some 0x01FFFFFFFFFFFFFF#64
    | 0x08 => some 0x0000000000FF3FFF#64
    | 0x10 => some (BitVec.allOnes 64)
    | _ => none
  else none

/-- Write a debug register of a core (R367); a watchpoint's LEN of 13 to 15 is ignored. -/
def writeDebug (s : State) (core off : Nat) (v : Word) : State :=
  let badLen := decide (0x100 ≤ off) && decide (off < 0x180) && off % 0x20 == 8 &&
    decide (13 ≤ (v.extractLsb' 4 4).toNat)
  match debugMask off with
  | none => s
  | some m =>
    if Config.cores ≤ core || badLen then s
    else modCore s core fun c => { c with debug := tset c.debug off (v &&& m) }

/-- REGISTER_WRITE (R12, R333, R367): the management core writes a register of the control window or of the debug
space. -/
def execRegisterWrite (off : Nat) (v : Word) (s : State) : Host.Outcome State Fault Refusal :=
  event_ s (
    if s.boot.stage ≠ 3 || off % 8 ≠ 0 then none
    else if off < 0x10000000 then some (writePlace s (placeOf off) v)
    else some (writeDebug s ((off - 0x10000000) / 0x1000) (off % 0x1000) v))

/-! ### Host accesses -/

/-- Another port than this owns the boot (R336). -/
def ownedElsewhere (s : State) (port : Nat) : Bool :=
  match s.boot.owner with
  | some w => w != port
  | none => false

/-- An UNLOCKED port carries control accesses to the boot block (R332): none where the access is refused, which a write
of another port to the staging block, BOOTLEN and GO is while the boot is claimed (R336, log 69). -/
def bootAccess (s : State) (port : Nat) (write : Bool) (p : Place) (v : Word) : Option State :=
  let other := ownedElsewhere s port
  match p with
  | .boot off =>
    if !write then some s
    else if off = 0x10 then
      if v.getLsbD 1 && other then none
      else
        let s := if v.getLsbD 0 then (claimBoot s port).getD s else s
        some (if v.getLsbD 1 then (goBoot s port).getD s else s)
    else if off = 0x18 then if other then none else some (setLength s v)
    else some s
  | .staging off => if !write then some s else if other then none else some (stageBytes s off v)
  | _ => none

/-- The access of a host that R345 grants, with the queues and contexts of a mask: on its own RUN port, or, over the
fabric, once the device that the host is on has granted it (log 70). -/
def runAccess (s : State) (q : Word) (write : Bool) (p : Place) (v : Word) : Option State :=
  match p with
  | .queue n _ => if q.getLsbD n then some (if write then writePlace s p v else s) else none
  | .context n _ => if q.getLsbD n then some (if write then writePlace s p v else s) else none
  | .fabric _ => some (if write then writePlace s p v else s)
  | .measure _ _ => if write then none else some s
  | .boot _ => if write then none else some s
  | _ => none

/-- A host's access to DRAM on a RUN port lies in the port's range (R345). -/
def dramGranted (s : State) (port addr : Nat) : Bool :=
  let r := portRange (portAt s port)
  decide (r.1 ≤ addr) && decide (addr + 8 ≤ r.2) && decide (addr + 8 ≤ Config.dramSize)

/-- A RUN port whose peer is a host (R345). -/
def hostRuns (p : Port) : Bool := p.state == 3 && (p.cfg.extractLsb' 0 2).toNat == 2

/-- A host access (R334): the device it is for, whether it goes to DRAM or to the control window, whether it writes, its size
in bytes, its address or offset, and the value written or, of an answer, read. -/
structure HostAccess where
  dev : Nat := 0
  dram : Bool := false
  write : Bool := false
  size : Nat := 8
  addr : Nat := 0
  v : Word := 0#64
  deriving DecidableEq, Repr, Inhabited

/-- The state after an access of the port's own peer to this device and the value it reads, none where it is refused
(R332, R334, R345). -/
def hostAccess (s : State) (port : Nat) (a : HostAccess) : Option (State × Word) :=
  let p := portAt s port
  if a.addr % 8 ≠ 0 || a.size ≠ 8 then none
  else if a.dram then
    if !hostRuns p || !dramGranted s port a.addr then none
    else if a.write then some (memPut s a.addr (wordBytes8 a.v) false, 0#64)
    else some (s, mword s.mem a.addr)
  else
    let done := if p.state = 0 then bootAccess s port a.write (placeOf a.addr) a.v
                else if hostRuns p then runAccess s p.qmask a.write (placeOf a.addr) a.v else none
    done.map fun s' => (s', if a.write then 0#64 else readPlace s (placeOf a.addr))

/-- A control access to another device is granted (R345): it goes out over the fabric. -/
def relayGranted (s : State) (port : Nat) (a : HostAccess) : Bool :=
  let p := portAt s port
  a.addr % 8 == 0 && a.size == 8 && !a.dram && hostRuns p &&
    (runAccess s p.qmask a.write (placeOf a.addr) a.v).isSome

/-- The value that a refused access answers: all ones for a read (R334). -/
def refusedValue (write : Bool) : Nat := if write then 0 else 2 ^ 64 - 1

/-- The acknowledgement of a host access on its port (R334): its status, 0 done and 1 refused, address and value. -/
def answerHost (s : State) (port status addr r : Nat) : State :=
  sendRaw s { kind := .hostAnswer, dev := port, nums := [status, addr, r] }

/-- The access of a port's own peer (R334, R345). -/
def directAccess (s : State) (port : Nat) (a : HostAccess) : State :=
  if a.dev = devNo s then
    match hostAccess s port a with
    | some (s', r) => answerHost s' port 0 a.addr r.toNat
    | none => answerHost s port 1 a.addr (refusedValue a.write)
  else if relayGranted s port a then
    sendOut s { kind := .hostRelay, dev := a.dev, nums := [devNo s, port, if a.write then 1 else 0, a.addr, a.v.toNat] }
  else answerHost s port 1 a.addr (refusedValue a.write)

/-- The access of a host of another device (R345), answered over the fabric. -/
def relayedAccess (s : State) (dev port : Nat) (a : HostAccess) : State :=
  let reply (s : State) (status r : Nat) : State :=
    sendOut s { kind := .hostRelayAnswer, dev := dev, nums := [port, status, a.addr, r] }
  if a.addr % 8 ≠ 0 || a.size ≠ 8 || a.dram then reply s 1 (refusedValue a.write)
  else match runAccess s (BitVec.allOnes 64) a.write (placeOf a.addr) a.v with
  | some s' => reply s' 0 (if a.write then 0 else (readPlace s (placeOf a.addr)).toNat)
  | none => reply s 1 (refusedValue a.write)

/-- HOST_CONTROL_ACCESS (R334, R345): performed and acknowledged, or refused: with error status, and all ones for a read.
What comes over the fabric comes on a RUN port. -/
def execHostControlAccess (via : HostRoute) (dram write : Bool) (addr : Nat) (v : Word) (s : State) :
    Host.Outcome State Fault Refusal :=
  let a : HostAccess := { dev := via.dev, dram := dram, write := write, size := via.size, addr := addr, v := v }
  let port := via.port
  event_ s (
    if 32 ≤ port || s.boot.stage = 0 then none
    else
      match via.move with
      | .direct => some (directAccess s port a)
      | .relayed dev hostPort => if (portAt s port).state = 3 then some (relayedAccess s dev hostPort a) else none
      | .answered hostPort status =>
        if (portAt s port).state = 3 then some (answerHost s hostPort status a.addr a.v.toNat) else none)

/-- A DRAM range shares a byte with the range of a port that is LOCKED or RUN (R346). -/
def inLockedRange (s : State) (lo size : Nat) : Bool :=
  s.ports.any fun p => (p.2.state == 2 || p.2.state == 3) &&
    decide (lo < (portRange p.2).2) && decide ((portRange p.2).1 < lo + size)

/-- An 8-byte access of the management core to DRAM (R346): the home slices refuse it in the range of a LOCKED or RUN
port. A read's value, and a refusal, come back to the management core. -/
def firmwareAccess (write : Bool) (addr : Nat) (v : Word) (s : State) : State :=
  if s.boot.stage ≠ 3 || addr % 8 ≠ 0 || Config.dramSize < addr + 8 then s
  else if inLockedRange s addr 8 then tellMgmt s 12 [addr]
  else if write then memPut s addr (wordBytes8 v) false
  else tellMgmt s 11 [addr, (mword s.mem addr).toNat]

end Sys2Proof.Machine
end

