-- ==== Sys2Proof/Machine/Link.lean ====
section
/-!
DEFINITION. Links: blocks of flits and their acknowledgement, idle flits, tentative packets and their markers, and links
that go down (R422 to R424).
-/

namespace Sys2Proof.Machine

/-- A step about a channel of one of the 32 ports. -/
def channelStep (port vc : Nat) (s : State) (f : Port → Channel → Nat → Option State) :
    Host.Outcome State Fault Refusal :=
  event_ s (
    let p := portAt s port
    if 32 ≤ port || 3 ≤ vc || p.state == 4 then none
    else f p (tgetD p.channels vc {}) (clockAt s (Config.clockPort port)))

/-- A port with a channel replaced. -/
def putChannel (p : Port) (vc : Nat) (c : Channel) : Port := { p with channels := tset p.channels vc c }

/-- The state with a port replaced. -/
def putPort (s : State) (k : Nat) (p : Port) : State := { s with ports := tset s.ports k p }

/-- FLIT_BLOCK_RECEIVE (R422, R423): a block is acknowledged, and the packets that end in it are tentative until their
markers come; a bad one is refused and counted, and the eighth in a row takes the link down (R424). -/
def execFlitBlockReceive (port vc flits pkts : Nat) (good : Bool) (s : State) : Host.Outcome State Fault Refusal :=
  channelStep port vc s fun p c now =>
    if flits = 0 || 16 < flits then none
    else if good then
      let ids := (List.range pkts).map (s.nextId + ·)
      let c := { c with rxFails := 0, rxTentative := c.rxTentative ++ ids }
      let s := putPort { s with nextId := s.nextId + pkts } port { putChannel p vc c with lastRx := now }
      some (ids.foldl (fun s k => sendRaw s { kind := .marker, dev := port, nums := [1, k] })
        (sendRaw s { kind := .blockAck, dev := port, nums := [vc] }))
    else
      let c := { c with rxFails := c.rxFails + 1 }
      let s := putPort s port { putChannel p vc c with lastRx := now, retries := p.retries + 1 }
      let s := sendRaw s { kind := .blockNak, dev := port, nums := [vc] }
      some (if 8 ≤ c.rxFails then linkDown s port 2 else s)

/-- BLOCK_ACK (R422): the oldest block is done, and a full one may be closed in its place. -/
def execBlockAck (port vc : Nat) (s : State) : Host.Outcome State Fault Refusal :=
  channelStep port vc s fun p c _ =>
    match c.blocks with
    | [] => none
    | _ :: rest =>
      let c := closeFull (c.flits.length) (33 - openBlocks p) { c with blocks := rest, fails := 0 }
      some (putPort s port (putChannel p vc c))

/-- BLOCK_NAK (R422, R424): the oldest block and every later one of the channel are sent again; the eighth failure in a
row takes the link down. -/
def execBlockNak (port vc : Nat) (s : State) : Host.Outcome State Fault Refusal :=
  channelStep port vc s fun p c now =>
    match c.blocks with
    | [] => none
    | _ =>
      let c := { c with fails := c.fails + 1 }
      let s := putPort s port { putChannel p vc c with retries := p.retries + 1, lastTx := now }
      if 8 ≤ c.fails then some (linkDown s port 2)
      else some ((List.range c.blocks.length).foldl (fun s k =>
        sendRaw s { kind := .block, dev := port, nums := [vc, k] }) s)

/-- BLOCK_CLOSE_TIMER (R422). -/
def execBlockCloseTimer (port vc : Nat) (s : State) : Host.Outcome State Fault Refusal :=
  channelStep port vc s fun p c now =>
    if c.flits.isEmpty || 32 ≤ openBlocks p || now < c.lastFlit + 128 then none
    else
      let c := { c with flits := c.flits.drop 16, blocks := c.blocks ++ [c.flits.take 16] }
      some (putPort s port { putChannel p vc c with lastTx := now })

/-- IDLE_FLIT_TIMER (R422). -/
def execIdleFlitTimer (port : Nat) (s : State) : Host.Outcome State Fault Refusal :=
  event_ s (
    let p := portAt s port
    let now := clockAt s (Config.clockPort port)
    if p.state != 3 || now < p.lastTx + 4096 || p.channels.any (fun c => !c.2.flits.isEmpty) then none
    else some (sendRaw (putPort s port { p with lastTx := now }) { kind := .idle, dev := port }))

/-- A tentative packet leaves a port's channels. -/
def settlePacket (s : State) (port pkt : Nat) (cancelled : Nat) : Option State :=
  let p := portAt s port
  if p.channels.any fun c => c.2.rxTentative.contains pkt then
    let cs := p.channels.map fun c => (c.1, { c.2 with rxTentative := sdel1 c.2.rxTentative pkt })
    some (putPort s port { p with channels := cs, retries := p.retries + cancelled })
  else none

/-- CONFIRM_MARKER (R423): the packet is confirmed on the hops before; what it does is a step of its own. -/
def execConfirmMarker (port pkt : Nat) (s : State) : Host.Outcome State Fault Refusal :=
  event_ s (settlePacket s port pkt 0)

/-- CANCEL_MARKER (R423): the packet is discarded, here and where it was forwarded to, and counted. -/
def execCancelMarker (port pkt : Nat) (s : State) : Host.Outcome State Fault Refusal :=
  event_ s ((settlePacket s port pkt 1).map fun s => sendRaw s { kind := .marker, dev := port, nums := [0, pkt] })

/-- A packet of another device, for a third one, arrives on a channel of a port in RUN: it leaves on the next channel of the
port that its route takes next, without a choice here (R311); where that port is not in RUN it is discarded and its source
told (R424). -/
def forwardTurn (port src dev vc flits : Nat) (s : State) : State :=
  let me := s.fabric.frpos.toNat % 256
  if 31 ≤ port || 2 ≤ vc || flits = 0 || 33 < flits || me = dev || (portAt s port).state ≠ 3 then s
  else
    let p : Packet := { kind := .forwarded, dev := dev, nums := [src, vc] }
    match (forwardPort me port dev).filter fun k => (portAt s k).state == 3 with
    | some k => sendBy { s with ports := tmod s.ports port fun q =>
        { q with lastRx := clockAt s (Config.clockPort port) } } k (vc + 1) p flits
    | none => noticeFor s p

/-- LINK_SILENCE_TIMEOUT (R424). -/
def execLinkSilenceTimeout (port : Nat) (s : State) : Host.Outcome State Fault Refusal :=
  event_ s (
    let p := portAt s port
    if p.state != 3 || clockAt s (Config.clockPort port) < p.lastRx + 65536 then none else some (linkDown s port 6))

end Sys2Proof.Machine
end

