-- ==== Sys2Proof/Machine/Pair.lean ====
section
/-!
DEFINITION. Pair words: two half instructions that issue together (R162, R163, R232).
-/

namespace Sys2Proof.Machine

/-- The function of a half opcode, an immediate form being its register form (R174, R232). -/
def halfFun (hop : Nat) (a b : Lane) : Lane :=
  match (if 0x10 ≤ hop && hop < 0x20 then hop - 0x10 else hop) with
  | 0x01 => a + b
  | 0x02 => a - b
  | 0x03 => a &&& b
  | 0x04 => a ||| b
  | 0x05 => a ^^^ b
  | 0x06 => laneShl a b
  | 0x07 => laneShr a b
  | 0x08 => laneSra a b
  | 0x09 => laneMin false a b
  | 0x0A => laneMin true a b
  | 0x0B => laneMax false a b
  | 0x0C => laneMax true a b
  | 0x0D => b
  | 0x20 => fadd32 0 false a b
  | 0x21 => fmul32 0 false a b
  | 0x22 => fmin32 a b
  | 0x23 => fmax32 a b
  | _ => a

/-- The half is a NOP. -/
def halfNop (h : HalfOp) : Bool := h.hop == 0#7

/-- The half is VMOV or VMOVI, which does not read vd. -/
def halfMove (h : HalfOp) : Bool := h.hop == 0x0D#7 || h.hop == 0x1D#7

/-- The registers a half reads; an immediate form reads no vs. -/
def halfReads (h : HalfOp) : List Nat :=
  if halfNop h then []
  else (if halfMove h then [] else [h.vd.toNat]) ++ (if halfImm h.hop then [] else [h.vs.toNat])

/-- The lanes a half acts on: none for NOP. -/
def halfLanes (g : Group) (e : Entry) (h : HalfOp) : List Nat := if halfNop h then [] else guardLanes g e 0#1 h.gp

/-- What a half writes, from the registers before either half writes (R163). -/
def halfWrites (g : Group) (lanes : List Nat) (h : HalfOp) : List (Nat × Lane × Bool) :=
  lanes.map fun l =>
    let b := if halfImm h.hop then h.imm.signExtend 32 else getV g h.vs.toNat l
    (l, halfFun h.hop.toNat (getV g h.vd.toNat l) b, (halfReads h).any fun r => poisonedV g r l)

/-- The registers both halves name lie below the declaration (R164, R377). -/
def pairFits (s : State) (g : Group) (p : PairOp) : Bool :=
  [p.a, p.b].all fun h => halfNop h || (decide (h.vd.toNat < declV s g) && decide (h.vs.toNat < declV s g))

/-- A pair word: both halves read before either writes (R163). -/
def execPairWord (p : PairOp) (s : State) : Host.Outcome State Fault Refusal :=
  finish_ s (do
    need (pairFits s (curGroup s) p) 0x03
    let lanes (h : HalfOp) : List Nat := halfLanes (curGroup s) (curStrand s) h
    let named := [p.a, p.b].flatMap fun h => if (lanes h).isEmpty then [] else h.vd.toNat :: halfReads h
    let s ← begin_ { vr := named.map fun r => (r, false) } (some (lanes p.a ++ lanes p.b)) s
    let g := curGroup s
    let wa := halfWrites g (lanes p.a) p.a
    let wb := halfWrites g (lanes p.b) p.b
    .ok (advance (writeLanes (writeLanes s p.a.vd.toNat wa) p.b.vd.toNat wb)))

end Sys2Proof.Machine
end

