-- ==== Sys2Proof/Machine/Spdm.lean ====
section
/-!
DEFINITION. SPDM: versions, certificates, signatures, sessions, and the requests of peers that firmware serves (R59, R341
to R344, R367, R401, R420, R434).
-/

namespace Sys2Proof.Machine

/-- The device answers SPDM once the boot ROM has brought the ports up, and until it halts (R336, R338, log 71). -/
def spdmStep (port : Nat) (s : State) (f : Port → State) : Host.Outcome State Fault Refusal :=
  event_ s (if 32 ≤ port || s.boot.stage = 0 || s.boot.stage = 4 then none else some (f (portAt s port)))

/-- An answer on a port: its response code, numbers and bytes. -/
def answerSpdm (s : State) (port code : Nat) (nums : List Nat) (bytes : List Byte) : State :=
  sendRaw s { kind := .spdm, dev := port, nums := code :: nums, bytes := bytes }

/-- An SPDM error response (0x7F): 1 an invalid request, 3 Busy, 6 a failed decryption. -/
def spdmError (s : State) (port code : Nat) : State := answerSpdm s port 0x7F [code] []

/-- The certificate chain of slot 0 (R342). -/
def chain (s : State) : List Byte := Config.certificate s.boot.bootNum s.boot.seed

/-- Sign bytes with the next leaf of the boot's tree (R340, R341); after 1,024 signatures, or with no tree, signing
fails. -/
def sign (s : State) (l : List Byte) : Option (List Byte × State) :=
  if !s.boot.tree || 1024 ≤ s.boot.signatures then none
  else some (Config.lmsSign s.boot.seed s.boot.signatures l, modBoot s fun b => { b with signatures := b.signatures + 1 })

/-- Answer with bytes and their signature, or Busy (R341). -/
def answerSigned (s : State) (port code : Nat) (bytes : List Byte) (f : State → State) : State :=
  match sign s bytes with
  | none => spdmError s port 3
  | some (sig, s) => answerSpdm (f s) port code [] (bytes ++ sig)

/-- GET_VERSION (R342). -/
def execGetVersion (port : Nat) (s : State) : Host.Outcome State Fault Refusal :=
  spdmStep port s fun _ => answerSpdm s port 0x04 [0x12] []

/-- The capability flags of SPDM 1.2 for what R342 lists (log 33): certificates, CHALLENGE, signed measurements,
encryption and authentication of a session's messages, and key exchange. -/
def capabilities : Nat := 0x2 + 0x4 + 0x10 + 0x40 + 0x80 + 0x200

/-- GET_CAPABILITIES (R342). -/
def execGetCapabilities (port : Nat) (s : State) : Host.Outcome State Fault Refusal :=
  spdmStep port s fun _ => answerSpdm s port 0x61 [capabilities] []

/-- The algorithms selected of an offer (R342): LMS with SHA-256, SHA-256, secp384r1 and AES-256-GCM, each where it is
offered, and no others. -/
def selected (o : SpdmOffer) : List Nat :=
  [if o.lms then 1 else 0, if o.hash.testBit 0 then 0x1 else 0, if o.dhe.testBit 4 then 0x10 else 0,
   if o.aead.testBit 1 then 0x2 else 0]

/-- NEGOTIATE_ALGORITHMS (R342). -/
def execNegotiateAlgorithms (offer : SpdmOffer) (s : State) : Host.Outcome State Fault Refusal :=
  spdmStep offer.port s fun _ => answerSpdm s offer.port 0x63 (selected offer) []

/-- GET_DIGESTS (R342): the digest of the chain of slot 0. -/
def execGetDigests (port : Nat) (s : State) : Host.Outcome State Fault Refusal :=
  spdmStep port s fun _ => answerSpdm s port 0x01 [] (leBytes (Config.sha256 (chain s)).toNat 32)

/-- GET_CERTIFICATE (R342). -/
def execGetCertificate (port slot : Nat) (s : State) : Host.Outcome State Fault Refusal :=
  spdmStep port s fun _ => if slot = 0 then answerSpdm s port 0x02 [] (chain s) else spdmError s port 1

/-- CHALLENGE (R341, R342). -/
def execChallenge (port slot : Nat) (nonce : List Byte) (s : State) : Host.Outcome State Fault Refusal :=
  spdmStep port s fun _ =>
    if slot ≠ 0 then spdmError s port 1
    else answerSigned s port 0x03 (leBytes (Config.sha256 (chain s)).toNat 32 ++ nonce) id

/-- The measurements of an index: 1 to 8 for MR0 to MR7, 255 for all (R342). -/
def measured (s : State) (index : Nat) : Option (List Byte) :=
  if 1 ≤ index && decide (index ≤ 8) then some (leBytes (measureOf s (index - 1)).toNat 32)
  else if index = 255 then some ((List.range 8).flatMap fun k => leBytes (measureOf s k).toNat 32)
  else none

/-- GET_MEASUREMENTS (R341, R342): a report for a nonce is signed. -/
def execGetMeasurements (port index : Nat) (nonce : List Byte) (s : State) : Host.Outcome State Fault Refusal :=
  spdmStep port s fun _ =>
    match measured s index with
    | none => if index = 0 then answerSpdm s port 0x60 [8] [] else spdmError s port 1
    | some l => if nonce.isEmpty then answerSpdm s port 0x60 [] l else answerSigned s port 0x60 (l ++ nonce) id

/-- KEY_EXCHANGE (R341, R342): a session starts; with the signatures spent it fails. -/
def execKeyExchange (port : Nat) (share : List Byte) (s : State) : Host.Outcome State Fault Refusal :=
  spdmStep port s fun _ =>
    let k := Config.keyShare s.boot.seed share
    answerSigned s port 0x64 (k.1 ++ share) fun s =>
      { s with ports := tset s.ports port { portAt s port with session := { started := true, secret := k.2 } } }

/-- The session of a port is gone; a LOCKED or RUN port enters ERROR (R344, R436). -/
def dropSession (s : State) (port : Nat) : State :=
  let p := portAt s port
  let s := if p.state = 2 || p.state = 3 then portError s port 4 else s
  { s with ports := tset s.ports port { portAt s port with session := {} } }

/-- FINISH (R342): the session is established, or its keys have failed. -/
def execFinish (port : Nat) (good : Bool) (s : State) : Host.Outcome State Fault Refusal :=
  spdmStep port s fun p =>
    if !p.session.started then spdmError s port 1
    else if !good then spdmError (dropSession s port) port 6
    else
      let s := { s with ports := tset s.ports port { p with session := { p.session with established := true } } }
      answerSpdm s port 0x65 [] []

/-- END_SESSION (R344). -/
def execEndSession (port : Nat) (s : State) : Host.Outcome State Fault Refusal :=
  spdmStep port s fun p =>
    if !p.session.started then spdmError s port 1 else answerSpdm (dropSession s port) port 0x6C [] []

/-- Arm an injection (R420). -/
def armInjection (s : State) (r : PeerRequest) : State :=
  let i : Injection := { core := r.a, slot := r.b, scalar := decide (256 ≤ r.c), reg := r.c % 256, lane := r.d / 64,
                         bit := r.d % 64, after := r.e / 4, mode := r.e % 4 }
  let (id, s) := freshId s
  { s with injections := tset s.injections id i }

/-- Every device link of this device is in RUN, as a device that asks to join needs (R434). -/
def linksRun (s : State) : Bool := s.ports.all fun p => !isLink p.2 || p.2.state == 3

/-- What firmware does for a peer, none where the request is not served. -/
def servePeer (s : State) (port : Nat) (r : PeerRequest) : Option State :=
  match r.kind with
  | 0 => some (portCommand s port r.a)
  | 1 => some (writeDebug s r.a r.b r.v)
  | 2 => if r.e % 4 < 3 then some (armInjection s r) else none
  | 3 => if (tget s.launches r.a).isSome then some (abortLaunch s r.a []) else none
  | 4 => if (tget s.teams r.a).isSome then some (preempt s r.a) else none
  | 5 => if r.a < 2 then some (writePortConfig s port r.a r.v) else none
  | 6 => if linksRun s then some (sendOut s { kind := .join, dev := r.a, nums := [devNo s] }) else none
  | 7 => some (modBoot s fun b => { b with armed := true })
  | _ => none

/-- VENDOR_DEFINED_REQUEST (R343): firmware serves a peer in its session; CONFIG is also taken before there is one, as the
example of R348 shows. -/
def execVendorDefinedRequest (port : Nat) (r : PeerRequest) (s : State) : Host.Outcome State Fault Refusal :=
  spdmStep port s fun p =>
    if s.boot.stage ≠ 3 || !(p.session.established || r.kind == 0 && r.a == 1) then spdmError s port 1
    else
      match servePeer s port r with
      | some s' => answerSpdm s' port 0x7E [] []
      | none => spdmError s port 1

end Sys2Proof.Machine
end

