-- ==== Sys2Proof/Machine/Dispatch.lean ====
section
/-!
DEFINITION. One arm per instruction and per device step: each is one call of its meaning.
-/

namespace Sys2Proof.Machine

/-- What an instruction or a device step does in a state. -/
def exec (i : Instr) (s : State) : Host.Outcome State Fault Refusal :=
  match i with
  | .sadd o => Sys2Proof.Machine.execSadd o s
  | .saddImm o => Sys2Proof.Machine.execSaddImm o s
  | .ssub o => Sys2Proof.Machine.execSsub o s
  | .ssubImm o => Sys2Proof.Machine.execSsubImm o s
  | .smul o => Sys2Proof.Machine.execSmul o s
  | .smulImm o => Sys2Proof.Machine.execSmulImm o s
  | .smulh o => Sys2Proof.Machine.execSmulh o s
  | .smulhImm o => Sys2Proof.Machine.execSmulhImm o s
  | .sdiv o => Sys2Proof.Machine.execSdiv o s
  | .sdivImm o => Sys2Proof.Machine.execSdivImm o s
  | .sdivu o => Sys2Proof.Machine.execSdivu o s
  | .sdivuImm o => Sys2Proof.Machine.execSdivuImm o s
  | .srem o => Sys2Proof.Machine.execSrem o s
  | .sremImm o => Sys2Proof.Machine.execSremImm o s
  | .sremu o => Sys2Proof.Machine.execSremu o s
  | .sremuImm o => Sys2Proof.Machine.execSremuImm o s
  | .sand o => Sys2Proof.Machine.execSand o s
  | .sandImm o => Sys2Proof.Machine.execSandImm o s
  | .sor o => Sys2Proof.Machine.execSor o s
  | .sorImm o => Sys2Proof.Machine.execSorImm o s
  | .sxor o => Sys2Proof.Machine.execSxor o s
  | .sxorImm o => Sys2Proof.Machine.execSxorImm o s
  | .sshl o => Sys2Proof.Machine.execSshl o s
  | .sshlImm o => Sys2Proof.Machine.execSshlImm o s
  | .sshr o => Sys2Proof.Machine.execSshr o s
  | .sshrImm o => Sys2Proof.Machine.execSshrImm o s
  | .ssra o => Sys2Proof.Machine.execSsra o s
  | .ssraImm o => Sys2Proof.Machine.execSsraImm o s
  | .smin o => Sys2Proof.Machine.execSmin o s
  | .sminImm o => Sys2Proof.Machine.execSminImm o s
  | .sminu o => Sys2Proof.Machine.execSminu o s
  | .sminuImm o => Sys2Proof.Machine.execSminuImm o s
  | .smax o => Sys2Proof.Machine.execSmax o s
  | .smaxImm o => Sys2Proof.Machine.execSmaxImm o s
  | .smaxu o => Sys2Proof.Machine.execSmaxu o s
  | .smaxuImm o => Sys2Proof.Machine.execSmaxuImm o s
  | .smov o => Sys2Proof.Machine.execSmov o s
  | .smovi o => Sys2Proof.Machine.execSmovi o s
  | .smovh o => Sys2Proof.Machine.execSmovh o s
  | .slea o => Sys2Proof.Machine.execSlea o s
  | .sleaImm o => Sys2Proof.Machine.execSleaImm o s
  | .sclz o => Sys2Proof.Machine.execSclz o s
  | .spopc o => Sys2Proof.Machine.execSpopc o s
  | .ssel o => Sys2Proof.Machine.execSsel o s
  | .sselImm o => Sys2Proof.Machine.execSselImm o s
  | .sext o => Sys2Proof.Machine.execSext o s
  | .sbfx o => Sys2Proof.Machine.execSbfx o s
  | .sbfi o => Sys2Proof.Machine.execSbfi o s
  | .scmp o => Sys2Proof.Machine.execScmp o s
  | .scmpImm o => Sys2Proof.Machine.execScmpImm o s
  | .qand o => Sys2Proof.Machine.execQand o s
  | .qor o => Sys2Proof.Machine.execQor o s
  | .qxor o => Sys2Proof.Machine.execQxor o s
  | .vote o => Sys2Proof.Machine.execVote o s
  | .pcount o => Sys2Proof.Machine.execPcount o s
  | .pmovToScalar o => Sys2Proof.Machine.execPmovToScalar o s
  | .pmovToPredicate o => Sys2Proof.Machine.execPmovToPredicate o s
  | .gsplit o => Sys2Proof.Machine.execGsplit o s
  | .gfuse o => Sys2Proof.Machine.execGfuse o s
  | .brq o => Sys2Proof.Machine.execBrq o s
  | .brv o => Sys2Proof.Machine.execBrv o s
  | .jmp o => Sys2Proof.Machine.execJmp o s
  | .jmpReg o => Sys2Proof.Machine.execJmpReg o s
  | .call o => Sys2Proof.Machine.execCall o s
  | .callReg o => Sys2Proof.Machine.execCallReg o s
  | .ret o => Sys2Proof.Machine.execRet o s
  | .loop o => Sys2Proof.Machine.execLoop o s
  | .jmpv o => Sys2Proof.Machine.execJmpv o s
  | .callv o => Sys2Proof.Machine.execCallv o s
  | .retv o => Sys2Proof.Machine.execRetv o s
  | .exit o => Sys2Proof.Machine.execExit o s
  | .pblk o => Sys2Proof.Machine.execPblk o s
  | .ld o => Sys2Proof.Machine.execLd o s
  | .st o => Sys2Proof.Machine.execSt o s
  | .lds o => Sys2Proof.Machine.execLds o s
  | .sts o => Sys2Proof.Machine.execSts o s
  | .ldv o => Sys2Proof.Machine.execLdv o s
  | .stv o => Sys2Proof.Machine.execStv o s
  | .sld o => Sys2Proof.Machine.execSld o s
  | .sst o => Sys2Proof.Machine.execSst o s
  | .prefetch o => Sys2Proof.Machine.execPrefetch o s
  | .xadd o => Sys2Proof.Machine.execXadd o s
  | .xcvt o => Sys2Proof.Machine.execXcvt o s
  | .atomAdd o => Sys2Proof.Machine.execAtomAdd o s
  | .atomSub o => Sys2Proof.Machine.execAtomSub o s
  | .atomMin o => Sys2Proof.Machine.execAtomMin o s
  | .atomMinu o => Sys2Proof.Machine.execAtomMinu o s
  | .atomMax o => Sys2Proof.Machine.execAtomMax o s
  | .atomMaxu o => Sys2Proof.Machine.execAtomMaxu o s
  | .atomAnd o => Sys2Proof.Machine.execAtomAnd o s
  | .atomOr o => Sys2Proof.Machine.execAtomOr o s
  | .atomXor o => Sys2Proof.Machine.execAtomXor o s
  | .atomExch o => Sys2Proof.Machine.execAtomExch o s
  | .atomCas o => Sys2Proof.Machine.execAtomCas o s
  | .atomInc o => Sys2Proof.Machine.execAtomInc o s
  | .atomDec o => Sys2Proof.Machine.execAtomDec o s
  | .atomFadd o => Sys2Proof.Machine.execAtomFadd o s
  | .atomFmin o => Sys2Proof.Machine.execAtomFmin o s
  | .atomFmax o => Sys2Proof.Machine.execAtomFmax o s
  | .vadd o => Sys2Proof.Machine.execVadd o s
  | .vsub o => Sys2Proof.Machine.execVsub o s
  | .vmul o => Sys2Proof.Machine.execVmul o s
  | .vmulh o => Sys2Proof.Machine.execVmulh o s
  | .vmad o => Sys2Proof.Machine.execVmad o s
  | .vaddsat o => Sys2Proof.Machine.execVaddsat o s
  | .vsubsat o => Sys2Proof.Machine.execVsubsat o s
  | .vand o => Sys2Proof.Machine.execVand o s
  | .vor o => Sys2Proof.Machine.execVor o s
  | .vxor o => Sys2Proof.Machine.execVxor o s
  | .vshl o => Sys2Proof.Machine.execVshl o s
  | .vshr o => Sys2Proof.Machine.execVshr o s
  | .vsra o => Sys2Proof.Machine.execVsra o s
  | .vmin o => Sys2Proof.Machine.execVmin o s
  | .vmax o => Sys2Proof.Machine.execVmax o s
  | .vabsd o => Sys2Proof.Machine.execVabsd o s
  | .vaddmin o => Sys2Proof.Machine.execVaddmin o s
  | .vaddmax o => Sys2Proof.Machine.execVaddmax o s
  | .vsel o => Sys2Proof.Machine.execVsel o s
  | .vmov o => Sys2Proof.Machine.execVmov o s
  | .vmovi o => Sys2Proof.Machine.execVmovi o s
  | .vclz o => Sys2Proof.Machine.execVclz o s
  | .vpopc o => Sys2Proof.Machine.execVpopc o s
  | .vbfx o => Sys2Proof.Machine.execVbfx o s
  | .vbfi o => Sys2Proof.Machine.execVbfi o s
  | .vprmt o => Sys2Proof.Machine.execVprmt o s
  | .vidx o => Sys2Proof.Machine.execVidx o s
  | .vcmp o => Sys2Proof.Machine.execVcmp o s
  | .fadd o => Sys2Proof.Machine.execFadd o s
  | .fsub o => Sys2Proof.Machine.execFsub o s
  | .fmul o => Sys2Proof.Machine.execFmul o s
  | .ffma o => Sys2Proof.Machine.execFfma o s
  | .fmin o => Sys2Proof.Machine.execFmin o s
  | .fmax o => Sys2Proof.Machine.execFmax o s
  | .frcp o => Sys2Proof.Machine.execFrcp o s
  | .frsq o => Sys2Proof.Machine.execFrsq o s
  | .fsqrt o => Sys2Proof.Machine.execFsqrt o s
  | .fexp2 o => Sys2Proof.Machine.execFexp2 o s
  | .flog2 o => Sys2Proof.Machine.execFlog2 o s
  | .fsin o => Sys2Proof.Machine.execFsin o s
  | .fcos o => Sys2Proof.Machine.execFcos o s
  | .fcmp o => Sys2Proof.Machine.execFcmp o s
  | .fclass o => Sys2Proof.Machine.execFclass o s
  | .cvt o => Sys2Proof.Machine.execCvt o s
  | .pack o => Sys2Proof.Machine.execPack o s
  | .unpack o => Sys2Proof.Machine.execUnpack o s
  | .vshuf o => Sys2Proof.Machine.execVshuf o s
  | .vlsh o => Sys2Proof.Machine.execVlsh o s
  | .vbcast o => Sys2Proof.Machine.execVbcast o s
  | .vred o => Sys2Proof.Machine.execVred o s
  | .vscan o => Sys2Proof.Machine.execVscan o s
  | .npush o => Sys2Proof.Machine.execNpush o s
  | .npop o => Sys2Proof.Machine.execNpop o s
  | .spawn o => Sys2Proof.Machine.execSpawn o s
  | .mldw o => Sys2Proof.Machine.execMldw o s
  | .mswap => Sys2Proof.Machine.execMswap s
  | .mstream o => Sys2Proof.Machine.execMstream o s
  | .mdrain o => Sys2Proof.Machine.execMdrain o s
  | .mzero o => Sys2Proof.Machine.execMzero o s
  | .mbatch o => Sys2Proof.Machine.execMbatch o s
  | .mwait o => Sys2Proof.Machine.execMwait o s
  | .mstat o => Sys2Proof.Machine.execMstat o s
  | .tdef o => Sys2Proof.Machine.execTdef o s
  | .tload o => Sys2Proof.Machine.execTload o s
  | .tstore o => Sys2Proof.Machine.execTstore o s
  | .trel o => Sys2Proof.Machine.execTrel o s
  | .tstat o => Sys2Proof.Machine.execTstat o s
  | .finit o => Sys2Proof.Machine.execFinit o s
  | .fexpect o => Sys2Proof.Machine.execFexpect o s
  | .fwait o => Sys2Proof.Machine.execFwait o s
  | .binit o => Sys2Proof.Machine.execBinit o s
  | .barv o => Sys2Proof.Machine.execBarv o s
  | .bwait o => Sys2Proof.Machine.execBwait o s
  | .bsync o => Sys2Proof.Machine.execBsync o s
  | .qinit o => Sys2Proof.Machine.execQinit o s
  | .qpush o => Sys2Proof.Machine.execQpush o s
  | .qpushRes o => Sys2Proof.Machine.execQpushRes o s
  | .qpushCmt o => Sys2Proof.Machine.execQpushCmt o s
  | .qpop o => Sys2Proof.Machine.execQpop o s
  | .qwait o => Sys2Proof.Machine.execQwait o s
  | .qrel o => Sys2Proof.Machine.execQrel o s
  | .fence o => Sys2Proof.Machine.execFence o s
  | .xtpl o => Sys2Proof.Machine.execXtpl o s
  | .xpost o => Sys2Proof.Machine.execXpost o s
  | .xquery o => Sys2Proof.Machine.execXquery o s
  | .cproto o => Sys2Proof.Machine.execCproto o s
  | .copen o => Sys2Proof.Machine.execCopen o s
  | .cbind o => Sys2Proof.Machine.execCbind o s
  | .csend o => Sys2Proof.Machine.execCsend o s
  | .crecv o => Sys2Proof.Machine.execCrecv o s
  | .cdeleg o => Sys2Proof.Machine.execCdeleg o s
  | .cclose o => Sys2Proof.Machine.execCclose o s
  | .srd o => Sys2Proof.Machine.execSrd o s
  | .swr o => Sys2Proof.Machine.execSwr o s
  | .trap o => Sys2Proof.Machine.execTrap o s
  | .rett => Sys2Proof.Machine.execRett s
  | .brk o => Sys2Proof.Machine.execBrk o s
  | .nop => Sys2Proof.Machine.execNop s
  | .isync => Sys2Proof.Machine.execIsync s
  | .iinv o => Sys2Proof.Machine.execIinv o s
  | .pnopre => Sys2Proof.Machine.execPnopre s
  | .ppre => Sys2Proof.Machine.execPpre s
  | .chkerr o => Sys2Proof.Machine.execChkerr o s
  | .launch o => Sys2Proof.Machine.execLaunch o s
  | .yield => Sys2Proof.Machine.execYield s
  | .pairWord p => Sys2Proof.Machine.execPairWord p s
  | .undefinedInstruction w => Sys2Proof.Machine.execUndefinedInstruction w s
  | .matrixTeamSwitch core => Sys2Proof.Machine.execMatrixTeamSwitch core s
  | .mldwLoaded core op => Sys2Proof.Machine.execMldwLoaded core op s
  | .mswapTakesEffect core op => Sys2Proof.Machine.execMswapTakesEffect core op s
  | .mstreamPassed core op => Sys2Proof.Machine.execMstreamPassed core op s
  | .mdrainDone core op => Sys2Proof.Machine.execMdrainDone core op s
  | .mzeroDone core op => Sys2Proof.Machine.execMzeroDone core op s
  | .tloadCopyDone id early => Sys2Proof.Machine.execTloadCopyDone id early s
  | .tstoreDone id => Sys2Proof.Machine.execTstoreDone id s
  | .barvArrivalCounted id => Sys2Proof.Machine.execBarvArrivalCounted id s
  | .convMessageAtHome id m => Sys2Proof.Machine.execConvMessageAtHome id m s
  | .loadReply id evicted => Sys2Proof.Machine.execLoadReply id evicted s
  | .storeAcknowledged id => Sys2Proof.Machine.execStoreAcknowledged id s
  | .coachAtAnchor id => Sys2Proof.Machine.execCoachAtAnchor id s
  | .coachAccessDone id => Sys2Proof.Machine.execCoachAccessDone id s
  | .coachLanding id => Sys2Proof.Machine.execCoachLanding id s
  | .coachBounceLanding id => Sys2Proof.Machine.execCoachBounceLanding id s
  | .coachFaultReturn id => Sys2Proof.Machine.execCoachFaultReturn id s
  | .coachLost id => Sys2Proof.Machine.execCoachLost id s
  | .coachGuardFailure id => Sys2Proof.Machine.execCoachGuardFailure id s
  | .landingAreaReseat core => Sys2Proof.Machine.execLandingAreaReseat core s
  | .reseatWaitExpiry gid => Sys2Proof.Machine.execReseatWaitExpiry gid s
  | .odnTrainInject src => Sys2Proof.Machine.execOdnTrainInject src s
  | .odnTrainDelivered id => Sys2Proof.Machine.execOdnTrainDelivered id s
  | .ownerNotice id => Sys2Proof.Machine.execOwnerNotice id s
  | .writebackAtSlice id => Sys2Proof.Machine.execWritebackAtSlice id s
  | .writebackRequest core line => Sys2Proof.Machine.execWritebackRequest core line s
  | .promotionRequest id => Sys2Proof.Machine.execPromotionRequest id s
  | .promotionAck id => Sys2Proof.Machine.execPromotionAck id s
  | .writebackAck id => Sys2Proof.Machine.execWritebackAck id s
  | .translationWalkDone id => Sys2Proof.Machine.execTranslationWalkDone id s
  | .spawnBinTimerExpiry core bin => Sys2Proof.Machine.execSpawnBinTimerExpiry core bin s
  | .spawnBinLaunch core bin => Sys2Proof.Machine.execSpawnBinLaunch core bin s
  | .spawnedGroupEnd id => Sys2Proof.Machine.execSpawnedGroupEnd id s
  | .lqtailWrite n v => Sys2Proof.Machine.execLqtailWrite n v s
  | .lqEnable n v => Sys2Proof.Machine.execLqEnable n v s
  | .lqDisable n v => Sys2Proof.Machine.execLqDisable n v s
  | .lqResume n => Sys2Proof.Machine.execLqResume n s
  | .lqSkip n => Sys2Proof.Machine.execLqSkip n s
  | .lqstatClear n => Sys2Proof.Machine.execLqstatClear n s
  | .launchActivation n => Sys2Proof.Machine.execLaunchActivation n s
  | .dependenceRecheck n => Sys2Proof.Machine.execDependenceRecheck n s
  | .distributorTurn => Sys2Proof.Machine.execDistributorTurn s
  | .teamRetire t => Sys2Proof.Machine.execTeamRetire t s
  | .preemptionWaitExpiry n => Sys2Proof.Machine.execPreemptionWaitExpiry n s
  | .preemptionRequest t => Sys2Proof.Machine.execPreemptionRequest t s
  | .preemptionHoldOverrun gid strand => Sys2Proof.Machine.execPreemptionHoldOverrun gid strand s
  | .saveComplete t => Sys2Proof.Machine.execSaveComplete t s
  | .tcinvWrite n v => Sys2Proof.Machine.execTcinvWrite n v s
  | .tcinvComplete n => Sys2Proof.Machine.execTcinvComplete n s
  | .btePostAccept id => Sys2Proof.Machine.execBtePostAccept id s
  | .bteCartSend g => Sys2Proof.Machine.execBteCartSend g s
  | .postFinish id => Sys2Proof.Machine.execPostFinish id s
  | .remoteWritePacket dev tag ctx runs data rel => Sys2Proof.Machine.execRemoteWritePacket dev tag ctx runs data rel s
  | .remoteWriteAck g tag gen => Sys2Proof.Machine.execRemoteWriteAck g tag gen s
  | .remoteReadRequest dev tag ctx runs => Sys2Proof.Machine.execRemoteReadRequest dev tag ctx runs s
  | .remoteReadReply g tag gen data => Sys2Proof.Machine.execRemoteReadReply g tag gen data s
  | .remoteAtomic dev tag ctx va op fmt opr swap => Sys2Proof.Machine.execRemoteAtomic dev tag ctx va op fmt opr swap s
  | .requestTimeout g tag => Sys2Proof.Machine.execRequestTimeout g tag s
  | .lateAnswer g tag gen => Sys2Proof.Machine.execLateAnswer g tag gen s
  | .collectivePacket port m => Sys2Proof.Machine.execCollectivePacket port m s
  | .collectiveInstanceComplete ctx k => Sys2Proof.Machine.execCollectiveInstanceComplete ctx k s
  | .flitBlockReceive port vc flits pkts good => Sys2Proof.Machine.execFlitBlockReceive port vc flits pkts good s
  | .blockAck port vc => Sys2Proof.Machine.execBlockAck port vc s
  | .blockNak port vc => Sys2Proof.Machine.execBlockNak port vc s
  | .blockCloseTimer port vc => Sys2Proof.Machine.execBlockCloseTimer port vc s
  | .idleFlitTimer port => Sys2Proof.Machine.execIdleFlitTimer port s
  | .confirmMarker port pkt => Sys2Proof.Machine.execConfirmMarker port pkt s
  | .cancelMarker port pkt => Sys2Proof.Machine.execCancelMarker port pkt s
  | .linkSilenceTimeout port => Sys2Proof.Machine.execLinkSilenceTimeout port s
  | .discardNotice g tag => Sys2Proof.Machine.execDiscardNotice g tag s
  | .fatalReport dev => Sys2Proof.Machine.execFatalReport dev s
  | .propose m => Sys2Proof.Machine.execPropose m s
  | .accept dev => Sys2Proof.Machine.execAccept dev s
  | .reject dev lost => Sys2Proof.Machine.execReject dev lost s
  | .wait dev => Sys2Proof.Machine.execWait dev s
  | .proposeAnswerTimeout dev => Sys2Proof.Machine.execProposeAnswerTimeout dev s
  | .commit m => Sys2Proof.Machine.execCommit m s
  | .join dev => Sys2Proof.Machine.execJoin dev s
  | .viewnumWrite v => Sys2Proof.Machine.execViewnumWrite v s
  | .frposWrite v => Sys2Proof.Machine.execFrposWrite v s
  | .registerWrite off v => Sys2Proof.Machine.execRegisterWrite off v s
  | .powerUp seed => Sys2Proof.Machine.execPowerUp seed s
  | .powerOff => Sys2Proof.Machine.execPowerOff s
  | .claim ports => Sys2Proof.Machine.execClaim ports s
  | .go port => Sys2Proof.Machine.execGo port s
  | .bootVerifyDone => Sys2Proof.Machine.execBootVerifyDone s
  | .hostControlAccess via dram write addr v => Sys2Proof.Machine.execHostControlAccess via dram write addr v s
  | .getVersion port => Sys2Proof.Machine.execGetVersion port s
  | .getCapabilities port => Sys2Proof.Machine.execGetCapabilities port s
  | .negotiateAlgorithms offer => Sys2Proof.Machine.execNegotiateAlgorithms offer s
  | .getDigests port => Sys2Proof.Machine.execGetDigests port s
  | .getCertificate port slot => Sys2Proof.Machine.execGetCertificate port slot s
  | .challenge port slot nonce => Sys2Proof.Machine.execChallenge port slot nonce s
  | .getMeasurements port index nonce => Sys2Proof.Machine.execGetMeasurements port index nonce s
  | .keyExchange port share => Sys2Proof.Machine.execKeyExchange port share s
  | .finish port good => Sys2Proof.Machine.execFinish port good s
  | .endSession port => Sys2Proof.Machine.execEndSession port s
  | .vendorDefinedRequest port r => Sys2Proof.Machine.execVendorDefinedRequest port r s
  | .mrExtend k x => Sys2Proof.Machine.execMrExtend k x s
  | .config port => Sys2Proof.Machine.execConfig port s
  | .lock port => Sys2Proof.Machine.execLock port s
  | .start port => Sys2Proof.Machine.execStart port s
  | .stop port => Sys2Proof.Machine.execStop port s
  | .reset port => Sys2Proof.Machine.execReset port s
  | .portConfigWrite port reg v => Sys2Proof.Machine.execPortConfigWrite port reg v s
  | .securityAlarm level => Sys2Proof.Machine.execSecurityAlarm level s
  | .junction100C => Sys2Proof.Machine.execJunction100C s
  | .junction110C => Sys2Proof.Machine.execJunction110C s
  | .inFieldTest g => Sys2Proof.Machine.execInFieldTest g s
  | .checkPoint t => Sys2Proof.Machine.execCheckPoint t s
  | .injectionFire k => Sys2Proof.Machine.execInjectionFire k s
  | .linkDownReport dev peer => Sys2Proof.Machine.execLinkDownReport dev peer s
  | .refusedCollectivePacket g pkt => Sys2Proof.Machine.execRefusedCollectivePacket g pkt s
  | .inFieldTestEnd g => Sys2Proof.Machine.execInFieldTestEnd g s

end Sys2Proof.Machine
end

