-- ==== Sys2Proof/Machine/Errors.lean ====
section
/-!
DEFINITION. Errors of storage and paths (R405, R407, R409): one that is corrected is counted, and one that is not leaves
poison, an error value or a word that is fetched again.
-/

namespace Sys2Proof.Machine

/-- An 8-byte granule of memory is poisoned. -/
def poisonCell (s : State) (k : Nat) : State := { s with poison := sadd1 s.poison k }

/-- A lane of a vector register is poisoned, or, from number 256 on, a scalar register. -/
def poisonRegister (s : State) (gid reg lane : Nat) : State :=
  { s with groups := tmod s.groups gid fun g =>
      if 256 ≤ reg then (if reg < 384 then { g with spoison := sadd1 g.spoison (reg - 256) } else g)
      else if lane < g.width then poisonV g reg lane else g }

/-- What an access carries for one of its lanes is poisoned: its operand until it is performed, then its result. -/
def poisonAccess (s : State) (id k : Nat) : State :=
  { s with outs := tmod s.outs id fun o =>
      match o.lanes[k]? with
      | none => o
      | some a =>
        let b := if a.did then { a with resPoison := BitVec.allOnes 4 } else { a with poisoned := true }
        { o with lanes := o.lanes.set k b } }

/-- A lane of a register that a coach carries is poisoned, which its landing consumes (R407). -/
def poisonEscort (s : State) (id key : Nat) : State :=
  { s with outs := tmod s.outs id fun o =>
      { o with coach := o.coach.map fun c =>
          if c.payload.any (·.1 == key) then { c with poison := sadd1 c.poison key, hurt := true } else c } }

/-- A granule of an L1 line is poisoned, where the core holds the line. -/
def poisonLine (s : State) (core line g : Nat) : State :=
  modCore s core fun c => { c with lines := tmod c.lines line fun l =>
    if g < 16 then { l with poison := l.poison ||| (1#16 <<< g) } else l }

/-- A word of a neighbour link is poisoned (R231). -/
def poisonLink (s : State) (core side k : Nat) : State :=
  modCore s core fun c => { c with links := tmod c.links side fun l =>
    match l[k]? with
    | none => l
    | some w => l.set k { w with poison := BitVec.allOnes 16 } }

/-- A value of a plane or accumulator of a team is lost, and its loss consumed (R405, R409): a plane's element gives the error
value wherever it is used, an accumulator holds it. Number 0 is the active plane, 1 the shadow, 2 + a accumulator a. -/
def loseValue (s : State) (t which k : Nat) : State :=
  if (tget s.teams t).isNone || 6 ≤ which || 16384 ≤ k then s
  else
    let spoil (p : Plane) : Plane := if p.bad.contains k then p else { p with bad := p.bad ++ [k] }
    consumed (modMatrix s t fun m =>
      if which = 0 then { m with active := spoil m.active }
      else if which = 1 then { m with shadow := spoil m.shadow }
      else
        let a := tgetD m.accs (which - 2) {}
        let v : Word := if a.int then 0x80000000#64 else toAcc .nan
        { m with accs := tset m.accs (which - 2) { a with vals := tset a.vals k v } }) { owner := .team t }

/-- A value in a load-value queue is poisoned. -/
def poisonValue (s : State) (t k i : Nat) : State :=
  { s with teams := tmod s.teams t fun x =>
      match x.values[k]? with
      | none => x
      | some v => if i < v.vals.length then { x with values := x.values.set k { v with bad := sadd1 v.bad i } } else x }

/-- What an error that a structure's code cannot correct becomes (R405); `i`, `j` and `k` say where. Tile tables, stacks and tag
tables are rewritten from a protected copy. -/
def upsetAt (s : State) (st : Structure) (i j k : Nat) : State :=
  match st with
  | .registers | .landingArea => poisonRegister s i j k
  | .coachPayload => poisonEscort s i j
  | .coachStore | .compareBuffer | .odnFlit => poisonAccess s i j
  | .loadValues => poisonValue s i j k
  | .scratchpad => { s with teams := tmod s.teams i fun x => { x with sharePoison := sadd1 x.sharePoison j } }
  | .vault | .homeSlice | .cart => poisonCell s i
  | .dram | .record | .checkArea => (List.range 4).foldl (fun s n => poisonCell s (4 * i + n)) s
  | .l1 => poisonLine s i j k
  | .linkWord => poisonLink s i j k
  | .plane => if j < 2 then loseValue s i j k else s
  | .accumulator => loseValue s i (2 + j) k
  | .icache => modCore s i fun c => { c with icache := terase c.icache j, fetched := terase c.fetched j }
  | .tlb => modCore s i fun c => { c with tlb := c.tlb.eraseIdx j }
  | .tileTable | .stack | .tagTable => s

/-- An error of a structure (R405): corrected it changes nothing and is counted. -/
def upsetTurn (st : Structure) (i j k : Nat) (corrected : Bool) (s : State) : State :=
  if corrected then countError s st else upsetAt s st i j k

end Sys2Proof.Machine
end

