-- ==== Sys2Proof/Machine/Issue.lean ====
section
/-!
DEFINITION. What a pipe does with its cycle: which strand issues (R70), the checks at an instruction boundary in their
order (R357), fetching and decoding a word (R133, R150, R175), and what follows an instruction.
-/

namespace Sys2Proof.Machine

/-! ### Classes of words, and the registers of a uniform word -/

/-- The word is vector class, a pair word or a PBLK, by its opcode (R151, R173): none of them may be covered. -/
def uncoverable (w : Word) : Bool :=
  let op := (fld w 55 8).toNat
  fld w 63 1 == 1#1 || op == 0x51 || op == 0x5C || (decide (0x58 ≤ op) && decide (op ≤ 0x5B)) ||
  (decide (0x60 ≤ op) && decide (op < 0x80) && op != 0x62 && op != 0x63) || (decide (0x80 ≤ op) && decide (op < 0xC0))

/-- The scalar registers that a uniform instruction names (R164); a skipped word is checked for them (R169). -/
def uniformScalars (i : Instr) : List Nat :=
  match i with
  | .sadd o | .ssub o | .smul o | .smulh o | .sdiv o | .sdivu o | .srem o | .sremu o | .sand o | .sor o | .sxor o
  | .sshl o | .sshr o | .ssra o | .smin o | .sminu o | .smax o | .smaxu o => [o.sd.toNat, o.sa.toNat, o.sb.toNat]
  | .saddImm o | .ssubImm o | .smulImm o | .smulhImm o | .sdivImm o | .sdivuImm o | .sremImm o | .sremuImm o
  | .sandImm o | .sorImm o | .sxorImm o | .sshlImm o | .sshrImm o | .ssraImm o | .sminImm o | .sminuImm o | .smaxImm o
  | .smaxuImm o => [o.sd.toNat, o.sa.toNat]
  | .smov o | .sclz o | .spopc o => [o.sd.toNat, o.sa.toNat]
  | .smovi o | .smovh o => [o.sd.toNat]
  | .slea o => [o.sd.toNat, o.sa.toNat, o.sb.toNat]
  | .sleaImm o => [o.sd.toNat, o.sa.toNat]
  | .ssel o => [o.sd.toNat, o.sa.toNat, o.sb.toNat]
  | .sselImm o => [o.sd.toNat, o.sa.toNat]
  | .sext o => [o.sd.toNat, o.sa.toNat]
  | .sbfx o => [o.sd.toNat, o.sa.toNat]
  | .sbfi o => [o.sd.toNat, o.sa.toNat]
  | .scmp o => [o.sa.toNat, o.sb.toNat]
  | .scmpImm o => [o.sa.toNat]
  | .pcount o | .pmovToScalar o => [o.sd.toNat]
  | .pmovToPredicate o => [o.sa.toNat]
  | .gsplit o | .gfuse o => [o.sd.toNat]
  | .jmpReg o => [o.sa.toNat]
  | .call o => [o.sl.toNat]
  | .callReg o => [o.sl.toNat, o.sa.toNat]
  | .ret o => [o.sl.toNat]
  | .loop o => [o.sl.toNat]
  | .sld o => [o.vd.toNat, o.sb.toNat]
  | .sst o => [o.vd.toNat, o.sb.toNat]
  | .mldw o => [o.sa.toNat, o.sb.toNat]
  | .mstream o => [o.sa.toNat, o.sb.toNat]
  | .mdrain o => [o.sa.toNat, o.sb.toNat]
  | .mbatch o | .mstat o => [o.sd.toNat]
  | .mwait o => if o.imm == 1#1 then [] else [o.sa.toNat]
  | .tdef o => [o.sd.toNat, o.sa.toNat, o.sb.toNat]
  | .tload o => [o.sa.toNat, o.sb.toNat]
  | .tstore o => [o.sa.toNat, o.sb.toNat]
  | .tstat o => [o.sd.toNat]
  | .finit o | .fexpect o | .qinit o | .qpush o | .qpop o | .xpost o => [o.sa.toNat, o.sb.toNat]
  | .fwait o => o.sa.toNat :: (if o.reg == 1#1 then [o.sb.toNat] else [])
  | .binit o => [o.sa.toNat]
  | .qwait o | .cproto o => [o.sd.toNat, o.sa.toNat]
  | .qpushRes o => [o.sd.toNat, o.sa.toNat]
  | .qpushCmt o => [o.sa.toNat]
  | .qrel o | .cclose o => [o.sa.toNat]
  | .xtpl o => runOf o.sa.toNat 8
  | .xquery o => [o.sd.toNat]
  | .copen o => [o.sd.toNat, o.sa.toNat]
  | .cbind o => [o.sd.toNat, o.sa.toNat]
  | .csend o => o.sa.toNat :: runOf o.sb.toNat o.n.toNat
  | .crecv o => [o.sd.toNat, o.sa.toNat] ++ runOf o.sb.toNat 8
  | .cdeleg o => [o.sa.toNat]
  | .srd o => (if o.v == 1#1 then [] else [o.sd.toNat]) ++ (if o.cls == 1#5 || 5 ≤ o.cls.toNat then [o.sa.toNat] else []) ++
    indexNames o.cls.toNat 2 o.idx.toNat
  | .swr o => o.sd.toNat :: (if o.cls == 1#5 || 5 ≤ o.cls.toNat then [o.sa.toNat] else []) ++
    indexNames o.cls.toNat 2 o.idx.toNat
  | .iinv o => [o.sa.toNat, o.sb.toNat]
  | .chkerr o => [o.sd.toNat]
  | .launch o => [o.sd.toNat, o.sa.toNat, o.sb.toNat]
  | _ => []

/-- The vector registers that a uniform instruction names by a field of its own (R164). -/
def uniformVectors (i : Instr) : List Nat :=
  match i with
  | .mldw o => if bit1 o.s then [o.vS.toNat] else []
  | .mstream o => if bit1 o.s then [o.vS.toNat] else []
  | .srd o => (if o.v == 1#1 then [o.sd.toNat] else []) ++ indexNames o.cls.toNat 1 o.idx.toNat
  | .swr o => indexNames o.cls.toNat 1 o.idx.toNat
  | _ => []

/-- Every register that a skipped word names lies below the declaration (R164, R169). -/
def skippedFits (s : State) (g : Group) (i : Instr) : Bool :=
  (uniformScalars i).all (fun r => decide (r < declS s g)) && (uniformVectors i).all fun r => decide (r < declV s g)

/-! ### The checks at a boundary -/

/-- Instruction breakpoint k matches a strand about to issue (R368). -/
def breakMatch (s : State) (g : Group) (e : Entry) (k : Nat) : Bool :=
  let off := 0x20 * k
  let c := debugReg s g.core (off + 8) 0#64
  c.getLsbD 0 && debugMatch s g c 1 2 &&
  (debugReg s g.core off 0#64).extractLsb' 3 54 == e.pc.extractLsb' 3 54 &&
  (strandLanes g e).any fun l => (debugReg s g.core (off + 0x10) (BitVec.allOnes 64)).getLsbD l

/-- The strand meets an instruction breakpoint: not in handler mode, nor as its first instruction after RETT (R359,
R360, R368). -/
def breakHit (s : State) (g : Group) (e : Entry) : Bool :=
  !hmode g && !g.exempt.contains e.id && (List.range 8).any (breakMatch s g e)

/-- The pending trap of a strand with the lowest code (R357). -/
def lowestPending (l : List TrapInfo) : Option TrapInfo :=
  match l with
  | [] => none
  | t :: r => some (r.foldl (fun a b => if b.code.toNat < a.code.toNat then b else a) t)

/-- What a strand comes to at its boundary: a trap, a covered word that is skipped, an instruction, a wait, or a record
that the trailing copy cannot follow. -/
inductive Work where
  | trap (t : TrapInfo) (s : State)
  | skip (s : State)
  | run (i : Instr) (s : State)
  | wait (s : State)
  | lost (s : State)
  deriving DecidableEq, Repr

/-- The word at the strand's PC: translated as a fetch and read through the instruction caches (R85, R133, R194, R408).
An instruction that waits part done keeps the word it began with. -/
def fetchWord (s : State) : Act (Word × State) :=
  let g := curGroup s
  let e := curStrand s
  if e.stage ≠ 0 then .ok (e.word, s)
  else
    match translate s g.core (ctxOf s g) e.pc 2 with
    | .fault c => trapLane c 0 e.pc
    | .pending s => holdHere s
    | .ok pa _ =>
      if s.poison.contains (pa / 8) then trapWith 0x18
      else
        let (w, s) := fetchAt s g.core pa
        .ok (w, setStrand s { curStrand s with word := w })

/-- The decode checks of R175 in the order of R176, and whether a block skips the word (R169). -/
def judgeWord (s : State) (w : Word) : Work :=
  let g := curGroup s
  let bad (c : Nat) : Work := .trap { code := BitVec.ofNat 8 c } s
  match (curStrand s).block with
  | none =>
    match decode w with
    | .ok i => .run i s
    | .error .reservedField => bad 0x03
    | .error (.illegalPairing p) => bad (if pairFits s g p then 0x02 else 0x03)
  | some b =>
    match decode w with
    | .ok (.undefinedInstruction _) => bad 0x01
    | .ok i =>
      if uncoverable w then bad 0x01
      else if b.pattern.getLsbD 0 == b.sample then .run i s
      else if skippedFits s g i then .skip s
      else bad 0x03
    | .error _ => bad (if uncoverable w then 0x01 else 0x03)

/-- Fetch and judge. -/
def fetchWork (s : State) : Work :=
  match fetchWord s with
  | .ok (w, s) => judgeWord s w
  | .error (.trap t) => .trap t s
  | .error (.wait s) => .wait s

/-- The strand stands where the record of the trailing copy's next issue has it (R417, R444). -/
def follows (s : State) (e : Entry) : Bool :=
  match headValue s s.cur.gid with
  | none => false
  | some v => v.mask == e.mask && v.pc == e.pc

/-- The boundary of the strand of the cursor (R357): pending traps, an instruction breakpoint, the word. A trailing copy
takes the traps its leading copy took (R417). -/
def boundary (s : State) : Work :=
  let g := curGroup s
  let e := curStrand s
  if isTrailing s g then (if follows s e then fetchWork s else .lost s)
  else if e.stage ≠ 0 then fetchWork s
  else
    match lowestPending e.pend with
    | some t => .trap t (setStrand s { e with pend := e.pend.erase t })
    | none => if breakHit s g e then .trap { code := 0x30#8 } s else fetchWork s

/-- Do the work of a boundary. -/
def perform (w : Work) : Host.Outcome State Fault Refusal :=
  match w with
  | .trap t s => finish_ s (.error (.trap t))
  | .skip s => finish_ s (.ok (advance s))
  | .run i s => exec i s
  | .wait s => .next (stalled s)
  | .lost s => .next (progressed (cannotFollow s))

/-! ### Who may issue -/

/-- Another group's trap stops this group: one that it stopped, wherever it stands now, or one of the launch that has come
to the core (R370, R373). -/
def stoppedByOther (s : State) (gid : Nat) (g : Group) : Bool :=
  !hmode g && s.stops.any fun x => (x.groups.contains gid || (launchKey s g == x.launch && g.core == x.core)) &&
    stopLive s x

/-- A strand of a stopped group goes on only to a trap that is pending on it, or with an instruction it is part done with
(R370, R373). -/
def stopMay (s : State) (gid : Nat) (g : Group) (e : Entry) : Bool :=
  !stoppedByOther s gid g || !e.pend.isEmpty || e.stage != 0

/-- An injection is due at the group's boundary (R420). -/
def injectionDue (s : State) (g : Group) : Bool :=
  s.injections.any fun i => i.2.after == 0 && i.2.core == g.core && (i.2.slot == g.slot || g.held.contains i.2.slot)

/-- The group may issue: seated, not parked, its launch not aborted, no injection due. -/
def groupMay (s : State) (gid : Nat) (g : Group) : Bool :=
  !g.image && !(g.parked && coachAbroad s gid) && !(launchOf s g).aborted && !injectionDue s g

/-- A team that a pre-emption stops lets only a strand in its region issue (R71); a saved team nothing. -/
def phaseMay (x : Team) (e : Entry) : Bool :=
  match x.phase with
  | .resident => true
  | .stopping => holding e
  | .saving | .saved => false

/-- The forced check point of a team and of its other copy (R411). -/
def forceOf (s : State) (x : Team) : Option Force :=
  x.force.orElse fun _ => x.mate.bind fun m => (tgetD s.teams m {}).force

/-- While a check point is forced (R412): only the strand that it let act, one whose answer has come, the strand that
forced it as it waits for its post, and the trailing copy behind its leading copy go on. -/
def forceMay (s : State) (x : Team) (gid : Nat) (e : Entry) : Bool :=
  match forceOf s x with
  | none => true
  | some why =>
    x.granted == some (gid, e.id) || (match tget s.convRequests e.request with
      | some r => e.stage == 1 && r.answered
      | none => false) ||
    (why == .settle && x.forcedBy == some (gid, e.id) && e.stage == 1) ||
    (x.trailing && why != .schedule && !x.values.isEmpty)

/-- The queue of the trailing copy has room for a value (R417). -/
def valuesRoom (s : State) (x : Team) : Bool :=
  match x.mate with
  | some m => x.trailing || decide (((tgetD s.teams m {}).values.filter fun v => v.kind != 0).length < 512)
  | none => true

/-- The strand has not already failed to issue since anything last happened. -/
def fresh (s : State) (e : Entry) : Bool := e.stall != s.progress + 1

/-- The strands of a group that may issue now. A trailing copy has the one its record names (R417); where there is none
it cannot follow, which any of them finds. -/
def readyStrands (s : State) (gid : Nat) (g : Group) : List Entry :=
  let x := teamOf s g
  let may (e : Entry) : Bool :=
    (hmode g || g.stepping.all (· == e.id)) && stopMay s gid g e &&
      (phaseMay x e || (x.phase != .saved && farAnswered s e)) && forceMay s x gid e && valuesRoom s x && fresh s e
  if !groupMay s gid g then []
  else if x.trailing then
    match headValue s gid with
    | none => []
    | some v =>
      if v.out ≠ 0 then []
      else
        match (liveStrands g).filter fun e => v.mask == e.mask && v.pc == e.pc with
        | [] => [(liveStrands g).headD {}].filter may
        | l => l.filter may
  else if g.ended then []
  else (liveStrands g).filter may

/-- Put an item into a list in the order of its key. -/
def insertBy {α : Type} (k : Nat) (a : α) : List (Nat × α) → List (Nat × α)
  | [] => [(k, a)]
  | (j, b) :: r => if k < j then (k, a) :: (j, b) :: r else (j, b) :: insertBy k a r

/-- Items in the order of their keys. -/
def sortBy {α : Type} (f : α → Nat) (l : List α) : List α := (l.foldl (fun acc a => insertBy (f a) a acc) []).map (·.2)

/-- The strands of a pipe of a core that may issue, by slot and then from the top of the stack down (R70). -/
def candidates (s : State) (core pipe : Nat) : List (Nat × Group × Entry) :=
  let gs := s.groups.filter fun g => g.2.core == core && g.2.slot % 4 == pipe && (teamOf s g.2).phase != .saved
  (sortBy (fun g => g.2.slot) gs).flatMap fun g => (readyStrands s g.1 g.2).map fun e => (g.1, g.2, e)

/-- The order in which a pipe tries its strands (R70): in a progress cycle the lowest thread first; else the strand of
the greedy run, then the lowest choice, in which one that has executed YIELD comes last. -/
def issueOrder (s : State) (core pipe : Nat) : List (Nat × Nat) :=
  let c := candidates s core pipe
  let l :=
    if (coreAt s core).cycle % 64 = 63 then sortBy (fun x => lowestThread s x.2.1 (strandLanes x.2.1 x.2.2)) c
    else
      let p := tgetD (coreAt s core).pipes pipe {}
      let again (x : Nat × Group × Entry) : Bool := x.1 == p.gid && x.2.2.id == p.entry && 0 < p.run && p.run < 256
      let rest := c.filter fun x => !again x
      c.filter again ++ rest.filter (fun x => !x.2.2.yielded) ++ rest.filter fun x => x.2.2.yielded
  l.map fun x => (x.1, x.2.2.id)

/-! ### After an instruction -/

/-- The work is a YIELD. -/
def isYield (w : Work) : Bool :=
  match w with
  | .run .yield _ => true
  | _ => false

/-- The pipe's greedy run and the YIELDs of its other strands after a strand has issued (R70). -/
def notePipe (core pipe gid entry : Nat) (yields : Bool) (s : State) : State :=
  let p := tgetD (coreAt s core).pipes pipe {}
  let run := if p.gid = gid && p.entry = entry && p.run < 256 then p.run + 1 else 1
  let clear (x : Nat) (e : Entry) : Entry := if x = gid && e.id = entry then e else { e with yielded := false }
  let fix (x : Nat) (g : Group) : Group :=
    { g with stack := g.stack.map (clear x),
             handler := g.handler.map fun h => { h with strand := clear x h.strand } }
  let s : State := { s with groups := s.groups.map fun g =>
    if g.2.core == core && g.2.slot % 4 == pipe then (g.1, fix g.1 g.2) else g }
  modCore s core fun c => { c with pipes := tset c.pipes pipe { gid := gid, entry := entry, run := if yields then 0 else run } }

/-- The strand that a check point let act has issued without acting: the check point closes (R412). -/
def noteGranted (gid entry : Nat) (s : State) : State :=
  match tget s.groups gid with
  | none => s
  | some g =>
    if (teamOf s g).granted == some (gid, entry) then
      modTeam s g fun x => { x with granted := none, force := some .settle }
    else s

/-- The single-step trap after the one instruction of a stepped strand (R357, R371). -/
def noteStep (before : Group) (old : Entry) (gid : Nat) (s : State) : State :=
  if hmode before || before.stepping != some old.id then s
  else
    match tget s.groups gid with
    | none => s
    | some g =>
      if hmode g then s
      else
        let s := { s with groups := tset s.groups gid { g with stepping := none } }
        match stepEntry g.stack old with
        | some e => takeTrap { s with cur := { gid := gid, entry := e.id } } { code := 0x32#8 }
        | none => s

/-- What follows an instruction that has issued. -/
def afterIssue (core pipe gid entry : Nat) (before : Group) (yields : Bool) (s : State) : State :=
  let old := strandOf before entry
  noteStep before old gid (noteExempt before gid entry (noteGranted gid entry
    (noteInjections before (notePipe core pipe gid entry yields s))))

/-- Try the strands of a pipe in order until one issues. -/
def tryIssue (core pipe : Nat) : List (Nat × Nat) → State → Host.Outcome State Fault Refusal
  | [], s => .next s
  | (gid, entry) :: rest, s =>
    let s := { s with cur := { gid := gid, entry := entry } }
    let s := setStrand s { curStrand s with runs := false }
    let w := boundary s
    match perform w with
    | .next s' =>
      if s'.progress = s.progress then tryIssue core pipe rest s'
      else .next (afterIssue core pipe gid entry (curGroup s) (isYield w) s')
    | o => o

/-- Cycles of a core pass (R9). -/
def passCycles (core n : Nat) (s : State) : State :=
  modCore s core fun c => { c with cycle := c.cycle + n, pipeDone := if n = 0 then c.pipeDone else 0 }

/-- The pipes of a core take one cycle in increasing number (R230, R350): a pipe that the present cycle has passed takes
the next. -/
def enterCycle (core pipe : Nat) (s : State) : State :=
  let s := if pipe < (coreAt s core).pipeDone then passCycles core 1 s else s
  modCore s core fun c => { c with pipeDone := pipe + 1 }

/-- Nothing has issued from a pipe in its cycle, which ends a greedy run (R70). -/
def endRun (core pipe : Nat) (s : State) : State :=
  modCore s core fun c => { c with pipes := tmod c.pipes pipe fun p => { p with run := 0 } }

/-! ### The turns -/

/-- A pipe's cycle: nothing issues while the boot is halted (R338). -/
def issueTurn (core pipe n : Nat) (s : State) : Host.Outcome State Fault Refusal :=
  if !s.boot.powered then .fault .noPower
  else if s.boot.stage = 4 then .next (passCycles core n s)
  else
    let s := enterCycle core pipe s
    match tryIssue core pipe (issueOrder s core pipe) s with
    | .next s' => .next (passCycles core n (if s'.progress = s.progress then endRun core pipe s' else s'))
    | o => o

/-- The step of an instruction constructor that no word holds: one of the device or of the outside world. -/
def isEvent (i : Instr) : Bool := (encode i).isNone

/-- A step without power: only power-up acts (R331). -/
def poweredOr (i : Instr) (s : State) : Bool :=
  match i with
  | .powerUp _ => true
  | _ => s.boot.powered

/-- A step of the device or of the outside world; an instruction is none. -/
def eventTurn (i : Instr) (s : State) : Host.Outcome State Fault Refusal :=
  if isEvent i && poweredOr i s then exec i s else .next s

/-- Time passes on the clock of a block (R9), which stands without power (R331). -/
def tickTurn (clock n : Nat) (s : State) : State :=
  if s.boot.powered then { s with clocks := tset s.clocks clock (clockAt s clock + n) } else s

/-- The turn that comes: the next of the agenda, else whatever the environment takes (log 1). -/
def takeTurn (s : State) : Turn × State :=
  match s.agenda with
  | t :: r => (t, { s with agenda := r })
  | [] => (Config.turn s.turnNo, { s with turnNo := s.turnNo + 1 })

/-- The access of one lane of an outstanding instruction, or of a coach in its anchor's store, is performed (R109, R244). -/
def laneTurn (id k : Nat) (s : State) : State :=
  match tget s.outs id with
  | none => s
  | some o =>
    let there : Bool := match o.coach with
      | some c => c.phase == .stored && laneStatus s o (o.lanes.getD k {}) == 0
      | none => true
    match if there then lanePerform s id k { o with sent := o.sent || o.coach.isSome } else none with
    | some s' => progressed s'
    | none => s

/-- A turn taken. -/
def runTurn (t : Turn) (s : State) : Host.Outcome State Fault Refusal :=
  match t with
  | .issue core pipe n => issueTurn core pipe n s
  | .event i => eventTurn i s
  | .firmware write addr v => .next (if s.boot.powered then firmwareAccess write addr v s else s)
  | .lane id k => .next (if s.boot.powered then laneTurn id k s else s)
  | .forward port src dev vc n => .next (if s.boot.powered then forwardTurn port src dev vc n s else s)
  | .upset st i j k c => .next (if s.boot.powered then upsetTurn st i j k c s else s)
  | .tick clock n => .next (tickTurn clock n s)

end Sys2Proof.Machine
end

