-- ==== Sys2Proof/Machine/Step.lean ====
section
/-!
DEFINITION. One step of the device: the turn that comes, taken.
-/

namespace Sys2Proof.Machine

/-- One step. -/
def step (s : State) : Host.Outcome State Fault Refusal :=
  let t := takeTurn s
  runTurn t.1 t.2

/-- The launch record of a word placed to be run: every register declared, width 16, no trap handler (R47). -/
def State.fetchRecord : BitVec 1024 :=
  BitVec.ofNat 1024 (16 * 2 ^ 160 + 2 * 2 ^ 176 + 31 * 2 ^ 192 + 7 * 2 ^ 200 + 1 * 2 ^ 128)

/-- The group of a word placed to be run: slot 0 of core 0, 16 lanes, one strand at address 0. -/
def State.fetchGroup (t : Nat) : Group :=
  { owner := .team t, laneNo := List.range 16, stack := [{ mask := 0xFFFF#64 }] }

/-- An instruction stored where step fetches next: at address 0 of DRAM, mapped at virtual address 0 and executable, with
a team of one group in slot 0 of core 0 whose turn comes next. -/
def State.withFetchWord (s : State) (nbits w : Nat) : State :=
  let l := s.nextId
  let t := s.nextId + 1
  let gid := s.nextId + 2
  let page : TlbEntry := { ctx := 0, vbase := 0, size := 4096, pbase := 0, x := true, w := true, mtype := 0 }
  let core : Core := { cycle := (coreAt s 0).cycle, tlb := [page] }
  let bytes := wordBytes (BitVec.ofNat 64 (w % 2 ^ nbits))
  { s with
    mem := mwrite s.mem 0 bytes
    poison := sdel1 s.poison 0
    cores := tset s.cores 0 core
    cicache := terase s.cicache 0
    groups := tset (s.groups.filter fun g => g.2.core != 0) gid (State.fetchGroup t)
    teams := tset s.teams t { launch := l, cores := [0] }
    launches := tset s.launches l { queue := 0, record := State.fetchRecord, next := 1 }
    injections := s.injections.filter fun i => i.2.core != 0
    boot := { s.boot with powered := true, stage := 3 }
    agenda := [.issue 0 0 1]
    nextId := s.nextId + 3 }

end Sys2Proof.Machine
end

