-- ==== Sys2Proof/Safety.lean ====
section
/-!
DEFINITION. What counts as a safe run, and the words that the statements are written in: what must hold for an
instruction to complete, what it leaves alone, and, family by family, the values that the rules of the spec give.

The values here are spelled from the rules, not from the meanings.
-/

namespace Sys2Proof.Machine

/-- A step that does not stop the machine. -/
def stepsOn (s : State) : Prop := ∃ t, step s = .next t

/-! ### What must hold for an instruction to complete -/

/-- The strand of the cursor exists. -/
def Standing (s : State) : Prop :=
  hmode (curGroup s) = true ∨ (findEntry (curGroup s).stack s.cur.entry).isSome = true

/-- The group is of no redundant team, of no team launched with CHK = 1, and no trap is recorded for it: what it does
happens as it issues (R411, R417). -/
def Alone (s : State) : Prop :=
  (teamOf s (curGroup s)).mate = none ∧ (teamOf s (curGroup s)).trailing = false ∧ chkOf s (curGroup s) = false

/-- Scalar sources and destinations lie below the declaration and are full (R41, R164). -/
def ScalarsReady (s : State) (sources dests : List Nat) : Prop :=
  ∀ r ∈ sources ++ dests, r < declS s (curGroup s) ∧ fullS (curGroup s) r = true

/-- Vector sources and destinations lie below the declaration and are full (R41, R164). -/
def VectorsReady (s : State) (sources dests : List Nat) : Prop :=
  ∀ r ∈ sources ++ dests, r < declV s (curGroup s) ∧ fullV (curGroup s) r = true

/-- No landing record of an escorted access is due at one of the vector registers (R443). -/
def NoneDue (s : State) (regs : List Nat) : Prop :=
  ∀ f ∈ (curGroup s).folds, ∀ r ∈ f.2.regs, r ∉ regs

/-! ### What an instruction leaves alone -/

/-- A group without its stack, how much of it is spilled (R22), and the strand of its handler, which the program counters
stand in. -/
def bareGroup (g : Group) : Group :=
  { g with stack := [], spilled := 0, handler := g.handler.map fun h => { h with strand := {} } }

/-- A bare group without its scalar registers. -/
def noScalars (g : Group) : Group :=
  { bareGroup g with
    sregs := [], spoison := [], handler := (bareGroup g).handler.map fun h => { h with regs := [] } }

/-- A bare group without its vector registers. -/
def noVectors (g : Group) : Group := { bareGroup g with vregs := [], vpoison := [] }

/-- A team without the record that its leading copy keeps for it (R417). -/
def noRecord (t : Team) : Team := { t with values := [] }

/-- The state without groups and teams, and without the model's own marks: of progress, and of the stores that an engine
at work may or may not see (R128). -/
def aside (s : State) : State := { s with groups := [], teams := [], progress := 0, obtained := none, notes := [] }

/-- Nothing outside the issuing group changes: every other group, every team but for the record of a redundant copy,
memory, cores, and the rest of the device. -/
def Elsewhere (s t : State) : Prop :=
  (∀ k, k ≠ s.cur.gid → tget t.groups k = tget s.groups k) ∧
  (∀ k, (tget t.teams k).map noRecord = (tget s.teams k).map noRecord) ∧
  ((teamOf s (curGroup s)).mate = none → t.teams = s.teams) ∧
  aside t = aside s

/-- The issuing strand goes on at a PC with a block, unless it merges there (R21, R150, R169). -/
def GoesTo (s t : State) (pc : Word) (b : Option Block) : Prop :=
  Standing s → (hmode (curGroup s) = true ∨ (curStrand s).reconv ≠ some pc) →
    (curStrand t).pc = pc ∧ (curStrand t).block = b ∧ (curStrand t).mask = (curStrand s).mask ∧
    (curStrand t).reconv = (curStrand s).reconv

/-- The issuing strand goes on at next_pc, having consumed a covered word (R150, R169). -/
def GoesOn (s t : State) : Prop := GoesTo s t (nextPc (curStrand s)) (blockNext (curStrand s).block)

/-- No scalar register but those listed changes, neither a handler register nor, in handler mode, a register of the
group's own (R358); nor does anything else of the group but its program counters. -/
def OnlyScalars (s t : State) (ds : List Nat) : Prop :=
  (∀ r, r < 128 → r ∉ ds → getS (curGroup t) r = getS (curGroup s) r ∧
    poisonedS (curGroup t) r = poisonedS (curGroup s) r) ∧
  (∀ r, r < 8 → hmode (curGroup s) = true → tgetD (curGroup t).sregs r 0#64 = tgetD (curGroup s).sregs r 0#64 ∧
    (curGroup t).spoison.contains r = (curGroup s).spoison.contains r) ∧
  noScalars (curGroup t) = noScalars (curGroup s)

/-- No lane of a vector register changes but the listed lanes of the listed registers, nor anything else of the group
but its program counters. -/
def OnlyVectors (s t : State) (ds lanes : List Nat) : Prop :=
  (∀ r l, l < 64 → (r ∉ ds ∨ l ∉ lanes) → getV (curGroup t) r l = getV (curGroup s) r l ∧
    poisonedV (curGroup t) r l = poisonedV (curGroup s) r l) ∧
  noVectors (curGroup t) = noVectors (curGroup s)

/-- Only the listed predicates change (R167). -/
def OnlyPredicates (s t : State) (ds : List Nat) : Prop :=
  (∀ p, p ∉ ds → getP (curGroup t) p = getP (curGroup s) p) ∧
  { bareGroup (curGroup t) with preds := [] } = { bareGroup (curGroup s) with preds := [] }

/-- Only the listed uniform predicate changes (R178). -/
def OnlyUniform (s t : State) (qd : Nat) : Prop :=
  (∀ q, q < 8 → q ≠ qd → getQ (curGroup t) q = getQ (curGroup s) q) ∧
  { bareGroup (curGroup t) with unis := 0#8 } = { bareGroup (curGroup s) with unis := 0#8 }

/-- Nothing of the group changes but its program counters. -/
def OnlyMoves (s t : State) : Prop := bareGroup (curGroup t) = bareGroup (curGroup s)

/-! ### Scalar results -/

/-- What the rules give for a scalar instruction: the registers it reads, the one it writes, and the value. -/
structure ScalarRule where
  sources : List Nat
  dest : Nat
  value : Group → Entry → Word

/-- A rule of two scalar operands, register form. -/
def ruleRR (o : SRegs) (f : Word → Word → Word) : Option ScalarRule :=
  some { sources := [o.sa.toNat, o.sb.toNat], dest := o.sd.toNat,
         value := fun g _ => f (getS g o.sa.toNat) (getS g o.sb.toNat) }

/-- The same with imm32, sign-extended, as the second operand (R158). -/
def ruleRI (o : SImm) (f : Word → Word → Word) : Option ScalarRule :=
  some { sources := [o.sa.toNat], dest := o.sd.toNat,
         value := fun g _ => f (getS g o.sa.toNat) (o.imm.signExtend 64) }

/-- Bits [127:64] of the signed product (R179). -/
def ruleMulh (a b : Word) : Word := (a.signExtend 128 * b.signExtend 128).extractLsb' 64 64
/-- Quotients and remainders; by zero a quotient is all ones and a remainder the dividend (R180). -/
def ruleDiv (a b : Word) : Word := if b = 0#64 then BitVec.allOnes 64 else a.sdiv b
/-- Unsigned quotient (R180). -/
def ruleDivu (a b : Word) : Word := if b = 0#64 then BitVec.allOnes 64 else BitVec.ofNat 64 (a.toNat / b.toNat)
/-- Signed remainder (R180). -/
def ruleRem (a b : Word) : Word := if b = 0#64 then a else a.srem b
/-- Unsigned remainder (R180). -/
def ruleRemu (a b : Word) : Word := if b = 0#64 then a else BitVec.ofNat 64 (a.toNat % b.toNat)
/-- A shift left by an unsigned count (R179, R209). -/
def ruleShl {n : Nat} (a b : BitVec n) : BitVec n := if b.toNat < n then a <<< b.toNat else 0#n
/-- A shift right with zero fill. -/
def ruleShr {n : Nat} (a b : BitVec n) : BitVec n := if b.toNat < n then a >>> b.toNat else 0#n
/-- A shift right with copies of the sign. -/
def ruleSra {n : Nat} (a b : BitVec n) : BitVec n :=
  if b.toNat < n then a.sshiftRight b.toNat else if a.msb then BitVec.allOnes n else 0#n
/-- The operand that a comparison of integers picks (R179). -/
def ruleMin (f : Word → Int) (a b : Word) : Word := if f a ≤ f b then a else b
/-- The greater operand. -/
def ruleMax (f : Word → Int) (a b : Word) : Word := if f a ≤ f b then b else a

/-- n bits of x from bit lo, bits above bit 63 reading 0, sign- or zero-extended (R185). -/
def ruleField (x : Word) (lo n : Nat) (signed : Bool) : Word :=
  if signed then (x.extractLsb' lo n).signExtend 64 else (x.extractLsb' lo n).setWidth 64

/-- sd with its n bits from lo replaced by the low bits of x; bits above bit 63 are not written (R185). -/
def ruleInsert (d x : Word) (lo n : Nat) : Word :=
  (BitVec.ofBoolListLE ((List.range 64).map fun k =>
    if lo ≤ k ∧ k < lo + n then x.getLsbD (k - lo) else d.getLsbD k)).setWidth 64

/-- The number of leading zeros (R183). -/
def ruleClz (x : Word) : Nat := ((List.range 64).takeWhile fun k => !x.getMsbD k).length

/-- The number of set bits (R183). -/
def rulePopc (x : Word) : Nat := (List.range 64).countP fun k => x.getLsbD k

/-- What the rules give for each scalar instruction (R179 to R185, R189, R190). -/
def scalarRule (i : Instr) : Option ScalarRule :=
  match i with
  | .sadd o => ruleRR o fun a b => a + b
  | .saddImm o => ruleRI o fun a b => a + b
  | .ssub o => ruleRR o fun a b => a - b
  | .ssubImm o => ruleRI o fun a b => a - b
  | .smul o => ruleRR o fun a b => a * b
  | .smulImm o => ruleRI o fun a b => a * b
  | .smulh o => ruleRR o ruleMulh
  | .smulhImm o => ruleRI o ruleMulh
  | .sdiv o => ruleRR o ruleDiv
  | .sdivImm o => ruleRI o ruleDiv
  | .sdivu o => ruleRR o ruleDivu
  | .sdivuImm o => ruleRI o ruleDivu
  | .srem o => ruleRR o ruleRem
  | .sremImm o => ruleRI o ruleRem
  | .sremu o => ruleRR o ruleRemu
  | .sremuImm o => ruleRI o ruleRemu
  | .sand o => ruleRR o fun a b => a &&& b
  | .sandImm o => ruleRI o fun a b => a &&& b
  | .sor o => ruleRR o fun a b => a ||| b
  | .sorImm o => ruleRI o fun a b => a ||| b
  | .sxor o => ruleRR o fun a b => a ^^^ b
  | .sxorImm o => ruleRI o fun a b => a ^^^ b
  | .sshl o => ruleRR o ruleShl
  | .sshlImm o => ruleRI o ruleShl
  | .sshr o => ruleRR o ruleShr
  | .sshrImm o => ruleRI o ruleShr
  | .ssra o => ruleRR o ruleSra
  | .ssraImm o => ruleRI o ruleSra
  | .smin o => ruleRR o (ruleMin BitVec.toInt)
  | .sminImm o => ruleRI o (ruleMin BitVec.toInt)
  | .sminu o => ruleRR o (ruleMin fun x => x.toNat)
  | .sminuImm o => ruleRI o (ruleMin fun x => x.toNat)
  | .smax o => ruleRR o (ruleMax BitVec.toInt)
  | .smaxImm o => ruleRI o (ruleMax BitVec.toInt)
  | .smaxu o => ruleRR o (ruleMax fun x => x.toNat)
  | .smaxuImm o => ruleRI o (ruleMax fun x => x.toNat)
  | .smov o => some { sources := [o.sa.toNat], dest := o.sd.toNat, value := fun g _ => getS g o.sa.toNat }
  | .smovi o => some { sources := [], dest := o.sd.toNat, value := fun _ _ => o.imm.signExtend 64 }
  | .smovh o => some { sources := [o.sd.toNat], dest := o.sd.toNat
                       value := fun g _ => o.imm ++ (getS g o.sd.toNat).extractLsb' 0 32 }
  | .slea o => some { sources := [o.sa.toNat, o.sb.toNat], dest := o.sd.toNat
                      value := fun g _ => getS g o.sa.toNat + BitVec.ofNat 64 ((getS g o.sb.toNat).toNat * 2 ^ o.sh.toNat) }
  | .sleaImm o => some { sources := [o.sa.toNat], dest := o.sd.toNat
                         value := fun g _ => getS g o.sa.toNat + BitVec.ofInt 64 (o.disp.toInt * 2 ^ o.sh.toNat) }
  | .sclz o => some { sources := [o.sa.toNat], dest := o.sd.toNat
                      value := fun g _ => BitVec.ofNat 64 (ruleClz (getS g o.sa.toNat)) }
  | .spopc o => some { sources := [o.sa.toNat], dest := o.sd.toNat
                       value := fun g _ => BitVec.ofNat 64 (rulePopc (getS g o.sa.toNat)) }
  | .ssel o => some { sources := [o.sa.toNat, o.sb.toNat], dest := o.sd.toNat
                      value := fun g _ => if getQ g o.q.toNat then getS g o.sa.toNat else getS g o.sb.toNat }
  | .sselImm o => some { sources := [o.sa.toNat], dest := o.sd.toNat
                         value := fun g _ => if getQ g o.q.toNat then getS g o.sa.toNat else o.imm.signExtend 64 }
  | .sext o => some { sources := [o.sa.toNat], dest := o.sd.toNat
                      value := fun g _ => ruleField (getS g o.sa.toNat) 0 (o.n1.toNat + 1) (o.u == 0#1) }
  | .sbfx o => some { sources := [o.sa.toNat], dest := o.sd.toNat
                      value := fun g _ => ruleField (getS g o.sa.toNat) o.lo.toNat (o.n1.toNat + 1) (o.s == 1#1) }
  | .sbfi o => some { sources := [o.sa.toNat, o.sd.toNat], dest := o.sd.toNat
                      value := fun g _ => ruleInsert (getS g o.sd.toNat) (getS g o.sa.toNat) o.lo.toNat (o.n1.toNat + 1) }
  | .pcount o => some { sources := [], dest := o.sd.toNat
                        value := fun g e => BitVec.ofNat 64
                          ((List.range g.width).countP fun l => e.mask.getLsbD l && (getP g o.pa.toNat).getLsbD l) }
  | .pmovToScalar o => some { sources := [], dest := o.sd.toNat
                              value := fun g e => getP g o.pa.toNat &&& e.mask &&& widthMask g.width }
  | _ => none

/-! ### Uniform predicates -/

/-- What the rules give for an instruction that writes a uniform predicate. -/
structure UniformRule where
  sources : List Nat
  dest : Nat
  value : Group → Entry → Bool

/-- The relations of SCMP (R186). -/
def ruleScmp (rel : Nat) (a b : Word) : Option Bool :=
  match rel with
  | 0 => some (decide (a = b))
  | 1 => some (decide (a ≠ b))
  | 2 => some (decide (a.toInt < b.toInt))
  | 3 => some (decide (a.toInt ≤ b.toInt))
  | 4 => some (decide (a.toInt > b.toInt))
  | 5 => some (decide (a.toInt ≥ b.toInt))
  | 6 => some (decide (a.toNat < b.toNat))
  | 7 => some (decide (a.toNat ≤ b.toNat))
  | 8 => some (decide (a.toNat > b.toNat))
  | 9 => some (decide (a.toNat ≥ b.toNat))
  | 10 => some (decide (a &&& b ≠ 0#64))
  | 11 => some (decide (a &&& b = 0#64))
  | _ => none

/-- The lanes of the strand's active mask. -/
def activeLanes (g : Group) (e : Entry) : List Nat := (List.range g.width).filter fun l => e.mask.getLsbD l

/-- What the rules give for each instruction that writes a uniform predicate (R186 to R188). -/
def uniformRule (i : Instr) : Option UniformRule :=
  match i with
  | .scmp o => some { sources := [o.sa.toNat, o.sb.toNat], dest := o.qd.toNat
                      value := fun g _ => (ruleScmp o.rel.toNat (getS g o.sa.toNat) (getS g o.sb.toNat)).getD false }
  | .scmpImm o => some { sources := [o.sa.toNat], dest := o.qd.toNat
                         value := fun g _ =>
                           (ruleScmp o.rel.toNat (getS g o.sa.toNat) (o.imm.signExtend 64)).getD false }
  | .qand o => some { sources := [], dest := o.qd.toNat, value := fun g _ => getQ g o.qa.toNat && getQ g o.qb.toNat }
  | .qor o => some { sources := [], dest := o.qd.toNat, value := fun g _ => getQ g o.qa.toNat || getQ g o.qb.toNat }
  | .qxor o => some { sources := [], dest := o.qd.toNat
                      value := fun g _ => Bool.xor (getQ g o.qa.toNat) (getQ g o.qb.toNat) }
  | .vote o => some { sources := [], dest := o.qd.toNat
                      value := fun g e =>
                        let l := activeLanes g e
                        let p := getP g o.pa.toNat
                        match o.mode.toNat with
                        | 0 => l.any fun k => p.getLsbD k
                        | 1 => l.all fun k => p.getLsbD k
                        | _ => (l.all fun k => p.getLsbD k) || (l.all fun k => !p.getLsbD k) }
  | _ => none

/-! ### Moving the program counter -/

/-- What the rules give for an instruction that moves the program counter of its strand as a whole: the registers it
reads, the register it writes, where it goes, the block it stands in, and the return stack. -/
structure MoveRule where
  sources : List Nat := []
  link : Option (Nat × Word) := none
  pc : Word
  block : Option Block
  returns : List Word

/-- PC + 8 × sext(offset) (R191). -/
def ruleTarget {n : Nat} (e : Entry) (off : BitVec n) : Word := e.pc + BitVec.ofInt 64 (8 * off.toInt)

/-- The return stack after a push: at most eight entries, the oldest dropped (R195). -/
def rulePush (l : List Word) (x : Word) : List Word := x :: l.take 7

/-- The return stack after a return: the newest entry is popped where it is the target, else the stack is cleared
(R195). -/
def rulePop (l : List Word) (x : Word) : List Word := if l.head? = some x then l.tail else []

/-- What the rules give for each such instruction; `target` is where a register target points. -/
def moveRule (i : Instr) (g : Group) (e : Entry) : Option MoveRule :=
  let on : Option Block := blockNext e.block
  match i with
  | .brq o => some (if Bool.xor (getQ g o.q.toNat) (o.neg == 1#1)
      then { pc := ruleTarget e o.off, block := none, returns := g.rstack }
      else { pc := nextPc e, block := on, returns := g.rstack })
  | .jmp o => some { pc := ruleTarget e o.off, block := none, returns := g.rstack }
  | .jmpReg o => some { sources := [o.sa.toNat], pc := getS g o.sa.toNat, block := none, returns := g.rstack }
  | .call o => some { link := some (o.sl.toNat, nextPc e), pc := ruleTarget e o.off, block := none
                      returns := rulePush g.rstack (nextPc e) }
  | .callReg o => some { sources := [o.sa.toNat], link := some (o.sl.toNat, nextPc e), pc := getS g o.sa.toNat
                         block := none, returns := rulePush g.rstack (nextPc e) }
  | .ret o => some { sources := [o.sl.toNat], pc := getS g o.sl.toNat, block := none
                     returns := rulePop g.rstack (getS g o.sl.toNat) }
  | .loop o =>
    let n := getS g o.sl.toNat - 1#64
    some (if n = 0#64
      then { sources := [o.sl.toNat], link := some (o.sl.toNat, n), pc := nextPc e, block := on, returns := g.rstack }
      else { sources := [o.sl.toNat], link := some (o.sl.toNat, n), pc := ruleTarget e o.off, block := none
             returns := g.rstack })
  | .pblk o => some { pc := nextPc e, returns := g.rstack
                      block := some { sample := getQ g o.q.toNat, left := o.cnt.toNat + 1, pattern := o.pat } }
  | .nop | .yield => some { pc := nextPc e, block := on, returns := g.rstack }
  | _ => none

/-- The register target of a jump, call or return (R193). -/
def registerTarget (i : Instr) : Option (Nat × BitVec 1) :=
  match i with
  | .jmpReg o => some (o.sa.toNat, o.fa)
  | .callReg o => some (o.sa.toNat, o.fa)
  | .ret o => some (o.sl.toNat, o.fl)
  | _ => none

/-! ### Dividing a strand -/

/-- A mask with the lanes for which a condition holds. -/
def maskWhere (p : Nat → Bool) : Word := (BitVec.ofBoolListLE ((List.range 64).map p)).setWidth 64

/-- The lanes of the strand's active mask whose guard is true (R167). -/
def guardedLanes (g : Group) (e : Entry) (gn : BitVec 1) (gp : BitVec 3) : List Nat :=
  (activeLanes g e).filter fun l => Bool.xor ((getP g gp.toNat).getLsbD l) (gn == 1#1)

/-- The distinct destinations of some lanes, in the order of their lowest lanes, each with the mask of its lanes
(R200). -/
def ruleDests (lanes : List Nat) (f : Nat → Word) : List (Word × Word) :=
  (lanes.map f).eraseDups.map fun d => (d, maskWhere fun l => lanes.contains l && f l == d)

/-- Every stack entry's identity lies below the next one to be given, every group's key and every uncounted arrival's
(R45) below the next identity: what is created is new. -/
def freshGroup (next : Nat) (g : Nat × Group) : Prop :=
  g.1 < next ∧ 0 < g.2.nextEntry ∧ ∀ e ∈ g.2.stack, e.id < g.2.nextEntry ∧ ∀ x ∈ e.phases, x.1 < 24 * next

/-- The same of the whole state, with the groups that checkpoints hold (R413); groups stand at rising keys. -/
def Fresh (s : State) : Prop :=
  s.cur.gid < s.nextId ∧ s.groups.Pairwise (fun a b => a.1 < b.1) ∧ (∀ g ∈ s.groups, freshGroup s.nextId g) ∧
  (∀ t ∈ s.teams, ∀ sn, t.2.snap = some sn → ∀ g ∈ sn.groups, freshGroup s.nextId g)

/-- After a division (R19, R200) the strand is a parent that waits to merge at `rc`, and there is one child for each
destination that is not itself at `rc`, with the destination's PC and lanes. -/
def Divided (s t : State) (dests : List (Word × Word)) (rc : Option Word) : Prop :=
  let g := curGroup s
  let h := curGroup t
  ((∃ d ∈ dests, rc ≠ some d.1) →
    ∃ p, findEntry h.stack s.cur.entry = some p ∧ p.mode = .parent ∧ p.reconv = rc ∧ p.mask = (curStrand s).mask) ∧
  (∀ k d, dests[k]? = some d → rc ≠ some d.1 →
    ∃ c, findEntry h.stack (g.nextEntry + k) = some c ∧ c.pc = d.1 ∧ c.mask = d.2 ∧ c.reconv = rc ∧
      c.parent = some s.cur.entry ∧ (c.mode = .live ∨ c.mode = .pending)) ∧
  liveCount h.stack ≤ max 4 (liveCount g.stack)

/-- Where a strand's lanes go: to the one destination, or to several (R19, R200). -/
def GoesToAll (s t : State) (dests : List (Word × Word)) (rc : Option Word) : Prop :=
  (∀ d, dests = [d] → GoesTo s t d.1 none) ∧ (2 ≤ dests.length → Divided s t dests rc)

/-- The state after the spill that a division among so many destinations needs: none where 32 entries or fewer stay resident,
and none for a strand that does not divide (R22). -/
def spilledFor (s : State) (n : Nat) : State := if n < 2 then s else spill n s

/-- No strand waits on a rendezvous point. -/
def NoneWaits (s : State) : Prop := ∀ g ∈ s.groups, ∀ e ∈ g.2.stack, e.waitsOn = none

/-- The address that a code pointer denotes in an instruction at a PC (R198). -/
def rulePointer (e : Entry) (c : Lane) : Word :=
  BitVec.ofNat 64 (e.pc.toNat / 2 ^ 35 * 2 ^ 35 + 8 * c.toNat)

/-- Where the lanes of a vector jump, call or return go: active lanes to the address of their pointer, the others of
the strand to next_pc (R199). -/
def pointerDests (g : Group) (e : Entry) (gn : BitVec 1) (gp : BitVec 3) (va : Nat) : List (Word × Word) :=
  ruleDests (activeLanes g e) fun l =>
    if (guardedLanes g e gn gp).contains l then rulePointer e (getV g va l) else nextPc e

/-! ### Vector results -/

/-- What the rules give for a vector instruction: its guard, the registers it reads, the run of registers it writes, and
for register k of the run and an active lane the value and whether it is poisoned; `lanes` are the active lanes. -/
structure VectorRule where
  gn : BitVec 1
  gp : BitVec 3
  scalars : List Nat := []
  vectors : List Nat := []
  dest : Nat
  count : Nat := 1
  value : (g : Group) → (lanes : List Nat) → (k l : Nat) → Lane
  poison : (g : Group) → (lanes : List Nat) → (l : Nat) → Bool

/-- A lane is poisoned by a poisoned scalar, or by that lane of a vector source (R407). -/
def anyPoison (scalars vectors : List Nat) (g : Group) (l : Nat) : Bool :=
  vectors.any (fun r => poisonedV g r l) || scalars.any (poisonedS g)

/-- The second source in a lane: a vector's lane, or bits [31:0] of a scalar (R207). -/
def ruleB (g : Group) (vbs : BitVec 1) (vb : BitVec 8) (l : Nat) : Lane :=
  if vbs = 1#1 then (getS g vb.toNat).extractLsb' 0 32 else getV g vb.toNat l

/-- The scalar that a second source names. -/
def bScalars (vbs : BitVec 1) (vb : BitVec 8) : List Nat := if vbs = 1#1 then [vb.toNat] else []
/-- The vector that a second source names. -/
def bVectors (vbs : BitVec 1) (vb : BitVec 8) : List Nat := if vbs = 1#1 then [] else [vb.toNat]

/-- A lane-wise rule of one source. -/
def ruleV1 (gn : BitVec 1) (gp : BitVec 3) (vd va : BitVec 8) (f : Lane → Lane) : Option VectorRule :=
  some { gn := gn, gp := gp, vectors := [va.toNat], dest := vd.toNat
         value := fun g _ _ l => f (getV g va.toNat l), poison := fun g _ l => anyPoison [] [va.toNat] g l }

/-- A lane-wise rule of two sources. -/
def ruleV2 (gn : BitVec 1) (gp : BitVec 3) (vd va vb : BitVec 8) (vbs : BitVec 1) (f : Lane → Lane → Lane) :
    Option VectorRule :=
  some { gn := gn, gp := gp, scalars := bScalars vbs vb, vectors := va.toNat :: bVectors vbs vb, dest := vd.toNat
         value := fun g _ _ l => f (getV g va.toNat l) (ruleB g vbs vb l)
         poison := fun g _ l => anyPoison (bScalars vbs vb) (va.toNat :: bVectors vbs vb) g l }

/-- A lane-wise rule of three sources. -/
def ruleV3 (gn : BitVec 1) (gp : BitVec 3) (vd va vb vc : BitVec 8) (vbs : BitVec 1)
    (f : Lane → Lane → Lane → Lane) : Option VectorRule :=
  some { gn := gn, gp := gp, scalars := bScalars vbs vb, vectors := va.toNat :: vc.toNat :: bVectors vbs vb
         dest := vd.toNat
         value := fun g _ _ l => f (getV g va.toNat l) (ruleB g vbs vb l) (getV g vc.toNat l)
         poison := fun g _ l => anyPoison (bScalars vbs vb) (va.toNat :: vc.toNat :: bVectors vbs vb) g l }

/-- A lane as a number, signed, or unsigned with U. -/
def laneNum (u : BitVec 1) (a : Lane) : Int := if u = 1#1 then a.toNat else a.toInt

/-- A number clamped to INT32, or to UINT32 with U (R210). -/
def ruleSat (u : BitVec 1) (y : Int) : Lane :=
  if u = 1#1 then BitVec.ofInt 32 (max 0 (min (2 ^ 32 - 1) y)) else BitVec.ofInt 32 (max (-(2 ^ 31)) (min (2 ^ 31 - 1) y))

/-- Bits [63:32] of a product (R208). -/
def ruleVmulh (u : BitVec 1) (a b : Lane) : Lane :=
  if u = 1#1 then (a.setWidth 64 * b.setWidth 64).extractLsb' 32 32
  else (a.signExtend 64 * b.signExtend 64).extractLsb' 32 32

/-- The operand with the smaller number. -/
def ruleVmin (u : BitVec 1) (a b : Lane) : Lane := if laneNum u a ≤ laneNum u b then a else b
/-- The operand with the larger number. -/
def ruleVmax (u : BitVec 1) (a b : Lane) : Lane := if laneNum u a ≤ laneNum u b then b else a

/-- The number of leading zeros of a lane (R212). -/
def ruleVclz (x : Lane) : Nat := ((List.range 32).takeWhile fun k => !x.getMsbD k).length

/-- Bits lo to lo + n - 1 of a lane, bits above bit 31 reading 0 (R212). -/
def ruleVbfx (u : BitVec 1) (x : Lane) (lo n : Nat) : Lane :=
  if u = 1#1 then (x.extractLsb' lo n).setWidth 32 else (x.extractLsb' lo n).signExtend 32

/-- A lane with its n bits from lo replaced; bits above bit 31 are not written (R212). -/
def ruleVbfi (d x : Lane) (lo n : Nat) : Lane :=
  (BitVec.ofBoolListLE ((List.range 32).map fun k =>
    if lo ≤ k ∧ k < lo + n then x.getLsbD (k - lo) else d.getLsbD k)).setWidth 32

/-- Byte t of the 8-byte value b × 2^32 + a (R212). -/
def ruleByte (a b : Lane) (t : Nat) : Byte := (b ++ a).extractLsb' (8 * t) 8

/-- A byte of VPRMT with register control (R212). -/
def rulePermute (a b c : Lane) (k : Nat) : Byte :=
  let t : Byte := c.extractLsb' (8 * k) 8
  if t.getLsbD 3 then 0#8
  else if t.getLsbD 4 then ~~~(ruleByte a b (t.extractLsb' 0 3).toNat) else ruleByte a b (t.extractLsb' 0 3).toNat

/-- Four bytes, the last at the lowest place. -/
def fourBytes (f : Nat → Byte) : Lane := f 3 ++ f 2 ++ f 1 ++ f 0

/-- What the rules give for each lane-wise integer instruction (R208 to R212). -/
def integerRule (i : Instr) : Option VectorRule :=
  let two (o : VTwo) (f : Lane → Lane → Lane) := ruleV2 o.gn o.gp o.vd o.va o.vb o.vbs f
  let twoU (o : VTwoU) (f : BitVec 1 → Lane → Lane → Lane) := ruleV2 o.gn o.gp o.vd o.va o.vb o.vbs (f o.u)
  let shift (o : VShift) (f : Lane → Lane → Lane) : Option VectorRule :=
    if o.imm = 1#1 then ruleV1 o.gn o.gp o.vd o.va (fun a => f a (o.cnt.setWidth 32))
    else ruleV2 o.gn o.gp o.vd o.va o.vb o.vbs f
  match i with
  | .vadd o => two o fun a b => a + b
  | .vsub o => two o fun a b => a - b
  | .vmul o => two o fun a b => a * b
  | .vmulh o => twoU o ruleVmulh
  | .vmad o => ruleV3 o.gn o.gp o.vd o.va o.vb o.vc o.vbs fun a b c => a * b + c
  | .vaddsat o => twoU o fun u a b => ruleSat u (laneNum u a + laneNum u b)
  | .vsubsat o => twoU o fun u a b => ruleSat u (laneNum u a - laneNum u b)
  | .vand o => two o fun a b => a &&& b
  | .vor o => two o fun a b => a ||| b
  | .vxor o => two o fun a b => a ^^^ b
  | .vshl o => shift o ruleShl
  | .vshr o => shift o ruleShr
  | .vsra o => shift o ruleSra
  | .vmin o => twoU o ruleVmin
  | .vmax o => twoU o ruleVmax
  | .vabsd o => twoU o fun u a b => BitVec.ofNat 32 (laneNum u a - laneNum u b).natAbs
  | .vaddmin o => ruleV3 o.gn o.gp o.vd o.va o.vb o.vc o.vbs fun a b c =>
      ruleVmin o.u (ruleSat o.u (laneNum o.u a + laneNum o.u b)) c
  | .vaddmax o => ruleV3 o.gn o.gp o.vd o.va o.vb o.vc o.vbs fun a b c =>
      ruleVmax o.u (ruleSat o.u (laneNum o.u a + laneNum o.u b)) c
  | .vsel o =>
    some { gn := o.gn, gp := o.gp, scalars := bScalars o.vbs o.vb, vectors := o.va.toNat :: bVectors o.vbs o.vb
           dest := o.vd.toNat
           value := fun g _ _ l => if Bool.xor ((getP g o.ps.toNat).getLsbD l) (o.neg == 1#1) then getV g o.va.toNat l
             else ruleB g o.vbs o.vb l
           poison := fun g _ l => anyPoison (bScalars o.vbs o.vb) (o.va.toNat :: bVectors o.vbs o.vb) g l }
  | .vmov o =>
    some { gn := o.gn, gp := o.gp, scalars := bScalars o.vbs o.vb, vectors := bVectors o.vbs o.vb, dest := o.vd.toNat
           value := fun g _ _ l => ruleB g o.vbs o.vb l
           poison := fun g _ l => anyPoison (bScalars o.vbs o.vb) (bVectors o.vbs o.vb) g l }
  | .vmovi o => some { gn := o.gn, gp := o.gp, dest := o.vd.toNat
                       value := fun _ _ _ _ => o.imm, poison := fun _ _ _ => false }
  | .vclz o => ruleV1 o.gn o.gp o.vd o.va fun a => BitVec.ofNat 32 (ruleVclz a)
  | .vpopc o => ruleV1 o.gn o.gp o.vd o.va fun a => BitVec.ofNat 32 ((List.range 32).countP fun k => a.getLsbD k)
  | .vbfx o => ruleV1 o.gn o.gp o.vd o.va fun a => ruleVbfx o.u a o.lo.toNat (o.n1.toNat + 1)
  | .vbfi o =>
    some { gn := o.gn, gp := o.gp, vectors := [o.va.toNat, o.vd.toNat], dest := o.vd.toNat
           value := fun g _ _ l => ruleVbfi (getV g o.vd.toNat l) (getV g o.va.toNat l) o.lo.toNat (o.n1.toNat + 1)
           poison := fun g _ l => anyPoison [] [o.va.toNat, o.vd.toNat] g l }
  | .vprmt o =>
    if o.i = 1#1 then ruleV2 o.gn o.gp o.vd o.va o.vb o.vbs fun a b =>
      fourBytes fun k => ruleByte a b (o.ctl.extractLsb' (3 * k) 3).toNat
    else ruleV3 o.gn o.gp o.vd o.va o.vb o.vc o.vbs fun a b c => fourBytes (rulePermute a b c)
  | .vidx o =>
    some { gn := o.gn, gp := o.gp, scalars := bScalars o.vbs o.vb, vectors := bVectors o.vbs o.vb, dest := o.vd.toNat
           value := fun g _ _ l => ruleB g o.vbs o.vb l + BitVec.ofInt 32 (l * o.step.toInt)
           poison := fun g _ l => anyPoison (bScalars o.vbs o.vb) (bVectors o.vbs o.vb) g l }
  | _ => none

/-- What the rules give for each floating-point instruction that writes a vector (R214 to R216), in the exact arithmetic
and the rounding of "Numbers to the last bit". -/
def floatRule (i : Instr) : Option VectorRule :=
  let two (o : FTwo) (f : FVal → FVal → FVal) :=
    ruleV2 o.gn o.gp o.vd o.va o.vb o.vbs fun a b => toF32 o.rm.toNat (o.sat == 1#1) (f (f32 a) (f32 b))
  match i with
  | .fadd o => two o (addExact o.rm.toNat)
  | .fsub o => two o fun a b => addExact o.rm.toNat a b.neg
  | .fmul o => two o mulExact
  | .ffma o => ruleV3 o.gn o.gp o.vd o.va o.vb o.vc o.vbs fun a b c =>
      toF32 o.rm.toNat (o.sat == 1#1) (addExact o.rm.toNat (mulExact (f32 a) (f32 b)) (f32 c))
  | .fmin o => ruleV2 o.gn o.gp o.vd o.va o.vb o.vbs fmin32
  | .fmax o => ruleV2 o.gn o.gp o.vd o.va o.vb o.vbs fmax32
  | .frcp o => ruleV1 o.gn o.gp o.vd o.va (frcp32 (Config.approx 0xA6))
  | .frsq o => ruleV1 o.gn o.gp o.vd o.va (frsq32 (Config.approx 0xA7))
  | .fsqrt o => ruleV1 o.gn o.gp o.vd o.va (fsqrt32 o.rm.toNat)
  | .fexp2 o => ruleV1 o.gn o.gp o.vd o.va (fexp32 (Config.approx 0xA9))
  | .flog2 o => ruleV1 o.gn o.gp o.vd o.va (flog32 (Config.approx 0xAA))
  | .fsin o => ruleV1 o.gn o.gp o.vd o.va (ftrig32 false (Config.approx 0xAB))
  | .fcos o => ruleV1 o.gn o.gp o.vd o.va (ftrig32 true (Config.approx 0xAC))
  | _ => none

/-- One conversion: the value of the source code, scaled where a scale byte is given, rounded to the destination; an
unscaled conversion to the same format passes the code through (R220). -/
def ruleConvert (dst src rm : Nat) (sat : Bool) (scale : Option Byte) (x : Nat) : Nat :=
  match scale with
  | none => convert dst src rm sat x
  | some b => roundTo dst rm sat (decide (src < 8)) (applyScale (fmtValue src x) b (decide (11 ≤ src)))

/-- The scale byte of a lane, where the form has one (R220). -/
def ruleScale (g : Group) (s : BitVec 1) (vs : BitVec 8) (sel : BitVec 2) (l : Nat) : Option Byte :=
  if s = 1#1 then some ((getV g vs.toNat l).extractLsb' (8 * sel.toNat) 8) else none

/-- What the rules give for each conversion (R219 to R222). -/
def convertRule (i : Instr) : Option VectorRule :=
  match i with
  | .cvt o =>
    let va := o.va.toNat
    let wide := fmtBits o.src.toNat = 64
    let vectors := va :: (if wide then [va + 1] else []) ++ (if o.s = 1#1 then [o.vb.toNat] else [])
    some { gn := o.gn, gp := o.gp, vectors := vectors, dest := o.vd.toNat
           count := if fmtBits o.dst.toNat = 64 then 2 else 1
           value := fun g _ k l =>
             let x := if wide then (getV g (va + 1) l ++ getV g va l).toNat
               else (getV g va l).toNat % 2 ^ fmtBits o.src.toNat
             let y := ruleConvert o.dst.toNat o.src.toNat o.rm.toNat (o.sat == 1#1) (ruleScale g o.s o.vb o.sel l) x
             let z := if (o.dst = 0#4 ∨ o.dst = 2#4) ∧ 2 ^ (fmtBits o.dst.toNat - 1) ≤ y
               then y + 2 ^ 32 - 2 ^ fmtBits o.dst.toNat else y
             BitVec.ofNat 32 (z / 2 ^ (32 * k))
           poison := fun g _ l => anyPoison [] vectors g l }
  | .unpack o =>
    let n := if fmtBits o.src.toNat = 16 then 2 else 4
    let vectors := o.va.toNat :: (if o.s = 1#1 then [o.vb.toNat] else [])
    some { gn := o.gn, gp := o.gp, vectors := vectors, dest := o.vd.toNat, count := n
           value := fun g _ k l =>
             let x := (getV g o.va.toNat l).toNat / 2 ^ (32 / n * k) % 2 ^ fmtBits o.src.toNat
             BitVec.ofNat 32
               (ruleConvert o.dst.toNat o.src.toNat o.rm.toNat (o.sat == 1#1) (ruleScale g o.s o.vb o.sel l) x)
           poison := fun g _ l => anyPoison [] vectors g l }
  | .pack o =>
    let wide := fmtBits o.dst.toNat = 16
    let vectors := o.va.toNat :: bVectors o.vbs o.vb ++ (if o.s = 1#1 then [o.vc.toNat] else []) ++
      (if wide then [] else [o.vd.toNat])
    some { gn := o.gn, gp := o.gp, scalars := bScalars o.vbs o.vb, vectors := vectors, dest := o.vd.toNat
           value := fun g _ _ l =>
             let one (x : Lane) : Lane := BitVec.ofNat 32
               (ruleConvert o.dst.toNat o.src.toNat o.rm.toNat (o.sat == 1#1) (ruleScale g o.s o.vc o.sel l) x.toNat)
             let ya := one (getV g o.va.toNat l)
             let yb := one (ruleB g o.vbs o.vb l)
             if wide then (yb <<< 16) ||| ya
             else if o.k = 0#1 then (getV g o.vd.toNat l &&& 0xFFFF0000#32) ||| ((yb <<< 8) ||| ya)
             else (getV g o.vd.toNat l &&& 0x0000FFFF#32) ||| (((yb <<< 8) ||| ya) <<< 16)
           poison := fun g _ l => anyPoison (bScalars o.vbs o.vb) vectors g l }
  | _ => none

/-! ### Cross-lane results -/

/-- The combination of each operator (R227). -/
def ruleCombine (op rm : Nat) (sat : Bool) (a b : Lane) : Lane :=
  match op with
  | 0 => a + b
  | 1 => ruleVmin 0#1 a b
  | 2 => ruleVmax 0#1 a b
  | 3 => ruleVmin 1#1 a b
  | 4 => ruleVmax 1#1 a b
  | 5 => a &&& b
  | 6 => a ||| b
  | 7 => a ^^^ b
  | 8 => toF32 rm sat (addExact rm (f32 a) (f32 b))
  | 9 => fmin32 a b
  | _ => fmax32 a b

/-- The exclusive scan's identity of each operator (R227). -/
def ruleIdentity (op : Nat) : Lane :=
  match op with
  | 1 => 0x7FFFFFFF#32
  | 2 => 0x80000000#32
  | 3 | 5 => 0xFFFFFFFF#32
  | 8 => 0x80000000#32
  | 9 => 0x7F800000#32
  | 10 => 0xFF800000#32
  | _ => 0#32

/-- The place i of the reduction tree after n levels: what it held, combined with what place i + 2^(n-1) held; an absent
operand passes the other on (R228). -/
def ruleTree (f : Lane → Lane → Lane) (lanes : List Nat) (a : Nat → Lane) : Nat → Nat → Option Lane
  | 0, i => if lanes.contains i then some (a i) else none
  | n + 1, i =>
    match ruleTree f lanes a n i, ruleTree f lanes a n (i + 2 ^ n) with
    | some x, some y => some (f x y)
    | some x, none => some x
    | none, y => y

/-- The combination of a list from the left (R229). -/
def ruleScan (f : Lane → Lane → Lane) (ident : Lane) (l : List Lane) : Lane :=
  match l with
  | [] => ident
  | x :: r => r.foldl f x

/-- Lane j of a register, 0 beyond the width, and its poison (R224 to R226). -/
def laneOrZero (g : Group) (r j : Nat) : Lane := if j < g.width then getV g r j else 0#32
/-- A lane beyond the width has no poison. -/
def poisonOrNone (g : Group) (r j : Nat) : Bool := if j < g.width then poisonedV g r j else false

/-- What the rules give for each cross-lane instruction that writes a vector (R224 to R229). -/
def crossRule (i : Instr) : Option VectorRule :=
  match i with
  | .vshuf o =>
    let j (g : Group) (l : Nat) : Nat :=
      if o.wrap = 1#1 then (ruleB g o.vbs o.vb l).toNat % g.width else (ruleB g o.vbs o.vb l).toNat
    some { gn := o.gn, gp := o.gp, scalars := bScalars o.vbs o.vb, vectors := o.va.toNat :: bVectors o.vbs o.vb
           dest := o.vd.toNat, value := fun g _ _ l => laneOrZero g o.va.toNat (j g l)
           poison := fun g _ l => poisonOrNone g o.va.toNat (j g l) ||
             anyPoison (bScalars o.vbs o.vb) (bVectors o.vbs o.vb) g l }
  | .vlsh o =>
    let k (g : Group) : Int := if o.vbs = 1#1 then ((getS g o.vb.toNat).extractLsb' 0 32).toInt else o.k.toInt
    let j (g : Group) (l : Nat) : Int := if o.rot = 1#1 then ((l : Int) - k g) % (g.width : Int) else (l : Int) - k g
    some { gn := o.gn, gp := o.gp
           scalars := bScalars o.vbs o.vb ++ (if o.f = 1#1 then [o.vc.toNat] else []), vectors := [o.va.toNat]
           dest := o.vd.toNat
           value := fun g _ _ l =>
             if j g l < 0 ∨ (g.width : Int) ≤ j g l then
               (if o.f = 1#1 then (getS g o.vc.toNat).extractLsb' 0 32 else 0#32)
             else getV g o.va.toNat (j g l).toNat
           poison := fun g _ l =>
             (bScalars o.vbs o.vb).any (poisonedS g) ||
             (if j g l < 0 ∨ (g.width : Int) ≤ j g l then o.f == 1#1 && poisonedS g o.vc.toNat
              else poisonedV g o.va.toNat (j g l).toNat) }
  | .vbcast o =>
    let j (g : Group) : Nat := if o.vbs = 1#1 then ((getS g o.vb.toNat).extractLsb' 0 32).toNat else o.j.toNat
    some { gn := o.gn, gp := o.gp, scalars := bScalars o.vbs o.vb, vectors := [o.va.toNat], dest := o.vd.toNat
           value := fun g _ _ _ => laneOrZero g o.va.toNat (j g)
           poison := fun g _ _ => poisonOrNone g o.va.toNat (j g) || (bScalars o.vbs o.vb).any (poisonedS g) }
  | .vred o =>
    if o.d = 1#1 then none
    else
      some { gn := o.gn, gp := o.gp, vectors := [o.va.toNat], dest := o.vd.toNat
             value := fun g lanes _ _ =>
               (ruleTree (ruleCombine o.op.toNat o.rm.toNat (o.sat == 1#1)) lanes (getV g o.va.toNat) 6 0).getD 0#32
             poison := fun g lanes _ => lanes.any fun l => poisonedV g o.va.toNat l }
  | .vscan o =>
    let below (lanes : List Nat) (l : Nat) : List Nat :=
      lanes.filter fun k => if o.excl = 1#1 then decide (k < l) else decide (k ≤ l)
    some { gn := o.gn, gp := o.gp, vectors := [o.va.toNat], dest := o.vd.toNat
           value := fun g lanes _ l =>
             ruleScan (ruleCombine o.op.toNat o.rm.toNat (o.sat == 1#1)) (ruleIdentity o.op.toNat)
               ((below lanes l).map fun k => getV g o.va.toNat k)
           poison := fun g lanes l => (below lanes l).any fun k => poisonedV g o.va.toNat k }
  | _ => none

/-! ### Compares -/

/-- What the rules give for a compare: its guard, combine type and predicates, what it reads, and its result in a
lane. -/
structure CompareRule where
  gn : BitVec 1
  gp : BitVec 3
  ct : Nat
  pd1 : Nat
  pd2 : Nat
  scalars : List Nat
  vectors : List Nat
  holds : Group → Nat → Bool

/-- The relations of VCMP (R156). -/
def ruleVcmp (rel : Nat) (u : BitVec 1) (a b : Lane) : Bool :=
  match rel with
  | 0 => decide (a = b)
  | 1 => decide (a ≠ b)
  | 2 => decide (laneNum u a < laneNum u b)
  | 3 => decide (laneNum u a ≤ laneNum u b)
  | 4 => decide (laneNum u a > laneNum u b)
  | 5 => decide (laneNum u a ≥ laneNum u b)
  | 6 => decide (a &&& b ≠ 0#32)
  | _ => decide (a &&& b = 0#32)

/-- The relations of FCMP on the values of two lanes (R156). -/
def ruleFcmp (rel : Nat) (a b : FVal) : Bool :=
  match rel with
  | 0 => cmpVal a b == some .eq
  | 1 => cmpVal a b != some .eq
  | 2 => cmpVal a b == some .lt
  | 3 => cmpVal a b == some .lt || cmpVal a b == some .eq
  | 4 => cmpVal a b == some .gt
  | 5 => cmpVal a b == some .gt || cmpVal a b == some .eq
  | 6 => a != .nan && b != .nan
  | _ => a == .nan || b == .nan

/-- The code a compare of a type reads in a lane (R217): a whole FP32 lane, or the low half. -/
def ruleCode (ty : Nat) (x : Lane) : Nat := if ty = 0 then x.toNat else x.toNat % 2 ^ 16

/-- The format of a type (R156). -/
def ruleFmt (ty : Nat) : FFmt := if ty = 0 then fp32 else if ty = 1 then fp16 else bf16

/-- The class of a code of a format (R218). -/
def ruleClass (f : FFmt) (x : Nat) : Nat :=
  match floatValue f x with
  | .nan => if x / 2 ^ (f.fb - 1) % 2 = 1 then 9 else 8
  | .inf neg => if neg then 0 else 7
  | .fin neg m e =>
    if m = 0 then (if neg then 3 else 4)
    else if m < 2 ^ f.fb ∧ e = 1 - (f.bias : Int) - f.fb then (if neg then 2 else 5)
    else if neg then 1 else 6

/-- What the rules give for each compare (R213, R217, R218). -/
def compareRule (i : Instr) : Option CompareRule :=
  match i with
  | .vcmp o =>
    some { gn := o.gn, gp := o.gp, ct := o.ct.toNat, pd1 := o.pd1.toNat, pd2 := o.pd2.toNat
           scalars := bScalars o.vbs o.vb, vectors := o.va.toNat :: bVectors o.vbs o.vb
           holds := fun g l => ruleVcmp o.rel.toNat (if o.ctyp = 1#3 then 1#1 else 0#1) (getV g o.va.toNat l)
             (ruleB g o.vbs o.vb l) }
  | .fcmp o =>
    let v (x : Lane) : FVal := floatValue (ruleFmt o.ctyp.toNat) (ruleCode o.ctyp.toNat x)
    some { gn := o.gn, gp := o.gp, ct := o.ct.toNat, pd1 := o.pd1.toNat, pd2 := o.pd2.toNat
           scalars := bScalars o.vbs o.vb, vectors := o.va.toNat :: bVectors o.vbs o.vb
           holds := fun g l => ruleFcmp o.rel.toNat (v (getV g o.va.toNat l)) (v (ruleB g o.vbs o.vb l)) }
  | .fclass o =>
    some { gn := o.gn, gp := o.gp, ct := o.ct.toNat, pd1 := o.pd1.toNat, pd2 := o.pd2.toNat
           scalars := [], vectors := [o.va.toNat]
           holds := fun g l =>
             o.mask.getLsbD (ruleClass (ruleFmt o.ty.toNat) (ruleCode o.ty.toNat (getV g o.va.toNat l))) }
  | _ => none

/-- What a combine type writes to pd1 and pd2 in a lane (R168): guard, old values, the compare's result; none where the
lane keeps both. -/
def ruleWrites (ct : Nat) (g x y c : Bool) : Option (Bool × Bool) :=
  match ct, g with
  | 1, _ => some (g && c, g && !c)
  | 7, _ => some (x && g && c, x && g && !c)
  | _, false => none
  | 0, true => some (c, !c)
  | 2, true => some (x && c, y || !c)
  | 3, true => some (x || c, y && !c)
  | 4, true => some (x && !c, y || c)
  | 5, true => some (x || !c, y && c)
  | _, true => some (Bool.xor x c, !(Bool.xor x c))

/-! ### Pair words -/

/-- The second operand of a half in a lane: its register, or imm9 sign-extended (R162). -/
def halfSecond (g : Group) (h : HalfOp) (l : Nat) : Lane :=
  if 0x10 ≤ h.hop.toNat ∧ h.hop.toNat < 0x20 then h.imm.signExtend 32 else getV g h.vs.toNat l

/-- The result of a half: its register form's operation (R162, R174, R232). -/
def halfResult (hop : Nat) (a b : Lane) : Lane :=
  match hop with
  | 0x01 | 0x11 => a + b
  | 0x02 => a - b
  | 0x03 | 0x13 => a &&& b
  | 0x04 | 0x14 => a ||| b
  | 0x05 | 0x15 => a ^^^ b
  | 0x06 | 0x16 => ruleShl a b
  | 0x07 | 0x17 => ruleShr a b
  | 0x08 | 0x18 => ruleSra a b
  | 0x09 | 0x19 => ruleVmin 0#1 a b
  | 0x0A => ruleVmin 1#1 a b
  | 0x0B | 0x1B => ruleVmax 0#1 a b
  | 0x0C => ruleVmax 1#1 a b
  | 0x0D | 0x1D => b
  | 0x20 => toF32 0 false (addExact 0 (f32 a) (f32 b))
  | 0x21 => toF32 0 false (mulExact (f32 a) (f32 b))
  | 0x22 => fmin32 a b
  | 0x23 => fmax32 a b
  | _ => a

/-- The registers a half reads and, NOP apart, writes (R163): vd but for a move's read, and vs in a register form. -/
def halfSources (h : HalfOp) : List Nat :=
  (if h.hop = 0x0D#7 ∨ h.hop = 0x1D#7 then [] else [h.vd.toNat]) ++
  (if 0x10 ≤ h.hop.toNat ∧ h.hop.toNat < 0x20 then [] else [h.vs.toNat])

/-- The active lanes of a half; NOP has none. -/
def halfActive (g : Group) (e : Entry) (h : HalfOp) : List Nat := if h.hop = 0#7 then [] else guardedLanes g e 0#1 h.gp

/-! ### What a vector rule claims -/

/-- What a vector rule claims of an instruction in a state: with its registers ready it completes, writes the active
lanes of its destinations with the rule's values and poison, and leaves every other lane, register and byte alone. -/
def vectorHolds (i : Instr) (r : VectorRule) (s : State) : Prop :=
  let g := curGroup s
  let lanes := guardedLanes g (curStrand s) r.gn r.gp
  let dests := (List.range r.count).map (r.dest + ·)
  let bad := lanes.any (r.poison g lanes)
  ScalarsReady s r.scalars [] → VectorsReady s r.vectors dests → NoneDue s (r.vectors ++ dests) →
    recordedTrap s = none →
    ∃ t, exec i s = .next t ∧
      (∀ k l, k < r.count → l ∈ lanes → getV (curGroup t) (r.dest + k) l = r.value g lanes k l ∧
        poisonedV (curGroup t) (r.dest + k) l = r.poison g lanes l) ∧
      OnlyVectors s t dests lanes ∧ GoesOn s t ∧ Elsewhere (if bad then consumed s g else s) t

/-! ### Memory accesses -/

/-- The address a lane forms (R234): the scalar base plus the lane's signed offset, scaled. -/
def ruleAddr (g : Group) (sb : BitVec 7) (va : BitVec 8) (osc : BitVec 2) (l : Nat) : Word :=
  getS g sb.toNat + BitVec.ofInt 64 ((getV g va.toNat l).toInt * 2 ^ osc.toNat)

/-- The address the scalar forms form (R157, R238). -/
def ruleScalarAddr (g : Group) (sb : BitVec 7) (disp : BitVec 8) (osc : BitVec 2) : Word :=
  getS g sb.toNat + BitVec.ofInt 64 (disp.toInt * 2 ^ osc.toNat)

/-- Where an access of n bytes at an address is performed, and its memory type, where every check of R235 passes: the
alignment; for a global address the page that a TLB of the core holds for it (R85); for a vault offset the range of its
context and the vaults' size, and for a share offset the share's size (R76). -/
def located (s : State) (space use n : Nat) (va : Word) : Option (Nat × Nat) :=
  let g := curGroup s
  let ctx := (launchOf s g).queue
  let vlt := (tgetD s.contexts ctx {}).vlt
  if va.toNat % n ≠ 0 then none
  else
    match space with
    | 0 =>
      if 2 ^ 57 ≤ va.toNat then none
      else (tlbLookup s g.core ctx va).bind fun e =>
        if useAllowed e use then some (e.pbase + (va.toNat - e.vbase), e.mtype) else none
    | 1 =>
      if (vlt.extractLsb' 0 8).toNat * 2 ^ 21 ≤ va.toNat ∧ va.toNat + n ≤ (vlt.extractLsb' 8 8).toNat * 2 ^ 21 ∧
          va.toNat + n ≤ 14 * (24 * 2 ^ 20)
      then some (0xE000000000000 + va.toNat, 0) else none
    | _ => if va.toNat + n ≤ shareSize s g then some (va.toNat, 0) else none

/-- No watchpoint of the core is enabled (R369). -/
def NoWatch (s : State) : Prop :=
  ∀ k, k < 4 → (tgetD (coreAt s (curGroup s).core).debug (0x108 + 0x20 * k) 0#64).extractLsb' 0 2 = 0#2

/-- The bits of a lane in a run of registers, the lowest address in the first (R234). -/
def ruleRun (g : Group) (r k l : Nat) : BitVec 512 :=
  BitVec.ofNat 512 ((List.range k).foldr (fun i x => x * 2 ^ 32 + (getV g (r + i) l).toNat) 0)

/-- A register of a run is poisoned in a lane. -/
def poisonRun (g : Group) (r k l : Nat) : Bool := (List.range k).any fun i => poisonedV g (r + i) l

/-- What the rules give for an instruction that sends one access: what it reads, the lanes and their addresses, the
registers that its reply will fill and that it marks empty (R236), and the access, but for where its lanes lie. -/
structure AccessRule where
  scalars : List Nat := []
  vectors : List Nat := []
  lanes : List Nat
  addr : Nat → Word
  space : Nat := 0
  use : Nat
  bytes : Nat
  fills : List Nat := []
  fillsScalar : Option Nat := none
  who : List Nat
  access : Out
  lane : Nat → LaneAcc := fun _ => {}

/-- The access itself, its lanes at the places that `place` gives. -/
def AccessRule.out (r : AccessRule) (s : State) (place : Nat → Nat × Nat) : Out :=
  let g := curGroup s
  { r.access with
    owner := g.owner, gid := s.cur.gid, entry := s.cur.entry, core := g.core, ctx := (launchOf s g).queue
    pc := (curStrand s).pc, space := r.space, size := r.bytes, who := r.who.map fun l => g.laneNo.getD l 0
    lanes := r.lanes.map fun l => { r.lane l with
      lane := l, laneNo := g.laneNo.getD l 0, va := r.addr l, pa := (place l).1, mtype := (place l).2 } }

/-- An atomic's operator, by its opcode (R242). -/
def atomicOf (i : Instr) : Option (Nat × AtomOp) :=
  match i with
  | .atomAdd o => some (0x70, o)
  | .atomSub o => some (0x71, o)
  | .atomMin o => some (0x72, o)
  | .atomMinu o => some (0x73, o)
  | .atomMax o => some (0x74, o)
  | .atomMaxu o => some (0x75, o)
  | .atomAnd o => some (0x76, o)
  | .atomOr o => some (0x77, o)
  | .atomXor o => some (0x78, o)
  | .atomExch o => some (0x79, o)
  | .atomCas o => some (0x7A, o)
  | .atomInc o => some (0x7B, o)
  | .atomDec o => some (0x7C, o)
  | .atomFadd o => some (0x7D, o)
  | .atomFmin o => some (0x7E, o)
  | .atomFmax o => some (0x7F, o)
  | _ => none

/-- The registers a transfer of n bytes takes (R234). -/
def ruleRegs (n : Nat) : Nat := if n ≤ 4 then 1 else n / 4

/-- A load without an escort. -/
def loadRule (s : State) (space : Nat) (gn : BitVec 1) (gp size : BitVec 3) (vd va : BitVec 8) (sb : BitVec 7)
    (scope : BitVec 3) (ord osc : BitVec 2) (noAlloc : Bool) : AccessRule :=
  let g := curGroup s
  let n := 2 ^ size.toNat
  let lanes := guardedLanes g (curStrand s) gn gp
  { scalars := [sb.toNat], vectors := [va.toNat], lanes := lanes, addr := ruleAddr g sb va osc, space := space
    use := 0, bytes := n, fills := (List.range (ruleRegs n)).map (vd.toNat + ·), who := lanes
    access := { kind := .load, scope := scope.toNat, ord := ord.toNat, reg := vd.toNat, nreg := ruleRegs n
                noAlloc := noAlloc } }

/-- A store. -/
def storeRule (s : State) (space : Nat) (gn : BitVec 1) (gp size : BitVec 3) (vd va : BitVec 8) (sb : BitVec 7)
    (scope : BitVec 3) (ord osc : BitVec 2) : AccessRule :=
  let g := curGroup s
  let n := 2 ^ size.toNat
  let lanes := guardedLanes g (curStrand s) gn gp
  { scalars := [sb.toNat], vectors := va.toNat :: (List.range (ruleRegs n)).map (vd.toNat + ·), lanes := lanes
    addr := ruleAddr g sb va osc, space := space, use := 1, bytes := n, who := lanes
    access := { kind := .store, scope := scope.toNat, ord := ord.toNat }
    lane := fun l => { data := ruleRun g vd.toNat (ruleRegs n) l, poisoned := poisonRun g vd.toNat (ruleRegs n) l } }

/-- What the rules give for each instruction that sends one access without an escort (R236 to R238, R242 to R247). -/
def accessRule (i : Instr) (s : State) : Option AccessRule :=
  let g := curGroup s
  let strand := activeLanes g (curStrand s)
  match i with
  | .ld o => if o.ec = 0#4 then some (loadRule s 0 o.gn o.gp o.size o.vd o.va o.sb o.scope o.ord o.osc (o.hint == 2#3))
    else none
  | .lds o => some (loadRule s 2 o.gn o.gp o.size o.vd o.va o.sb o.scope o.ord o.osc false)
  | .ldv o => some (loadRule s 1 o.gn o.gp o.size o.vd o.va o.sb o.scope o.ord o.osc false)
  | .sld o =>
    some { scalars := [o.sb.toNat], lanes := [0], addr := fun _ => ruleScalarAddr g o.sb o.disp o.osc, use := 0
           bytes := 2 ^ o.size.toNat, fillsScalar := some o.vd.toNat, who := strand
           access := { kind := .load, scope := o.scope.toNat, ord := o.ord.toNat, scalar := true, reg := o.vd.toNat
                       hreg := hmode g && decide (o.vd.toNat < 8) } }
  | .st o => some (storeRule s 0 o.gn o.gp o.size o.vd o.va o.sb o.scope o.ord o.osc)
  | .sts o => some (storeRule s 2 o.gn o.gp o.size o.vd o.va o.sb o.scope o.ord o.osc)
  | .stv o => some (storeRule s 1 o.gn o.gp o.size o.vd o.va o.sb o.scope o.ord o.osc)
  | .sst o =>
    some { scalars := [o.sb.toNat, o.vd.toNat], lanes := [0], addr := fun _ => ruleScalarAddr g o.sb o.disp o.osc
           use := 1, bytes := 2 ^ o.size.toNat, who := strand
           access := { kind := .store, scope := o.scope.toNat, ord := o.ord.toNat, scalar := true }
           lane := fun _ => { data := (getS g o.vd.toNat).setWidth 512, poisoned := poisonedS g o.vd.toNat } }
  | .xadd o =>
    let lanes := guardedLanes g (curStrand s) o.gn o.gp
    some { scalars := [o.sb.toNat], vectors := [o.va.toNat, o.vd.toNat], lanes := lanes
           addr := ruleAddr g o.sb o.va o.osc, use := 1, bytes := 64, who := lanes
           access := { kind := .xadd, scope := o.scope.toNat, ord := o.ord.toNat, op := 0x69 }
           lane := fun l => { data := (getV g o.vd.toNat l).setWidth 512, poisoned := poisonedV g o.vd.toNat l } }
  | .xcvt o =>
    let lanes := guardedLanes g (curStrand s) o.gn o.gp
    some { scalars := [o.sb.toNat], vectors := [o.va.toNat], lanes := lanes, addr := ruleAddr g o.sb o.va o.osc
           use := 0, bytes := 64, fills := [o.vd.toNat], who := lanes
           access := { kind := .xcvt, scope := o.scope.toNat, ord := o.ord.toNat, op := 0x6A, reg := o.vd.toNat } }
  | .fence o =>
    some { lanes := [], addr := fun _ => 0#64, use := 0, bytes := 0, who := strand
           access := { kind := .fence, scope := o.scope.toNat, ord := o.ord.toNat } }
  | i =>
    (atomicOf i).bind fun (op, o) =>
      let n := 2 ^ o.size.toNat
      let k := ruleRegs n
      let data := if op = 0x7A then 2 * k else k
      let lanes := guardedLanes g (curStrand s) o.gn o.gp
      if o.ec = 0#4 then
        some { scalars := [o.sb.toNat], vectors := o.va.toNat :: (List.range data).map (o.vd.toNat + ·), lanes := lanes
               addr := ruleAddr g o.sb o.va o.osc, space := o.space.toNat, use := 1, bytes := n
               fills := (List.range k).map (o.vd.toNat + ·), who := lanes
               access := { kind := .atomic, scope := o.scope.toNat, ord := o.ord.toNat, op := op, reg := o.vd.toNat
                           nreg := k }
               lane := fun l => { data := ruleRun g o.vd.toNat k l
                                  swap := (ruleRun g (o.vd.toNat + k) k l).setWidth 64
                                  poisoned := poisonRun g o.vd.toNat data l } }
      else none

/-- An access without the marks of what it waits for. -/
def bareOut (o : Out) : Out := { o with after := [], staged := false, afterWb := [], promos := [] }

/-- The state without the trains of the on-die network (R96, R97). -/
def noTrains (s : State) : State := { s with trains := [], sources := [], golden := 0, goldenTrain := none, goldenHold := none }

/-- What sending an access leaves alone: memory and everything else but the issuing group, the accesses, and the
write-backs that an access asks for before it is performed, on their trains (R78, R79, R118). -/
def unsent (s : State) : State :=
  { noTrains s with groups := [], outs := [], cores := [], writeBacks := [], nextId := 0, progress := 0 }

/-- An access is sent: it stands among the accesses under a new key and waits for those of its threads that come before
it (R120 to R126); `s'` is the state but for what poison among its data has marked. -/
def Sends (s s' t : State) (o : Out) : Prop :=
  (tget t.outs s.nextId).map bareOut = some (bareOut o) ∧
  (tget t.outs s.nextId).map (·.after) = some ((s.outs.filter fun x => ordered x.2 o).map (·.1)) ∧
  (∀ k, k ≠ s.nextId → tget t.outs k = tget s.outs k) ∧
  (∀ k, k ≠ s.cur.gid → tget t.groups k = tget s.groups k) ∧ unsent t = unsent s'

/-- A group without its full/empty bits. -/
def noFull (g : Group) : Group :=
  { bareGroup g with
    vfull := 0#256, sfull := 0#128, handler := (bareGroup g).handler.map fun h => { h with full := 0#8 } }

/-- Full/empty bits change for the listed registers only, which are empty; nothing else of the group changes but its
program counters (R236). -/
def OnlyEmpties (s t : State) (vs : List Nat) (sc : Option Nat) : Prop :=
  (∀ r, r < 256 → fullV (curGroup t) r = (!vs.contains r && fullV (curGroup s) r)) ∧
  (∀ r, r < 128 → fullS (curGroup t) r = (decide (sc ≠ some r) && fullS (curGroup s) r)) ∧
  noFull (curGroup t) = noFull (curGroup s)

/-- What an access rule claims of an instruction in a state: with its registers ready and every lane's place found, the
access is sent, the registers that its reply fills are empty, and the strand goes on. -/
def accessHolds (i : Instr) (r : AccessRule) (s : State) : Prop :=
  ∀ place : Nat → Nat × Nat,
    let g := curGroup s
    let o := r.out s place
    let bad := o.lanes.any (·.poisoned)
    Alone s → Fresh s → Standing s → ScalarsReady s r.scalars r.fillsScalar.toList →
    VectorsReady s r.vectors r.fills → NoneDue s (r.vectors ++ r.fills) →
    (r.scalars.head?.all fun x => !poisonedS g x) = true →
    (r.vectors.head?.all fun x => r.lanes.all fun l => !poisonedV g x l) = true →
    (r.lanes = [] → o.kind = .fence) → ¬(r.space = 1 ∧ o.scope = 6) → NoWatch s →
    (∀ l ∈ r.lanes, located s r.space r.use r.bytes (r.addr l) = some (place l)) →
    ∃ t, exec i s = .next t ∧ Sends s (if bad then wrotePoison (consumed s g) g else s) t o ∧
      OnlyEmpties s t r.fills r.fillsScalar ∧ GoesOn s t

/-! ### Performing an access -/

/-- The new value of an atomic of a number of bits (R243): operator, the value found, b and c. -/
def ruleAtomic (op bits : Nat) (m b c : BitVec bits) : BitVec bits :=
  match op with
  | 0x70 => m + b
  | 0x71 => m - b
  | 0x72 => if m.toInt ≤ b.toInt then m else b
  | 0x73 => if m.toNat ≤ b.toNat then m else b
  | 0x74 => if m.toInt ≤ b.toInt then b else m
  | 0x75 => if m.toNat ≤ b.toNat then b else m
  | 0x76 => m &&& b
  | 0x77 => m ||| b
  | 0x78 => m ^^^ b
  | 0x79 => b
  | 0x7A => if m = b then c else m
  | 0x7B => if b.toNat ≤ m.toNat then 0#bits else m + 1#bits
  | 0x7C => if m.toNat = 0 ∨ b.toNat < m.toNat then b else m - 1#bits
  | 0x7D => (toF32 0 false (addExact 0 (f32 (m.setWidth 32)) (f32 (b.setWidth 32)))).setWidth bits
  | 0x7E => (fmin32 (m.setWidth 32) (b.setWidth 32)).setWidth bits
  | _ => (fmax32 (m.setWidth 32) (b.setWidth 32)).setWidth bits

/-- Atomics by lanes in increasing order (R244): the memory after them, and the value that each lane found. -/
def ruleAtomics (op n : Nat) : List LaneAcc → Memory → Memory × List Nat
  | [], m => (m, [])
  | a :: r, m =>
    let old := leNat (mread m a.pa n)
    let new := ruleAtomic op (8 * n) (BitVec.ofNat (8 * n) old) (a.data.setWidth (8 * n)) (a.swap.setWidth (8 * n))
    let rest := ruleAtomics op n r (mwrite m a.pa (leBytes new.toNat n))
    (rest.1, old :: rest.2)

/-- Stores by lanes in increasing order: the memory after them (R237). -/
def ruleStores (n : Nat) (l : List LaneAcc) (m : Memory) : Memory :=
  l.foldl (fun m a => mwrite m a.pa (leBytes a.data.toNat n)) m

/-- XADD by lanes in increasing order (R149, R245). -/
def ruleXadds (l : List LaneAcc) (m : Memory) : Memory :=
  l.foldl (fun m a =>
    mwrite m a.pa (leBytes (xaAdd (BitVec.ofNat 512 (leNat (mread m a.pa 64))) (a.data.setWidth 32)).toNat 64)) m

/-- The access may keep to the L1 of its core: global, team scope or narrower, in pages of memory type 0 (R78). -/
def keepsToL1 (o : Out) (a : LaneAcc) : Prop := o.space = 0 ∧ o.scope ≤ 2 ∧ a.mtype = 0

/-- The bytes of a line that memory does not have yet: narrow-dirty ones, and those on their way back (R80, R118). -/
def Newer (l : Line) (x : Nat) : Prop := l.dirty.getLsbD (x % 128) = true ∨ l.leaving.getLsbD (x % 128) = true

/-- The byte of a line at an address, and whether it is poisoned. -/
def lineSeen (l : Line) (x : Nat) : Byte × Bool :=
  (l.data.extractLsb' (8 * (x % 128)) 8, l.poison.getLsbD (x % 128 / 8))

/-- The L1 of an access's core holds every byte of a lane's access. -/
def inL1Whole (s : State) (o : Out) (a : LaneAcc) : Prop :=
  ∀ k, k < o.size → ∃ l, tget (coreAt s o.core).lines ((a.pa + k) / 128) = some l ∧ l.valid.getLsbD ((a.pa + k) % 128) = true

open Classical in
/-- The byte that a lane's load finds at a place, and whether it is poisoned (R75, R78, R109, R406): of its team's share;
where the access keeps to the L1, of the L1 if it holds the lane's bytes, or if memory does not have the byte yet;
else of memory. -/
noncomputable def seenByte (s : State) (o : Out) (a : LaneAcc) (x : Nat) : Byte × Bool :=
  let memory := (mget s.mem x, s.poison.contains (x / 8))
  if o.space = 2 then
    match o.owner with
    | .team t => (mget (tgetD s.teams t {}).share x, (tgetD s.teams t {}).sharePoison.contains (x / 8))
    | .spawned _ => (0#8, false)
  else if keepsToL1 o a then
    match tget (coreAt s o.core).lines (x / 128) with
    | some l => if inL1Whole s o a ∨ Newer l x then lineSeen l x else memory
    | none => memory
  else memory

/-- The number that the bytes a lane's load finds hold. -/
noncomputable def seenNat (s : State) (o : Out) (a : LaneAcc) : Nat :=
  leNat ((List.range o.size).map fun k => (seenByte s o a (a.pa + k)).1)

/-- A byte that a load may find through the L1 while lines come into it: memory's, or one that the L1 held. -/
def maySee (s : State) (o : Out) (x : Nat) (b : Byte) : Prop :=
  b = mget s.mem x ∨ ∃ l, (x / 128, l) ∈ (coreAt s o.core).lines ∧ (l.valid.getLsbD (x % 128) = true ∨ Newer l x) ∧
    b = (lineSeen l x).1

/-- An access of no coach whose turn has come: what it waited for has been performed, acknowledged and promoted (R107 to
R119), no train carries it, and its lanes lie as an issue makes them (R234). -/
def Due (s : State) (id : Nat) (o : Out) : Prop :=
  tget s.outs id = some o ∧ outReady o = true ∧ o.away = false ∧ o.coach = none ∧ o.done = false ∧
  (o.lanes.map (·.lane)).Nodup ∧ ∀ a ∈ o.lanes, a.lane < 64

/-- Each lane's bytes lie in the L1 or in the share, or an atomic is the core's own: no train carries the access (R96). -/
def Local (s : State) (o : Out) : Prop := travels s o = false

/-- A due access that may be performed: it stands where it is performed, the cores that own its lines have been promoted
(R119), and its team holds no store back. No lane has been performed, nor has an atomic of another unit read under one
(R116). -/
def Performable (s : State) (id : Nat) (o : Out) : Prop :=
  Due s id o ∧ (o.sent = true ∨ Local s o) ∧ promotes s o = [] ∧ (∀ a ∈ o.lanes, a.did = false ∧ a.early = none) ∧
  (∀ t, o.owner = .team t → (tgetD s.teams t {}).held = []) ∧
  ((∀ a ∈ o.lanes, keepsToL1 o a) ∨ ∀ a ∈ o.lanes, ¬keepsToL1 o a)

/-- A performed access is off the list, and no other is. -/
def Completed (s t : State) (id : Nat) : Prop := t.outs.map (·.1) = (terase s.outs id).map (·.1)

/-- A travelling access has been performed, every lane of it, and its answer is on its way (R96). -/
def Answered (s t : State) (id : Nat) (o p : Out) : Prop :=
  tget t.outs id = some p ∧ p.sent = false ∧ p.away = true ∧ p.lanes.length = o.lanes.length ∧
    (∀ a ∈ p.lanes, a.did = true) ∧ t.groups = s.groups ∧ t.outs.map (·.1) = s.outs.map (·.1)

/-- A reply has landed in a group (R236): `piece` gives register k of the run its value in each lane of the access; the
run is full, and no other register, full/empty bit or group changes. -/
def Landed (s t : State) (o : Out) (piece : Nat → LaneAcc → Lane) : Prop :=
  ∀ g, tget s.groups o.gid = some g → g.ended = false →
    ∃ h, tget t.groups o.gid = some h ∧ h.stack = g.stack ∧ h.handler = g.handler ∧
      (∀ k a, k < o.nreg → a ∈ o.lanes → getV h (o.reg + k) a.lane = piece k a) ∧
      (∀ r l, l < 64 → (r < o.reg ∨ o.reg + o.nreg ≤ r ∨ ∀ a ∈ o.lanes, a.lane ≠ l) → getV h r l = getV g r l ∧
        poisonedV h r l = poisonedV g r l) ∧
      (∀ r, r < 256 → fullV h r = (fullV g r || (decide (o.reg ≤ r) && decide (r < o.reg + o.nreg)))) ∧
      { noVectors h with vfull := 0#256, folds := [] } = { noVectors g with vfull := 0#256, folds := [] }

/-- What a performed access obtained, a number for each lane: a travelling one carries it home, another one has landed
(R96, R236). -/
def Obtained (s t : State) (id : Nat) (o : Out) (l : List Nat) : Prop :=
  (o.sent = true → ∃ p, Answered s t id o p ∧ p.lanes.map (·.res) = l.map (BitVec.ofNat 128)) ∧
  (o.sent = false → Completed s t id ∧
    ∀ f : Nat → Nat, (o.lanes.zip l).all (fun x => f x.1.lane == x.2) = true →
      Landed s t o fun k a => BitVec.ofNat 32 (f a.lane / 2 ^ (32 * k)))

/-! ### Traps, waits and teams -/

/-- The instruction takes a trap at its own checks: nothing but the entry of the trap happens (R358, R374). -/
def Traps (i : Instr) (s : State) (code : BitVec 8) : Prop :=
  ∃ lane addr, exec i s = .next (progressed (takeTrap (dropWait s) { code := code, lane := lane, addr := addr }))

/-- The instruction waits: nothing but the mark of the wait changes (R70). -/
def Waits (i : Instr) (s : State) : Prop := exec i s = .next (stalled s)

/-- The scalar registers hold no poison. -/
def CleanScalars (s : State) (rs : List Nat) : Prop := ∀ r ∈ rs, poisonedS (curGroup s) r = false

/-- No group but the issuing one changes, nor any team but its own, which `r` relates to what it was; nor does anything
else of the device. -/
def OnlyTeam (s t : State) (r : Team → Team → Prop) : Prop :=
  (∀ k, k ≠ s.cur.gid → tget t.groups k = tget s.groups k) ∧
  (∀ k, teamKey (curGroup s) ≠ some k → tget t.teams k = tget s.teams k) ∧
  (∀ k x, teamKey (curGroup s) = some k → tget s.teams k = some x → ∃ y, tget t.teams k = some y ∧ r x y) ∧
  aside t = aside s

/-- Of a team only bytes of its share change, in a range (R75, R91). -/
def OnlyShare (base n : Nat) (x y : Team) : Prop :=
  (∀ a, (a < base ∨ base + n ≤ a) → mget y.share a = mget x.share a) ∧
  { y with share := [], sharePoison := [], mflips := [] } = { x with share := [], sharePoison := [], mflips := [] }

/-- The state without the cores, whose clean L1 lines an acquire may drop (R129). -/
def noCores (s : State) : State := { aside s with cores := [] }

/-- The L1s keep all but clean bytes. -/
def KeepsDirty (s t : State) : Prop :=
  ∀ k a x, tget (coreAt s k).lines a = some x → x.dirty ≠ 0#128 →
    ∃ y, tget (coreAt t k).lines a = some y ∧ y.dirty = x.dirty ∧ y.data = x.data

/-- The cores keep all but clean bytes of their L1s. -/
def KeepsCores (s t : State) : Prop :=
  (∀ k, { coreAt t k with lines := [] } = { coreAt s k with lines := [] }) ∧ KeepsDirty s t

/-- The fields of a fill barrier (R91): phase, arrived bytes, expected bytes. -/
def fillBarrier (b : Word) : Bool × Nat × Nat := (b.getLsbD 63, (b.extractLsb' 32 31).toNat, (b.extractLsb' 0 31).toNat)

/-- A fill barrier judged once (R92). -/
def ruleJudge (ph : Bool) (arr exp : Nat) : Bool × Nat × Nat :=
  if 0 < exp ∧ exp ≤ arr then (!ph, arr - exp, exp) else (ph, arr, exp)

/-- A rendezvous point after an arrival that it admits (R34). -/
def ruleArrive (p : Point) (n : Nat) : Point :=
  if p.arrived + n = p.expected then { p with arrived := 0, phase := !p.phase } else { p with arrived := p.arrived + n }

/-- Of a team only one rendezvous point changes. -/
def OnlyPoint (b : Nat) (p : Point) (x y : Team) : Prop :=
  tget y.points b = some p ∧ (∀ c, c ≠ b → tget y.points c = tget x.points c) ∧
  { y with points := [] } = { x with points := [] }

/-- The accesses of the strand's threads that are still outstanding, which an arrival awaits (R45). -/
def earlierAccesses (s : State) : List Nat :=
  (s.outs.filter fun o => o.2.owner == (curGroup s).owner &&
    (activeLanes (curGroup s) (curStrand s)).any fun l => o.2.who.contains ((curGroup s).laneNo.getD l 0)).map (·.1)

/-! ### Queues and tiles -/

/-- A queue header (R93): SSIZE, SCNT, CLC, WRC and RDC. -/
structure Counts where
  ssize : Nat
  scnt : Nat
  clc : Nat
  wrc : Nat
  rdc : Nat
  deriving DecidableEq, Repr

/-- The header at an offset of a share. -/
def countsAt (m : Memory) (off : Nat) : Counts :=
  { ssize := leNat (mread m off 2), scnt := leNat (mread m (off + 2) 2), clc := leNat (mread m (off + 4) 4)
    wrc := leNat (mread m (off + 8) 4), rdc := leNat (mread m (off + 12) 4) }

/-- A header that obeys R93. -/
def Counts.Sound (h : Counts) : Prop := 0 < h.scnt ∧ h.ssize % 16 = 0 ∧ 16 ≤ h.ssize ∧ h.ssize ≤ 32768

/-- The share offset of the slot that a count means (R93). -/
def Counts.slot (h : Counts) (off i : Nat) : Nat := off + 16 + i % h.scnt * h.ssize

/-- Slots written and not yet released, modulo 2³² (R93). -/
def Counts.used (h : Counts) : Nat := (h.wrc + 2 ^ 32 - h.rdc) % 2 ^ 32

/-- Of a team the header of one queue changes, and the n bytes at an offset, which are copies of those at another. -/
def QueueMoves (off : Nat) (h : Counts) (src dst n : Nat) (x y : Team) : Prop :=
  countsAt y.share off = h ∧
  (∀ j, j < n → (dst + j < off ∨ off + 16 ≤ dst + j) → mget y.share (dst + j) = mget x.share (src + j)) ∧
  (∀ a, (a < off ∨ off + 16 ≤ a) → (a < dst ∨ dst + n ≤ a) → mget y.share a = mget x.share a) ∧
  { y with share := [], sharePoison := [], mflips := [] } = { x with share := [], sharePoison := [], mflips := [] }

/-- The tile entry that TDEF writes from its base, shape and fill-barrier registers (R88, R248): defined and empty. -/
def ruleTile (base shape bar : Word) : BitVec 128 :=
  0#49 ++ bar.extractLsb' 3 15 ++ 0#5 ++ shape.extractLsb' 16 11 ++ 0#5 ++ shape.extractLsb' 0 11 ++ 0#4 ++
    base.extractLsb' 6 12 ++ 0#6 ++ shape.extractLsb' 32 2 ++ 0#5 ++ 1#1 ++ 0#2

/-- A tile entry in another state (R89). -/
def ruleState (e : BitVec 128) (st : BitVec 2) : BitVec 128 := e.extractLsb' 2 126 ++ st

/-- Of a team one tile changes. -/
def OnlyTile (n : Nat) (e : BitVec 128) (x y : Team) : Prop :=
  tget y.tiles n = some e ∧ (∀ k, k ≠ n → tget y.tiles k = tget x.tiles k) ∧ { y with tiles := [] } = { x with tiles := [] }

/-- Of a team one tile's entry changes, and nothing else but bytes of its share. -/
def TileDone (n : Nat) (e : BitVec 128) (x y : Team) : Prop :=
  tget y.tiles n = some e ∧ (∀ k, k ≠ n → tget y.tiles k = tget x.tiles k) ∧
  { y with tiles := [], share := [], sharePoison := [], mflips := [] } =
    { x with tiles := [], share := [], sharePoison := [], mflips := [] }

/-- Which byte of a TLOAD's source byte c of element (i, j) is (R249). -/
def tileSource (e : BitVec 128) (trans : Bool) (i j c : Nat) : Nat :=
  if trans then (j * tRows e + i) * tBytes e + c else (i * tCols e + j) * tBytes e + c

/-- The pieces of a tile's region of global memory: its rows, or its columns for a transposing load (R249). -/
def tileRegion (e : BitVec 128) (trans : Bool) (base stride : Word) : List (Word × Nat) :=
  if trans then regionPieces base stride (tCols e) (tRows e * tBytes e) else regionPieces base stride (tRows e) (tRowBytes e)

/-- Bytes laid into memory piece by piece, a later piece over an earlier one (R250). -/
def ruleSegs : List (Nat × Nat) → List Byte → Memory → Memory
  | [], _, m => m
  | (a, n) :: r, b, m => ruleSegs r (b.drop n) (mwrite m a (b.take n))

/-- A group without the tile states that its handler has written (R289). -/
def noTileStates (g : Group) : Group := { g with handler := g.handler.map fun h => { h with tileStates := [] } }

/-- The groups keep all but a written state of one tile of one team, which a handler forgets (R289). -/
def ForgetsTile (s t : State) (team n : Nat) : Prop :=
  (∀ j, (tget t.groups j).map noTileStates = (tget s.groups j).map noTileStates) ∧
  ∀ j g h, tget s.groups j = some g → g.owner = .team team → g.handler = some h →
    ∃ g' h', tget t.groups j = some g' ∧ g'.handler = some h' ∧ h'.tileStates = terase h.tileStates n

/-- Only TLBs change (R85). -/
def OnlyTlbs (s u : State) : Prop :=
  { u with cores := [], tlb2 := [] } = { s with cores := [], tlb2 := [] } ∧
    ∀ c, { coreAt u c with tlb := [] } = { coreAt s c with tlb := [] }

/-- The state without the cores, memory and running copies, and without what an invalidation awaits. -/
def noCopies (s : State) : State :=
  { aside s with
    cores := [], mem := [], poison := [], copies := []
    contexts := s.contexts.map fun c => (c.1, { c.2 with running := c.2.running.map fun r => { r with outs := [] } }) }

/-! ### The matrix engine -/

/-- A shape or origin word holds nothing but two fields, of a and b bits at 0 and 16 (R265). -/
def ruleFields (v : Word) (a b : Nat) : Prop := v.toNat = v.toNat % 2 ^ a + v.toNat / 2 ^ 16 % 2 ^ b * 2 ^ 16

/-- The region of a tile that an instruction names lies in it, unless it is empty (R265). -/
def ruleRegion (e : BitVec 128) (o : MxOp) (rows cols : Nat) : Prop :=
  rows = 0 ∨ cols = 0 ∨ o.row0 + rows ≤ tRows e ∧ o.col0 + cols ≤ tCols e

/-- What the rules give for a matrix instruction: the scalars it reads, the operation that enters the queue, the tile it
names, whether it is scaled, the number of its scale bytes with their first register, and whether its own checks pass
(R264 to R270). -/
structure MatrixRule where
  sources : List Nat := []
  op : MxOp
  tile : Option Nat := none
  scaled : Bool := false
  blocks : Nat := 0
  run : Nat := 0
  passes : Prop := True

/-- The rate group of a format (R265). -/
def ruleGroup (f : Nat) : Nat := if f = 0 ∨ f = 1 then 0 else if f = 9 ∨ f = 10 then 1 else if f = 13 then 3 else 2

/-- The rules of MLDW, MSWAP, MSTREAM, MDRAIN and MZERO, for a group of team `k` whose tiles are `x.tiles`. -/
def matrixRule (i : Instr) (s : State) (k : Nat) (x : Team) : Option MatrixRule :=
  let g := curGroup s
  let tile (n : BitVec 6) : BitVec 128 := tgetD x.tiles n.toNat 0#128
  let fits (n : BitVec 6) (f : BitVec 4) : Prop := (tile n).getLsbD 2 = true ∧ tEsize (tile n) < 3 ∧
    tEnd (tile n) ≤ shareSize s g ∧ tBytes (tile n) = fmtSize f.toNat
  let low (r : BitVec 7) (n : Nat) : Nat := (getS g r.toNat).toNat % 2 ^ n
  let high (r : BitVec 7) (n : Nat) : Nat := (getS g r.toNat).toNat / 2 ^ 16 % 2 ^ n
  match i with
  | .mldw o =>
    let op : MxOp := { kind := .mldw, gid := s.cur.gid, team := k, tile := o.t.toNat, k := low o.sa 7, n := high o.sa 7
                       row0 := low o.sb 11, col0 := high o.sb 11, fmt := o.fmt.toNat }
    some { sources := [o.sa.toNat, o.sb.toNat], op := op, tile := some o.t.toNat
           scaled := o.s == 1#1, blocks := if o.s = 1#1 then 2 * op.n else 0, run := o.vS.toNat
           passes := fits o.t o.fmt ∧ ruleFields (getS g o.sa.toNat) 7 7 ∧ ruleFields (getS g o.sb.toNat) 11 11 ∧
             op.k ≤ 64 ∧ op.n ≤ 64 ∧ ruleRegion (tile o.t) op op.k op.n }
  | .mswap => some { op := { kind := .mswap, gid := s.cur.gid, team := k } }
  | .mstream o =>
    let op : MxOp := { kind := .mstream, gid := s.cur.gid, team := k, tile := o.t.toNat, acc := o.a.toNat, m := low o.sa 9
                       row0 := low o.sb 11, col0 := high o.sb 11, fmt := o.fmt.toNat }
    let (pk, pn, pf) := (mxPlan s g.core k).active
    some { sources := [o.sa.toNat, o.sb.toNat], op := op, tile := some o.t.toNat
           scaled := o.s == 1#1, blocks := if o.s = 1#1 then 2 * op.m else 0, run := o.vS.toNat
           passes := fits o.t o.fmt ∧ ruleFields (getS g o.sa.toNat) 9 0 ∧ ruleFields (getS g o.sb.toNat) 11 11 ∧
             op.m ≤ 256 ∧ (pk = 0 ∨ pn = 0 ∨ ruleGroup op.fmt = ruleGroup pf ∧
               (mxPlan s g.core k).ints.getD op.acc false = decide (ruleGroup pf = 0) ∧
               ruleRegion (tile o.t) op op.m pk) }
  | .mdrain o =>
    let op : MxOp := { kind := .mdrain, gid := s.cur.gid, team := k, tile := o.t.toNat, acc := o.a.toNat, m := low o.sa 9
                       n := high o.sa 7, row0 := low o.sb 11, col0 := high o.sb 11, fmt := o.fmt.toNat
                       rm := o.rm.toNat, sat := o.sat == 1#1 }
    some { sources := [o.sa.toNat, o.sb.toNat], op := op, tile := some o.t.toNat
           passes := fits o.t o.fmt ∧ ruleFields (getS g o.sa.toNat) 9 7 ∧ ruleFields (getS g o.sb.toNat) 11 11 ∧
             op.m ≤ 256 ∧ op.n ≤ 64 ∧ ruleRegion (tile o.t) op op.m op.n }
  | .mzero o => some { op := { kind := .mzero, gid := s.cur.gid, team := k, acc := o.a.toNat, int := o.i == 1#1 } }
  | _ => none

/-- The registers that a run of scale bytes takes at a width (R143, R266). -/
def ruleScaleRegs (r : MatrixRule) (w : Nat) : List Nat := (List.range ((r.blocks + 4 * w - 1) / (4 * w))).map (r.run + ·)

/-- The registers that the scale field and its run name (R164). -/
def ruleScaleNames (r : MatrixRule) (w : Nat) : List Nat := if r.scaled then r.run :: ruleScaleRegs r w else []

/-- The operation with the scale bytes that it reads at issue: byte b is byte b mod 4 of lane b div 4 of the run (R143). -/
def ruleScaled (r : MatrixRule) (g : Group) : MxOp :=
  let lane (b : Nat) : Nat × Nat := (r.run + b / 4 / g.width, b / 4 % g.width)
  let all := List.range r.blocks
  { r.op with
    scales := all.map fun b => (getV g (lane b).1 (lane b).2).extractLsb' (8 * (b % 4)) 8
    badScales := all.filter fun b => poisonedV g (lane b).1 (lane b).2 }

/-- The two bytes of a plane element in a context record (R263): a 1-byte format keeps its block's scale byte, or 127, in the
high byte. -/
def rulePlaneBytes (p : Plane) (k : Nat) : List Byte :=
  let x := (tgetD p.elems k 0#16).toNat
  if fmtSize p.fmt = 1 then [BitVec.ofNat 8 x, tgetD p.scales k 127#8] else leBytes x 2

/-- The matrix section of a context record (R66, R145, R263): the values of a0 to a3 in 8 bytes each, then the elements of
the active and of the shadow plane. -/
def ruleMatrixBytes (m : Matrix) : List Byte :=
  ((List.range 4).flatMap fun a => (List.range 16384).flatMap fun k =>
    leBytes (tgetD (tgetD m.accs a {}).vals k 0#64).toNat 8) ++
  (List.range 4096).flatMap (rulePlaneBytes m.active) ++ (List.range 4096).flatMap (rulePlaneBytes m.shadow)

/-- A team without its matrix state and sr.chk. -/
def noMatrix (x : Team) : Team := { x with matrix := {}, chk := {} }

/-- A group without the marks of its matrix instructions and batches. -/
def noBatches (g : Group) : Group := { bareGroup g with mxOpen := [], batches := [], batch := 0 }

/-- An operation has completed: it is off its core's queue and out of its group's open instructions and batches, of which
those complete from the oldest on are dropped (R271); no other core or group changes, and of the teams only its own. -/
def EngineDone (s t : State) (core id : Nat) (o : MxOp) (r : Team → Team → Prop) : Prop :=
  (∀ c, c ≠ core → coreAt t c = coreAt s c) ∧
  coreAt t core = { coreAt s core with mxQueue := terase (coreAt s core).mxQueue id } ∧
  (∀ k, k ≠ o.gid → tget t.groups k = tget s.groups k) ∧
  (∀ g, tget s.groups o.gid = some g → tget t.groups o.gid = some { g with
    mxOpen := g.mxOpen.filter (· ≠ id)
    batches := (g.batches.map fun b => { b with ops := b.ops.filter (· ≠ id) }).dropWhile (·.ops.isEmpty) }) ∧
  (∀ k, k ≠ o.team → tget s.teams k = tget t.teams k ∨ (tgetD s.teams o.team {}).mate = some k) ∧
  (∀ x, tget s.teams o.team = some x → ∃ y, tget t.teams o.team = some y ∧ r x y) ∧ noCores t = noCores s

/-- Of a team only its matrix state changes, and sr.chk where poison is consumed (R409). -/
def OnlyMatrix (m : Matrix) (x y : Team) : Prop := { y with chk := x.chk } = { x with matrix := m }

/-- The code of an element of a tile as an operation reads it (R88, R268). -/
def ruleElem (x : Team) (o : MxOp) (i j : Nat) : Nat :=
  let e := tgetD x.tiles o.tile 0#128
  leNat (mread x.share (tElem e (o.row0 + i) (o.col0 + j)) (tBytes e))

/-- An element's bytes hold poison (R406). -/
def badElem (x : Team) (o : MxOp) (i j : Nat) : Bool :=
  let e := tgetD x.tiles o.tile 0#128
  (List.range (tBytes e)).any fun d => x.sharePoison.contains ((tElem e (o.row0 + i) (o.col0 + j) + d) / 8)

/-- The value of an element with its block's scale byte, 127 where the operation has none (R144, R266, R268). -/
def ruleFactor (l : List Byte) (b : Nat) : Byte := l.getD b 127#8

/-- The new value of an accumulator element (R145, R146, R268): an integer sum modulo 2³², or the chunks of four
products, each summed exactly and rounded, added in turn; poison gives the error value (R405). -/
def ruleAccum (x : Team) (o : MxOp) (m n : Nat) : Word :=
  let p := x.matrix.active
  let a := tgetD x.matrix.accs o.acc {}
  let old := tgetD a.vals (64 * m + n) 0#64
  let b (k : Nat) : Nat := (tgetD p.elems (64 * k + n) 0#16).toNat
  let bad := (List.range p.k).any fun k =>
    badElem x o m k || p.bad.contains (64 * k + n) || o.badScales.contains (2 * m + k / 32)
  if bad then (if a.int then 0x80000000#64 else toAcc .nan)
  else if a.int then
    ((old.setWidth 32 : BitVec 32) + BitVec.ofInt 32
      ((List.range p.k).map fun k => intValue o.fmt (ruleElem x o m k) * intValue p.fmt (b k)).sum).setWidth 64
  else
    let product (k : Nat) : FVal :=
      mxProduct o.fmt p.fmt (ruleElem x o m k) (ruleFactor o.scales (2 * m + k / 32)) (b k)
        (tgetD p.scales (64 * k + n) 127#8)
    (List.range ((p.k + 3) / 4)).foldl (fun acc c =>
      accAdd acc (((List.range 4).filter fun j => 4 * c + j < p.k).map fun j => product (4 * c + j))) old

/-- The bytes of an accumulator element drained into a format with one rounding (R140, R147, R269). -/
def ruleDrain (x : Team) (o : MxOp) (m n : Nat) : List Byte :=
  let a := tgetD x.matrix.accs o.acc {}
  let w := tgetD a.vals (64 * m + n) 0#64
  let v := if a.int then ofInt (w.setWidth 32 : BitVec 32).toInt else accValue w
  leBytes (roundTo o.fmt o.rm o.sat a.int v) (fmtSize o.fmt)

/-! ### Posts and remote requests -/

/-- The parts of the state that the posts' and the network's bookkeeping uses. -/
def noPosts (s : State) : State := { aside s with posts := [], btes := [], nextId := 0 }

/-- The parts that a packet on its way out touches: the outbox, the ports' queues, and the free choice of the first
hop (R311). -/
def noNetwork (s : State) : State := { aside s with outbox := [], ports := [], freeNo := 0 }

/-- The template that eight scalar registers hold (R274). -/
def templateIn (g : Group) (r : Nat) : BitVec 512 :=
  getS g (r + 7) ++ getS g (r + 6) ++ getS g (r + 5) ++ getS g (r + 4) ++ getS g (r + 3) ++ getS g (r + 2) ++
    getS g (r + 1) ++ getS g r

/-- The row range that ARG selects of a template with `rows` rows (R277). -/
def ruleRows (rows arg : Nat) : Option (Nat × Nat) :=
  let f := arg / 2 ^ 26 % 2 ^ 26
  let c := if arg % 2 ^ 26 = 0 then rows - f else arg % 2 ^ 26
  if f ≤ rows ∧ f + c ≤ rows then some (f, c) else none

/-- An access that awaits nothing is performed, acknowledged or written back: what a post awaits has come (R127). -/
def postAwaits (s : State) (p : Post) : Prop :=
  ∀ i ∈ p.awaits, tget s.outs i = none ∧ tget s.writeBacks i = none ∧ ∀ c ∈ s.cores, ∀ d ∈ c.2.dirty, d.id ≠ i

/-- A packet of another device can arrive: a port is in RUN (R312). -/
def Linked (s : State) : Prop := linked s = true

/-- The team of every post that still stands runs, so that its BTEs hold nothing back from it (R403). -/
def PostsSeated (s : State) : Prop :=
  ∀ q ∈ s.posts, ∀ x, tget s.teams q.2.team = some x → x.phase = .resident ∨ x.phase = .stopping

/-! ### Conversations -/

/-- The entries of a protocol image (R279): entry (state, kind) at byte 64 + 32 × state + 2 × kind. -/
def imageEntries (l : List Byte) : List (BitVec 16) :=
  (List.range 512).map fun k => BitVec.ofNat 16 (leNat ((l.drop (64 + 2 * k)).take 2))

/-- An image is well formed (R280): no reserved bit is set, every role lies below NROLE, and the branches of a state have
one sender. -/
def ImageSound (l : List Byte) : Prop :=
  let h := leNat (l.take 8)
  let nrole := h / 256 % 8 + 1
  let e (st k : Nat) : BitVec 16 := (imageEntries l).getD (16 * st + k) 0#16
  h < 2 ^ 11 ∧ h / 32 % 8 = 0 ∧ (∀ b ∈ (l.drop 8).take 56, b = 0#8) ∧
  (∀ st k, st < 32 → k < 16 → (e st k).extractLsb' 0 3 = 0#3 ∧ ((e st k).extractLsb' 12 3).toNat < nrole ∧
    ((e st k).extractLsb' 9 3).toNat < nrole) ∧
  ∀ st j k, st < 32 → j < 16 → k < 16 → (e st j).getLsbD 3 = true → (e st k).getLsbD 3 = true →
    (e st j).extractLsb' 12 3 = (e st k).extractLsb' 12 3

/-- What a conversation instruction asks of the home of its handle (R282 to R285), and the registers it writes. -/
structure ConvRule where
  sources : List Nat
  dests : List Nat := []
  op : Nat
  handle : Word
  role : Nat := 0
  kind : Nat := 0
  payload : List Word := []

/-- The requests of CBIND, CSEND, CRECV, CDELEG and CCLOSE. -/
def convRule (i : Instr) (g : Group) : Option ConvRule :=
  match i with
  | .cbind o =>
    some { sources := [o.sa.toNat], dests := [o.sd.toNat], op := 2, handle := getS g o.sa.toNat, role := o.role.toNat }
  | .csend o =>
    let run := (List.range o.n.toNat).map (o.sb.toNat + ·)
    some { sources := o.sa.toNat :: run, op := 0, handle := getS g o.sa.toNat, role := o.role.toNat, kind := o.kind.toNat
           payload := run.map (getS g) }
  | .crecv o =>
    some { sources := [o.sa.toNat], dests := o.sd.toNat :: (List.range 8).map (o.sb.toNat + ·), op := 1
           handle := getS g o.sa.toNat, role := o.role.toNat }
  | .cdeleg o => some { sources := [o.sa.toNat], op := 3, handle := getS g o.sa.toNat, role := o.role.toNat }
  | .cclose o => some { sources := [o.sa.toNat], op := 4, handle := getS g o.sa.toNat }
  | _ => none

/-- The home's verdict on a request of a party for an object (R282 to R285, R327, R328): none where it waits; else 0 or the
trap code, the values that go back, and the object after it. -/
def ruleVerdict (p : Protocol) (c : Conversation) (party : Party) (gen op role kind : Nat) (payload : List Word) :
    Option (Nat × List Word × Conversation) :=
  let open_ := c.live = true ∧ c.gen % 65536 = gen
  let held := tget c.roles role = some party
  let e := p.entries.getD (16 * c.state + kind) 0#16
  if op = 2 then
    if ¬open_ then some (0, [3#64], c)
    else if p.nrole ≤ role then some (0, [2#64], c)
    else if tget c.roles role ≠ none ∧ ¬held then some (0, [1#64], c)
    else some (0, [0#64], { c with roles := tset c.roles role party })
  else if ¬open_ then some (0x22, [], c)
  else if op = 4 then
    if ∀ r ∈ c.roles, r.2 ≠ party then some (0x21, [], c)
    else some (0, [], { c with live := false, gen := c.gen + 1, msgs := [], roles := [] })
  else if ¬held then some (0x21, [], c)
  else if op = 3 then some (0, [], { c with roles := terase c.roles role })
  else if op = 1 then
    (c.msgs.find? fun q => q.receiver = role).map fun q =>
      (0, BitVec.ofNat 64 (q.kind + 16 * q.sender + 128 * q.payload.length) :: q.payload, { c with msgs := c.msgs.erase q })
  else if 16 ≤ c.msgs.length then none
  else if e.getLsbD 15 = false ∨ (e.extractLsb' 12 3).toNat ≠ role then some (0x21, [], c)
  else
    let q : ConvQueued := { kind := kind, sender := role, receiver := (e.extractLsb' 9 3).toNat, payload := payload }
    some (0, [], { c with state := (e.extractLsb' 4 5).toNat, msgs := c.msgs ++ [q] })

/-- The party as which a group acts on a role of a handle: the one that bound the role, else the group's own (R282). -/
def ruleParty (s : State) (r : ConvRule) : Nat :=
  (((curGroup s).farRoles.find? fun x => x.1 == r.handle && x.2.1 == r.role).map (·.2.2)).getD s.cur.gid

/-- What a group knows to hold at homes of other devices after an answer of such a home to a bind, a delegation or a close
(R282, R285): handle, role and party. -/
def ruleRoles (s : State) (r : ConvRule) (code : Nat) : List (Word × Nat × Nat) :=
  let l := (curGroup s).farRoles
  let others := l.filter fun x => !(x.1 == r.handle && x.2.1 == r.role)
  if (r.handle.extractLsb' 56 8).toNat = devNo s then l
  else if r.op = 2 then (if code = 0 then others ++ [(r.handle, r.role, ruleParty s r)] else l)
  else if r.op = 3 then others
  else if r.op = 4 then l.filter fun x => x.1 != r.handle
  else l

/-- The request that an instruction sends. -/
def ruleRequest (s : State) (r : ConvRule) : ConvRequest :=
  { gid := s.cur.gid, entry := s.cur.entry, party := ruleParty s r, op := r.op, handle := r.handle, role := r.role
    kind := r.kind, payload := r.payload }

/-- The parts of the state that a conversation request touches. -/
def noConvs (s : State) : State := { noNetwork s with convs := [], convRequests := [], btes := [], nextId := 0 }

/-! ### Links and spawning -/

/-- Word k of a push (R231): an active lane's bytes and poison at its place, zeros elsewhere. -/
def PushedWord (g : Group) (va : Nat) (lanes : List Nat) (k : Nat) (x : LinkWord) : Prop :=
  ∀ i, i < 16 →
    x.bytes.extractLsb' (32 * i) 32 = (if lanes.contains (16 * k + i) then getV g va (16 * k + i) else 0#32) ∧
    x.poison.getLsbD i = (lanes.contains (16 * k + i) && poisonedV g va (16 * k + i))

/-- One queue of one core changes, and nothing else but the group's own work. -/
def OnlyLink (s t : State) (core dir : Nat) (q : List LinkWord) : Prop :=
  (∀ c, c ≠ core → coreAt t c = coreAt s c) ∧
  coreAt t core = { coreAt s core with links := tset (coreAt s core).links dir q } ∧ noCores t = noCores s ∧
  (∀ j, j ≠ s.cur.gid → tget t.groups j = tget s.groups j)

/-- A record that SPAWN deposits for a lane (R259): its four argument words, and which of them are poisoned. -/
def spawnArgs (g : Group) (va l : Nat) : List Lane × List Nat :=
  ((List.range 4).map fun k => getV g (va + k) l, (List.range 4).filter fun k => poisonedV g (va + k) l)

/-- A bin's group has been launched (R38, R49, R67, R260): a new spawned group of its core at width 16, whose first lanes
hold the records, in the order of their spawns, with ARGS, the number of records and the counter's address in s0 to
s2, one strand at the entry address;
the bin is empty. -/
def BinLaunched (s t : State) (core bin : Nat) (b : Bin) : Prop :=
  let l := tgetD s.launches b.launch {}
  let n := b.recs.length
  t.teams = s.teams ∧ (∀ c, c ≠ core → coreAt t c = coreAt s c) ∧
  coreAt t core = { coreAt s core with bins := terase (coreAt s core).bins bin } ∧
  { noCores t with rowBlocks := [], spawned := [], nextId := 0 } =
    { noCores s with rowBlocks := [], spawned := [], nextId := 0 } ∧
  ∃ gid k g, s.nextId ≤ gid ∧ tget t.groups gid = some g ∧ (∀ j, j ≠ gid → tget t.groups j = tget s.groups j) ∧
    (∀ j, j ≠ k → tget t.spawned j = tget s.spawned j) ∧
    (tget t.spawned k).map (fun x => (x.launch, x.count, x.counter, x.orders)) =
      some (b.launch, n, b.counter, b.recs.map (·.order)) ∧
    g.owner = .spawned k ∧ g.core = core ∧ g.slot ∈ freeSlots s core ∧ g.width = 16 ∧ g.handler = none ∧
    (g.stack.map fun e => (e.pc, e.mask)) = [(b.entry, maskWhere fun l => decide (l < n))] ∧
    getS g 0 = BitVec.ofNat 64 (recField l.record 640 57) ∧ getS g 1 = BitVec.ofNat 64 n ∧ getS g 2 = b.counter ∧
    ∀ j r, j < n → j < 64 → r < 4 → getV g r j = ((b.recs.getD j {}).args.getD r 0#32) ∧
      poisonedV g r j = (b.recs.getD j {}).bad.contains r

/-! ### Special registers, machine state and traps -/

/-- sr.chk (R409). -/
def ruleChk (c : Chk) : Nat :=
  (if c.pc then 1 else 0) + (if c.pw then 2 else 0) + (if c.pb then 4 else 0) + 2 ^ 8 * min 255 c.mmcnt +
    2 ^ 16 * min 255 c.rbcnt

/-- The sticky bits of the group's team or spawned group. -/
def chkRecord (s : State) (g : Group) : Chk :=
  match g.owner with
  | .team t => (tgetD s.teams t {}).chk
  | .spawned k => (tgetD s.spawned k {}).chk

/-- A coach of the group is abroad (R99, R287). -/
def abroad (s : State) : Prop :=
  ∃ o ∈ s.outs, o.2.gid = s.cur.gid ∧ o.2.coach ≠ none ∧ o.2.done = false ∧
    (o.2.kind = .load ∨ o.2.kind = .atomic ∨ o.2.kind = .xcvt)

open Classical in
/-- sr.status (R287). -/
noncomputable def ruleStatus (s : State) : Nat :=
  let g := curGroup s
  (if g.ref then 1 else 0) + (if abroad s then 2 else 0) + (if g.parked then 4 else 0) + (if g.mcmask then 8 else 0) +
    (if hmode g then 16 else 0) + (if g.sstep then 32 else 0) + (if (curStrand s).noPre then 64 else 0) +
    2 ^ 8 * g.tcode.toNat

/-- Bits 64 k to 64 k + 63 of the membership bitmap of the view (R286, R310). -/
def ruleViewMap (s : State) (k : Nat) : Word := maskWhere fun j => (members s).contains (64 * k + j)

/-- The special registers, in a lane (R286). -/
noncomputable def ruleSpecial (s : State) (idx l : Nat) : Word :=
  let g := curGroup s
  let h := g.handler.getD {}
  match idx with
  | 0 => BitVec.ofNat 64 l
  | 1 => BitVec.ofNat 64 (g.laneNo.getD l 0)
  | 2 => BitVec.ofNat 64 g.width
  | 3 => BitVec.ofNat 64 g.slot
  | 4 => (match g.owner with
    | .team t => BitVec.ofNat 64 (tgetD s.teams t {}).num
    | .spawned _ => BitVec.allOnes 64)
  | 5 => BitVec.ofNat 64 g.core
  | 6 => BitVec.ofNat 64 (g.core / 14)
  | 7 => BitVec.ofNat 64 (s.fabric.frpos.toNat % 256)
  | 8 => BitVec.ofNat 64 (launchKey s g)
  | 9 => BitVec.ofNat 64 (coreAt s g.core).cycle
  | 10 => BitVec.ofNat 64 (curView s)
  | 11 => ruleViewMap s 0
  | 12 => ruleViewMap s 1
  | 13 => ruleViewMap s 2
  | 14 => ruleViewMap s 3
  | 15 => BitVec.ofNat 64 (ruleChk (chkRecord s g))
  | 16 => (match g.owner with
    | .team t => BitVec.ofNat 64 (tgetD s.teams t {}).refusals
    | .spawned _ => BitVec.ofNat 64 g.refusals)
  | 17 => BitVec.ofNat 64 (ruleStatus s)
  | 18 => h.tpc
  | 19 => h.tinfo
  | _ => h.taddr

/-- The state that classes 1 to 9 read, with its poison; none where the index or s(sa) is out of range (R288, R289). -/
def ruleMachine (s : State) (cls idx a : Nat) : Option (Word × Bool) :=
  let g := curGroup s
  let plain (w : Word) : Option (Word × Bool) := some (w, false)
  match cls with
  | 1 => if idx < declV s g ∧ a < g.width then some ((getV g idx a).setWidth 64, poisonedV g idx a) else none
  | 2 => if idx < declS s g then some (tgetD g.sregs idx 0#64, g.spoison.contains idx) else none
  | 3 =>
    if idx < 4 then plain (maskWhere fun k => decide (64 * idx + k < declV s g) && g.vfull.getLsbD (64 * idx + k))
    else plain (maskWhere fun k => decide (64 * (idx - 4) + k < declS s g) && g.sfull.getLsbD (64 * (idx - 4) + k))
  | 4 =>
    if idx < 8 then plain (maskWhere fun l => decide (l < g.width) && (getP g idx).getLsbD l)
    else plain (if getQ g (idx - 8) then 1#64 else 0#64)
  | 5 =>
    if idx = 4 then (if a = 0 then plain (BitVec.ofNat 64 g.stack.length) else none)
    else if 512 ≤ a then none
    else plain ((g.stack[a]?).elim 0#64 fun e =>
      match idx with
      | 0 => e.pc
      | 1 => e.mask
      | 2 => e.reconv.getD (BitVec.allOnes 64)
      | _ => if e.mode = .live then 1#64 else if e.mode = .pending then 2#64 else 3#64)
  | 6 =>
    if 3 ≤ a then none
    else plain ((pointOf s g idx).elim 0#64 fun p =>
      if a = 0 then BitVec.ofNat 64 p.2.arrived
      else if a = 1 then BitVec.ofNat 64 p.2.expected
      else BitVec.ofNat 64 ((if p.2.phase then 1 else 0) + 2 + (if p.1 then 4 else 0)))
  | 7 =>
    if 2 ≤ a then none
    else
      let e := tgetD (teamOf s g).tiles idx 0#128
      let e := ((g.handler.bind fun h => tget h.tileStates idx).map fun st => ruleState e (BitVec.ofNat 2 st)).getD e
      plain (e.extractLsb' (64 * a) 64)
  | 8 => if 16384 ≤ a then none else plain (tgetD (tgetD (teamOf s g).matrix.accs idx {}).vals a 0#64)
  | 9 => if 8 ≤ a then none else plain ((tgetD (teamOf s g).templates idx {}).bits.extractLsb' (64 * a) 64)
  | _ => none

/-- The register that an access of class 1 or 2 names by its index lies below the declaration (R164, R288). -/
def IndexDeclared (s : State) (cls : BitVec 5) (idx : Nat) : Prop :=
  (cls = 1#5 → idx < declV s (curGroup s)) ∧ (cls = 2#5 → idx < declS s (curGroup s))

/-- Classes 1 and 5 to 9 take s(sa) (R288). -/
def usesLane (cls : BitVec 5) : Prop := cls = 1#5 ∨ 5 ≤ cls.toNat

/-- A register that a reply or a coach on its way will fill or restore (R289). -/
def AwaitsReply (s : State) (r : Nat) (scalar : Bool) : Prop :=
  ∃ o ∈ s.outs, o.2.gid = s.cur.gid ∧ o.2.done = false ∧ o.2.scalar = scalar ∧ o.2.hreg = false ∧
    (o.2.kind = .load ∨ o.2.kind = .atomic ∨ o.2.kind = .xcvt) ∧
    (scalar = true ∧ o.2.reg = r ∨
     scalar = false ∧ (o.2.reg ≤ r ∧ r < o.2.reg + o.2.nreg ∨
       ∃ c, o.2.coach = some c ∧ c.base ≤ r ∧ r < c.base + c.count))

/-- A stack entry with its PC, mask or reconvergence PC written (R289). -/
def EntryWritten (idx : Nat) (v : Word) (e f : Entry) : Prop :=
  f.pc = (if idx = 0 then v else e.pc) ∧ f.mask = (if idx = 1 then v else e.mask) ∧
  f.reconv = (if idx = 2 then (if v.toNat < 2 ^ 57 then some v else none) else e.reconv) ∧
  { f with
      pc := e.pc, mask := e.mask, reconv := e.reconv, stage := 0, request := 0, spawnLane := 0, waitsOn := none
      released := false } =
    { e with stage := 0, request := 0, spawnLane := 0, waitsOn := none, released := false }

/-- A rendezvous point after a write of its arrived count, expected count or flags (R289); none where the point stays
or becomes uninitialised. -/
def rulePointWrite (p : Option (Bool × Point)) (a : Nat) (v : Word) : Option (Bool × Point) :=
  match p with
  | none => if a = 2 ∧ v.getLsbD 1 = true then some (false, { init := true }) else none
  | some (d, p) =>
    if a = 0 then
      some (d, if p.expected ≤ v.toNat then { p with arrived := 0, phase := !p.phase } else { p with arrived := v.toNat })
    else if a = 1 then some (d, { p with expected := v.toNat })
    else if d = false ∧ v.getLsbD 1 = false then none
    else some (d, { p with phase := v.getLsbD 0 })

/-- The tile entry after a write of one of its words (R88, R289): every field but STATE is as written, and rsv is 0. -/
def ruleTileWrite (e : BitVec 128) (a : Nat) (v : Word) : BitVec 128 :=
  (BitVec.ofBoolListLE ((List.range 128).map fun k =>
    let field := k = 2 ∨ 8 ≤ k ∧ k < 10 ∨ 16 ≤ k ∧ k < 28 ∨ 32 ≤ k ∧ k < 43 ∨ 48 ≤ k ∧ k < 59 ∨ 64 ≤ k ∧ k < 79
    if k / 64 ≠ a ∨ k < 2 then e.getLsbD k else decide field && v.getLsbD (k - 64 * a))).setWidth 128

/-- What a trap leaves in its group (R358): the handler strand at the HANDLER address with every lane that has not
exited, the eight handler registers, HMODE, TCODE and the saved registers; the stack and the group's own registers stay. -/
def HandlerEntered (s t : State) (g h : Group) (e : Entry) (info : TrapInfo) (tpc : Word) : Prop :=
  let l := launchOf s g
  let tinfo : Word := BitVec.ofNat 64 (info.code.toNat + 2 ^ 8 * (info.lane % 64) + 2 ^ 16 * info.imm.toNat)
  ∃ k, h.handler = some k ∧ k.strand.pc = BitVec.ofNat 64 (recField l.record 384 57) ∧
    (∀ j, j < 64 → (k.strand.mask.getLsbD j = true ↔ ∃ x ∈ g.stack, x.mask.getLsbD j = true)) ∧
    k.strand.block = none ∧ k.strand.reconv = none ∧ k.tpc = tpc ∧ k.tinfo = tinfo ∧ k.taddr = info.addr ∧
    (List.range 8).map (getS h) = [tinfo, tpc, info.addr, BitVec.ofNat 64 (g.stack.findIdx fun x => x.id == e.id), e.mask,
      BitVec.ofNat 64 (recField l.record 640 57), 0#64, 0#64] ∧
    (∀ r, r < 8 → fullS h r = true ∧ poisonedS h r = false) ∧ h.tcode = info.code ∧
    { noScalars h with handler := none, tcode := 0#8, stepping := none, fuse := none } =
      { noScalars g with handler := none, tcode := 0#8, stepping := none, fuse := none } ∧ h.fuse = none ∧
    h.sregs = g.sregs ∧ (∀ r, r < 128 → h.spoison.contains r = g.spoison.contains r) ∧
    t.teams = s.teams ∧ { aside t with stops := [] } = { aside s with stops := [] }

/-- A launch has been aborted (R361): it is marked, its spawn records are discarded, and the management core has an event
with its sequence number, the team number, core, slot, PC and trap code; groups and teams stay as they are. -/
def LaunchAborted (s t : State) (g : Group) (pc : Word) (code : BitVec 8) : Prop :=
  let k := launchKey s g
  (∀ l, tget s.launches k = some l → l.aborted = false →
    tget t.launches k = some { l with aborted := true } ∧ (∀ j, j ≠ k → tget t.launches j = tget s.launches j) ∧
    (∀ c, coreAt t c = { coreAt s c with bins := (coreAt s c).bins.filter fun b => b.2.launch != k }) ∧
    t.mgmt = s.mgmt ++ [{ kind := 0, nums := [k, (teamNumber s g).toNat, g.core, g.slot, pc.toNat, code.toNat] }] ∧
    { aside t with launches := [], cores := [], mgmt := [] } = { aside s with launches := [], cores := [], mgmt := [] }) ∧
  (tget s.launches k = none ∨ (launchOf s g).aborted = true → aside t = aside s) ∧ t.teams = s.teams

/-! ### Coaches -/

/-- An instruction completes, and something holds of its next state. -/
def Takes (i : Instr) (s : State) (p : State → Prop) : Prop := ∃ t, exec i s = .next t ∧ p t

/-- Groups and teams stay as they are. -/
def SameWork (s t : State) : Prop := t.groups = s.groups ∧ t.teams = s.teams

/-- The state without accesses and trains. -/
def noOuts (s : State) : State := { noTrains (aside s) with outs := [], nextId := 0 }

/-- An access without what atomics of other units may have left with its lanes (R116). -/
def noEarly (o : Out) : Out := { o with lanes := o.lanes.map fun a => { a with early := none } }

/-- An access has a coach abroad. -/
def HasCoach (s : State) (id : Nat) (o : Out) (c : Coach) : Prop := tget s.outs id = some o ∧ o.coach = some c

/-- Of the accesses only the coach of one changes. -/
def OnlyCoach (s t : State) (id : Nat) (o : Out) (c : Coach) : Prop :=
  tget t.outs id = some { o with coach := some c } ∧ ∀ k, k ≠ id → tget t.outs k = tget s.outs k

/-- A source's trains, oldest first (R96). -/
def trainsOf (s : State) (k : Nat) : List Nat := (sourceAt s k).flight ++ (sourceAt s k).inject

/-- The golden identity has come to source k, or to the next after it that has a train, whose oldest train is golden; with
no train anywhere it stays at k (R97). -/
def GoldenFrom (t : State) (k : Nat) : Prop :=
  t.goldenHold = none ∧
  ((∃ j, j < 294 ∧ (∀ i, i < j → trainsOf t ((k + i) % 294) = []) ∧ trainsOf t ((k + j) % 294) ≠ [] ∧
      t.golden = (k + j) % 294 ∧ t.goldenTrain = (trainsOf t ((k + j) % 294)).head?) ∨
    (∀ i, i < 294 → trainsOf t ((k + i) % 294) = []) ∧ t.golden = k % 294 ∧ t.goldenTrain = none)

/-- The golden identity stays where it is. -/
def GoldenKept (s t : State) : Prop :=
  t.golden = s.golden ∧ t.goldenTrain = s.goldenTrain ∧ t.goldenHold = s.goldenHold

/-- A train has left its source (R96). -/
def TrainLeft (s t : State) (id : Nat) (x : Train) : Prop :=
  t.trains = terase s.trains id ∧ (∀ k, k ≠ x.src → sourceAt t k = sourceAt s k) ∧
  sourceAt t x.src = { inject := (sourceAt s x.src).inject.filter (· ≠ id)
                       flight := (sourceAt s x.src).flight.filter (· ≠ id) }

/-- A train has been delivered (R96, R97): it has left its source, and the golden identity has passed on where it was the
golden one. -/
def TrainGone (s t : State) (id : Nat) (x : Train) : Prop :=
  TrainLeft s t id x ∧ (s.goldenTrain = some id → GoldenFrom t (s.golden + 1)) ∧ (s.goldenTrain ≠ some id → GoldenKept s t)

/-- The train that carries a coach. -/
def Carries (s : State) (id n : Nat) (x : Train) : Prop :=
  s.trains.find? (fun t => t.2.cargo == .coach && t.2.item == id) = some (n, x) ∧ tget s.trains n = some x

/-- No coach of a core is about to leave for its anchor (R132). -/
def NoneLeaves (s : State) (core : Nat) : Prop :=
  ∀ o ∈ s.outs, o.2.core = core → ∀ c, o.2.coach = some c → c.phase = .queued → outReady o.2 = true →
    ∃ t ∈ s.trains, t.2.cargo = .coach ∧ t.2.item = o.1

/-- The store of a slice has room for a coach (R99): 8,192 carriages and 4,096 headers. -/
def StoreRoom (s : State) (c : Coach) : Prop :=
  let l := s.outs.filterMap fun o => o.2.coach.filter fun x => decide (x.phase = .stored) && x.anchor == c.anchor
  (l.map (·.carriages)).sum + c.carriages ≤ 8192 ∧ l.length < 4096

/-- The status with which a lane fails at the anchor (R393): outside the DRAM window 0x10; while a port that is LOCKED
or RUN grants the context, outside its range 0x11; 0 where it passes. -/
def RuleLane (s : State) (o : Out) (a : LaneAcc) (st : Nat) : Prop :=
  let ranges : Prop := ∀ p ∈ s.ports, (p.2.state = 2 ∨ p.2.state = 3) → p.2.qmask.getLsbD o.ctx = true →
    (p.2.cfg.extractLsb' 16 10).toNat * 2 ^ 30 ≤ a.pa ∧ a.pa + o.size ≤ (p.2.cfg.extractLsb' 32 10).toNat * 2 ^ 30
  (o.space = 1 → st = 0) ∧
  (o.space ≠ 1 → Config.dramSize < a.pa + o.size → st = 0x10) ∧
  (o.space ≠ 1 → a.pa + o.size ≤ Config.dramSize → (ranges → st = 0) ∧ (¬ranges → st = 0x11))

/-- A coach has left its anchor for its core on a new train of the slice's source (R95, R96). -/
def HeadsHome (t : State) (id new anchor : Nat) : Prop :=
  tget t.trains new = some { src := 196 + anchor, cargo := .coach, item := id, home := true } ∧
  (sourceAt t (196 + anchor)).inject.getLast? = some new

/-- The rows that a landing coach needs (R100, R44): every row of its own of a parked group of width 16 or more that is not
abroad with other coaches, else those of its escorts. -/
def landingRows (s : State) (o : Out) (g : Group) (c : Coach) : Nat :=
  if c.park && g.parked && decide (16 ≤ g.width) then
    ownRows s o.gid g - (escortsOut s o.gid g - escortRows c.count g.width)
  else escortRows c.count g.width

/-- A coach's escort registers are back in its group (R41, R44, R100): their values, poison and full bits; a parked group
of width 16 or more reads 0 and full in every other register that awaits nothing, and any other register is as it was,
but for the destination registers `fills`. The rows come from the file, or the group has an image in the landing area. -/
def Reseated (s : State) (o : Out) (c : Coach) (fills : List Nat) (g h : Group) : Prop :=
  let escort (r : Nat) : Prop := c.base ≤ r ∧ r < c.base + c.count
  let home := c.park = true ∧ g.parked = true
  (∀ r l, escort r → r ∉ fills → l < 64 →
    (∀ v, tget c.payload (laneKey r l) = some v → getV h r l = v) ∧ poisonedV h r l = c.poison.contains (laneKey r l)) ∧
  (∀ r, r < 256 → escort r → fullV h r = true) ∧
  (∀ r l, r < 256 → l < 64 → ¬escort r → r ∉ fills → (home → g.width < 16) →
    getV h r l = getV g r l ∧ poisonedV h r l = poisonedV g r l ∧ fullV h r = fullV g r) ∧
  (∀ r l, r < 256 → l < 64 → ¬escort r → r ∉ fills → home → 16 ≤ g.width → (awaitedV s o.gid).contains r = false →
    getV h r l = 0#32 ∧ poisonedV h r l = false ∧ fullV h r = true) ∧
  h.parked = (g.parked && !c.park) ∧
  (landingRows s o g c ≤ freeRows s o.core → h.image = g.image ∧ h.rowsOut = g.rowsOut) ∧
  h.sregs = g.sregs ∧ h.sfull = g.sfull ∧ h.preds = g.preds ∧ h.unis = g.unis ∧ h.rstack = g.rstack

/-- A core without its L1's lines and its write-backs to come. -/
def noDirty (c : Core) : Core := { c with lines := [], dirty := [], sending := none }

/-- A landed coach's tag is free again, in its next generation (R104). -/
def TagFreed (s t : State) (o : Out) (c : Coach) : Prop :=
  tgetD (coreAt t o.core).tagGens c.tag 0 = (c.gen + 1) % 64 ∧
  (∀ k, k ≠ c.tag → tget (coreAt t o.core).tagGens k = tget (coreAt s o.core).tagGens k) ∧
  ∀ k, k ≠ o.core → noDirty (coreAt t k) = noDirty (coreAt s k)

/-- Groups held in the landing area of a core, a saved team's apart. -/
def images (s : State) (core : Nat) : List (Nat × Group) :=
  s.groups.filter fun g => g.2.core == core && g.2.image && !isSaved s g.2

/-! ### Write-backs, owners, promotions and page walks -/

/-- Dirty sectors with those marked whose write-back is asked for. -/
def marked (p : Nat → Bool) (l : List Dirty) : List Dirty := l.map fun d => { d with asked := d.asked || p d.sector }

/-- A new train waits at a source (R96). -/
def TrainWaits (s t : State) (src : Nat) (cargo : Cargo) (item : Nat) (home : Bool) : Prop :=
  ∃ n, s.nextId ≤ n ∧ tget t.trains n = some { src := src, cargo := cargo, item := item, home := home } ∧
    (sourceAt t src).inject = (sourceAt s src).inject ++ [n]

/-- A core whose dirty sectors are `l`, oldest first, sends the oldest where some write-back is asked for and none is on
its way (R80, R96, R118): the sector's bytes and dirty mask leave on a train, and are no longer narrow-dirty in the L1, which
keeps them as bytes that memory does not have yet. -/
def SendsOldest (s t : State) (c : Nat) (l : List Dirty) : Prop :=
  let x := coreAt s c
  (∀ k, k ≠ c → coreAt t k = coreAt s k) ∧
  ((x.sending ≠ none ∨ l = [] ∨ ∀ d ∈ l, d.asked = false) →
    coreAt t c = { x with dirty := l } ∧ t.writeBacks = s.writeBacks ∧ t.trains = s.trains ∧ t.sources = s.sources) ∧
  ∀ d r, x.sending = none → l = d :: r → (∃ y ∈ l, y.asked = true) →
    let n := tgetD x.lines (d.sector / 4) {}
    let here (j : Nat) : Bool := n.dirty.getLsbD j && decide (j / 32 = d.sector % 4)
    { coreAt t c with lines := [] } = { x with lines := [], dirty := r, sending := some d.id } ∧
    (∀ k, k ≠ d.sector / 4 → tget (coreAt t c).lines k = tget x.lines k) ∧
    (∃ m, tget (coreAt t c).lines (d.sector / 4) = some m ∧
      { m with dirty := 0#128, leaving := 0#128 } = { n with dirty := 0#128, leaving := 0#128 } ∧
      ∀ j, j < 128 → m.dirty.getLsbD j = (n.dirty.getLsbD j && !here j) ∧
        m.leaving.getLsbD j = (n.leaving.getLsbD j || here j)) ∧
    (∀ k, k ≠ d.id → tget t.writeBacks k = tget s.writeBacks k) ∧ TrainWaits s t c .writeBack d.id false ∧
    ∃ w, tget t.writeBacks d.id = some w ∧ w.core = c ∧ w.sector = d.sector ∧ w.owners = d.owners ∧
      w.performed = false ∧ w.away = true ∧ w.order = s.nextId ∧
      (∀ j, j < 32 → w.mask.getLsbD j = n.dirty.getLsbD (32 * (d.sector % 4) + j) ∧
        w.data.extractLsb' (8 * j) 8 = n.data.extractLsb' (8 * (32 * (d.sector % 4) + j)) 8) ∧
      ∀ j, j < 4 → w.poison.getLsbD j = n.poison.getLsbD (4 * (d.sector % 4) + j)

/-- The bytes of a sector in an L1 are clean once their write-back is performed; nothing else of the cores changes. -/
def SectorClean (s t : State) (c sector : Nat) : Prop :=
  (∀ k, k ≠ c → coreAt t k = coreAt s k) ∧
  { coreAt t c with lines := [] } = { coreAt s c with lines := [] } ∧
  (∀ k, k ≠ sector / 4 → tget (coreAt t c).lines k = tget (coreAt s c).lines k) ∧
  (tget (coreAt s c).lines (sector / 4) = none → tget (coreAt t c).lines (sector / 4) = none) ∧
  ∀ n, tget (coreAt s c).lines (sector / 4) = some n → ∃ m, tget (coreAt t c).lines (sector / 4) = some m ∧
    { m with leaving := 0#128 } = { n with leaving := 0#128 } ∧
    ∀ j, j < 128 → m.leaving.getLsbD j = (n.leaving.getLsbD j && decide (j / 32 ≠ sector % 4))

/-- The state without cores, write-backs, notices, owner tables, promotions and trains. -/
def noOwners (s : State) : State :=
  { noTrains (noCores s) with writeBacks := [], notices := [], owners := [], promotions := [], nextId := 0 }

/-- What a train that carries no coach brought has arrived (R96). -/
def Unloaded (s t : State) (x : Train) : Prop :=
  (∀ k, tget t.outs k = if x.cargo = .access ∧ k = x.item then (tget s.outs k).map fun o => { o with away := false }
    else tget s.outs k) ∧
  (∀ k, tget t.writeBacks k = if x.cargo = .writeBack ∧ k = x.item then
    (tget s.writeBacks k).map fun w => { w with away := false } else tget s.writeBacks k) ∧
  (∀ k, tget t.notices k = if x.cargo = .notice ∧ k = x.item then
    (tget s.notices k).map fun n => { n with away := false } else tget s.notices k) ∧
  ∀ k, tget t.promotions k = if x.cargo = .promotion ∧ k = x.item then
    (tget s.promotions k).map fun p => { p with away := false } else tget s.promotions k

/-- The owner table of a line's home slice (R80, R81). -/
def ownersOf (s : State) (line : Nat) : List (Nat × Nat) := tgetD s.owners (homeSlice (128 * line)) []

/-- Nothing that a core has sent of a line before a place in its order has still to come to the slice (R80). -/
def Foremost (s : State) (core line order : Nat) : Prop :=
  (∀ w ∈ s.writeBacks, w.2.core = core → w.2.sector / 4 = line → w.2.order < order → w.2.performed = true) ∧
  ∀ n ∈ s.notices, n.2.core = core → n.2.line = line → order ≤ n.1

/-- A region lies in the range of every LOCKED or RUN port that grants a context (R345). -/
def inRanges (s : State) (ctx lo n : Nat) : Bool :=
  s.ports.all fun p => !((p.2.state == 2 || p.2.state == 3) && p.2.qmask.getLsbD ctx) ||
    (decide (p.2.cfg.toNat / 2 ^ 16 % 1024 * 2 ^ 30 ≤ lo) && decide (lo + n ≤ p.2.cfg.toNat / 2 ^ 32 % 1024 * 2 ^ 30))

/-- The sizes of pages by their code, and the level at which a leaf of a code stands (R83, R84). -/
def ruleSizes : List (Nat × Nat) :=
  [(2 ^ 12, 0), (2 ^ 14, 0), (2 ^ 16, 0), (2 ^ 18, 0), (2 ^ 21, 1), (2 ^ 25, 1), (2 ^ 30, 2), (2 ^ 34, 2)]

/-- How a walk from a table of a level ends (R82 to R85, R345, R408), spelled from the fields of R83. -/
def ruleWalk (s : State) (ctx va : Nat) : (level table : Nat) → WalkEnd
  | level, table =>
    if Config.dramSize < table + 4096 ∨ inRanges s ctx table 4096 = false then .fault 0x11 false
    else
      let a := table + 8 * (va / 2 ^ (12 + 9 * level) % 512)
      let e := leNat (mread s.mem a 8)
      let pfn := e / 2 ^ 12 % 2 ^ 40 * 4096
      if s.poison.contains (a / 8) = true then .fault 0x10 true
      else if e % 2 = 0 ∨ e / 4 % 8 ≠ 0 ∨ e / 32 % 4 ≥ 2 ∨ e / 128 % 32 ≠ 0 ∨ e / 2 ^ 52 % 128 ≠ 0 then .fault 0x10 false
      else if e / 2 % 2 = 1 then
        let (size, lv) := ruleSizes.getD (e / 2 ^ 61) (4096, 9)
        if level ≠ lv ∨ pfn % size ≠ 0 then .fault 0x10 false
        else if Config.dramSize < pfn + size ∨ inRanges s ctx pfn size = false then .fault 0x11 false
        else .page { ctx := ctx, vbase := va / size * size, size := size, pbase := pfn, x := e / 2 ^ 60 % 2 == 1
                     w := e / 2 ^ 59 % 2 == 1, mtype := e / 32 % 4 }
      else
        match level with
        | 0 => .fault 0x10 false
        | l + 1 => if e / 2 ^ 61 ≠ 0 then .fault 0x10 false else ruleWalk s ctx va l pfn

/-- The state without walks, their faults and the TLBs. -/
def noWalks (s : State) : State :=
  { aside s with walks := [], walkFaults := [], tlb2 := [], cores := [], mgmt := [], contexts := [] }

/-- An invalidation in progress awaits a walk and covers the page that it found, which is to be discarded (R87). -/
def PageDiscarded (s : State) (id : Nat) (e : TlbEntry) : Prop :=
  ∃ c ∈ s.contexts, ∃ r, c.2.running = some r ∧ id ∈ r.walks ∧ c.1 = e.ctx ∧
    (r.all = true ∨ e.vbase ≤ r.page * 4096 ∧ r.page * 4096 < e.vbase + e.size)

/-! ### Launch queues, placement and retirement -/

/-- A walk that has ended is awaited by no invalidation (R87). -/
def NotAwaited (s t : State) (id : Nat) : Prop :=
  ∀ n, tget t.contexts n = (tget s.contexts n).map fun c =>
    { c with running := c.running.map fun r => { r with walks := r.walks.filter (· ≠ id) } }

/-- Only one queue changes. -/
def OnlyQueue (s t : State) (n : Nat) (q : Queue) : Prop :=
  SameWork s t ∧ tget t.queues n = some q ∧ (∀ k, k ≠ n → tget t.queues k = tget s.queues k) ∧
  { aside t with queues := [] } = { aside s with queues := [] }

/-- LQTAIL written (R54). -/
def ruleTail (v : Word) (q : Queue) : Queue :=
  let ahead := (v.toNat % 2 ^ 32 + 2 ^ 32 - q.head.toNat) % 2 ^ 32
  if q.dev = true ∨ 2 ^ 31 ≤ ahead ∨ 2 ^ q.log2 < ahead then q else { q with tail := v.setWidth 32 }

/-- SKIP and RESUME act on a halted queue (R51, R53). -/
def ruleResume (skip : Bool) (q : Queue) : Queue :=
  if q.halted then { q with halted := false, code := 0, head := if skip then q.head + 1#32 else q.head } else q

/-- LQCTL written (R51 to R53); where SKIP and RESUME are both 1, SKIP takes effect (log 14). -/
def ruleControl (v : Word) (q : Queue) : Queue :=
  let size := v.toNat / 16 % 32
  let q := if q.en then { q with preok := v.getLsbD 9 }
    else { q with preok := v.getLsbD 9, dev := v.getLsbD 10, log2 := size }
  let q := if v.getLsbD 0 = false then { q with en := false }
    else if q.en = false ∧ (size < 4 ∨ 16 < size) then { q with code := 7 } else { q with en := true }
  if v.getLsbD 1 then ruleResume true q else if v.getLsbD 2 then ruleResume false q else q

/-- The reserved bits of a launch record (R47). -/
def ruleReserved : List (Nat × Nat) :=
  [(964, 1024), (697, 768), (633, 639), (569, 575), (505, 512), (441, 448), (336, 384), (313, 320), (229, 240), (203, 208),
   (197, 200), (188, 192), (182, 184), (179, 180), (175, 176), (121, 128), (57, 64)]

/-- The limits of the launch-record table (R47), with those on RED and alignment (R411). -/
def RecordLimits (r : BitVec 1024) : Prop :=
  let f (lo hi : Nat) : Nat := recField r lo (hi + 1 - lo)
  (∀ x ∈ ruleReserved, ∀ k, x.1 ≤ k → k < x.2 → r.getLsbD k = false) ∧
  f 0 56 % 8 = 0 ∧ f 64 120 % 64 = 0 ∧ 1 ≤ f 128 159 ∧ 1 ≤ f 160 174 ∧ f 160 174 ≤ 16384 ∧ f 176 178 ≤ 4 ∧ f 208 215 ≤ 128 ∧
  f 216 228 ≤ 4096 ∧ 63 ≤ f 240 255 ∧ f 256 312 % 4096 = 0 ∧ 1 ≤ f 320 335 ∧ f 384 440 % 8 = 0 ∧ f 448 504 % 8 = 0 ∧
  (r.getLsbD 575 = true → f 512 568 % 8 = 0) ∧ (r.getLsbD 639 = true → f 576 632 % 8 = 0) ∧
  (r.getLsbD 185 = true → r.getLsbD 186 = true)

/-- A number of bytes at a virtual address of a context; none for a fault. -/
def numberAt (s : State) (ctx : Nat) (va : Word) (n : Nat) : Option Nat :=
  match translateNow s .bare ctx va 0 with
  | .ok (pa, _) => some (leNat (mread s.mem pa n))
  | .error _ => none

/-- The size S of a context record (R60, R66, R413), each section rounded up to 4 KiB. -/
def ruleRecord (r : BitVec 1024) : Nat :=
  let w := 4 * 2 ^ recField r 176 3
  let u := max w 16
  let blocks := (recField r 160 15 + u - 1) / u
  let slots := blocks * u / min w 16
  let rows := 8 * (recField r 192 5 + 1) * blocks * u / 16
  let up (n : Nat) : Nat := (n + 4095) / 4096 * 4096
  let mat := if r.getLsbD 187 then 540672 else 0
  let share := 2048 * recField r 208 8
  4096 + up (18432 * slots) + up (64 * rows) + up share + up (1152 * recField r 216 13) + mat +
    (if r.getLsbD 186 then up (4096 + 18432 * slots + 64 * rows + share + mat) + 524288 + 8192 else 0)

/-- The launch status of the record of a queue (R53): the first check that fails; 0 accepts it. -/
def LaunchStatus (s : State) (n : Nat) (r : BitVec 1024) (code : Nat) : Prop :=
  let header := numberAt s n (BitVec.ofNat 64 (recField r 64 57)) 64
  let pool := ∀ k, k < recField r 320 16 * ruleRecord r / 4096 →
    ∃ x, translateNow s .bare n (BitVec.ofNat 64 (recField r 256 57 + 4096 * k)) 1 = .ok x
  let lesser := ∃ h, header = some h ∧ ∃ x ∈ [(192, 5), (200, 3), (208, 8), (216, 13)],
    recField r x.1 x.2 < h / 2 ^ x.1 % 2 ^ x.2
  let fits := if r.getLsbD 184 then
      gangFits (emptyWith s s.dist.nextSeq { queue := n, record := r }) s.dist.nextSeq = true
    else coreSets r 0 ≠ [] ∧ (r.getLsbD 185 = true → 2 ≤ recField r 320 16)
  let open_ := (tgetD s.contexts n {}).en = true ∧ header ≠ none ∧ pool
  (¬RecordLimits r → code = 3) ∧
  (RecordLimits r → recField r 768 196 = 0 → code = 4) ∧
  (RecordLimits r → recField r 768 196 ≠ 0 →
    (¬open_ → code = 5) ∧ (open_ → lesser → code = 6) ∧
    (open_ → ¬lesser → (fits → code = 0) ∧ (¬fits → code = if r.getLsbD 184 then 1 else 2)))

/-- An active launch of a queue has an unplaced team (R55). -/
def Unplaced (s : State) (n : Nat) : Prop :=
  ∃ l ∈ s.launches, l.2.queue = n ∧ l.2.aborted = false ∧ l.2.done = false ∧
    (l.2.next < recField l.2.record 128 32 ∨ ∃ t ∈ s.teams, t.2.launch = l.1 ∧ t.2.phase = .saved ∧ t.2.trailing = false)

/-- A queue with a record at its head that nothing but its dependences holds back (R52, R55). -/
def HeadDue (s : State) (n : Nat) (q : Queue) : Prop :=
  n < 64 ∧ tgetD s.queues n {} = q ∧ q.en = true ∧ q.halted = false ∧ q.head ≠ q.tail ∧ ¬Unplaced s n ∧
  (s.launches.filter fun l => !l.2.done).length < 256

/-- A dependence of a record: none that it has is unmet; its counter reads a number, or faults (R47, R55). -/
def dependenceReads (s : State) (n : Nat) (r : BitVec 1024) (k : Nat) : Option Nat :=
  let a := recField r (512 + 64 * k) 57
  if r.getLsbD (575 + 64 * k) = false ∨ a % 8 ≠ 0 then some 0 else numberAt s n (BitVec.ofNat 64 a) 8

/-- A core, with its home slice, owns the line of a dependence of a record, so that the acquire that reads it promotes
that core first (R55, R119). -/
def DependenceOwned (s : State) (n : Nat) (r : BitVec 1024) (slice core : Nat) : Prop :=
  ∃ k pa mtype, k < 2 ∧ r.getLsbD (575 + 64 * k) = true ∧ recField r (512 + 64 * k) 57 % 8 = 0 ∧
    translateNow s .bare n (BitVec.ofNat 64 (recField r (512 + 64 * k) 57)) 0 = .ok (pa, mtype) ∧ slice = homeSlice pa ∧
    (pa / 128, core) ∈ tgetD s.owners slice []

/-- A team's parts start as R49 says in every group that has it: ARGS and the team's number in s0 and s1, other
registers 0 and full, predicates false, at ENTRY, each lane below LANES in one group, on the core that R16 gives its
block; its share reads 0 (R353). -/
def TeamFormed (s t : State) (seq num : Nat) (cores : List Nat) : Prop :=
  let r := (tgetD s.launches seq {}).record
  let w := 4 * 2 ^ recField r 176 3
  let u := max w 16
  let blocks := (recField r 160 15 + u - 1) / u
  ∃ k x, s.nextId ≤ k ∧ tget t.teams k = some x ∧ x.launch = seq ∧ x.num = num ∧ x.cores = cores ∧ x.phase = .resident ∧
    x.share = [] ∧ x.points = [] ∧ x.tiles = [] ∧ x.templates = [] ∧ x.refusals = 0 ∧ x.chk = {} ∧
    (∀ j, j ≠ k → j < s.nextId → tget t.teams j = tget s.teams j) ∧
    (∀ j, j < s.nextId → tget t.groups j = tget s.groups j) ∧
    (∀ j g, tget t.groups j = some g → g.owner = .team k → s.nextId ≤ j ∧
      getS g 0 = BitVec.ofNat 64 (recField r 640 57) ∧ getS g 1 = BitVec.ofNat 64 num ∧
      (∀ q, 2 ≤ q → getS g q = 0#64) ∧ (∀ q l, getV g q l = 0#32) ∧ g.vfull = BitVec.allOnes 256 ∧
      g.sfull = BitVec.allOnes 128 ∧ (∀ p, p ≠ 0 → getP g p = 0#64) ∧ (∀ q, q ≠ 0 → q < 8 → getQ g q = false) ∧
      g.ref = false ∧ g.width = w ∧ g.rstack = [] ∧ g.handler = none ∧
      ∃ e lo, g.stack = [e] ∧ e.pc = BitVec.ofNat 64 (recField r 0 57) ∧ e.reconv = none ∧ e.mode = .live ∧
        g.laneNo = (List.range w).map (lo + ·) ∧ lo % w = 0 ∧
        (∀ i, i < w → e.mask.getLsbD i = decide (lo + i < recField r 160 15)) ∧
        g.core = cores.getD (lo / u * cores.length / blocks) 0 ∧ g.slot ∈ freeSlots s g.core) ∧
    ∀ lane, lane < recField r 160 15 → ∃ j g, tget t.groups j = some g ∧ g.owner = .team k ∧ lane ∈ g.laneNo

/-- What is added to, or set in, the completion counter of a launch (R56, R361, R410). -/
def ruleCounter (l : Launch) (v : Nat) : Nat :=
  if l.aborted then (if v < 2 ^ 63 then v + 2 ^ 63 else v)
  else if l.tainted then (v + 2 ^ 62 - 1) % 2 ^ 64 else (v + 2 ^ 64 - 1) % 2 ^ 64

/-- A team without copies of its own that may retire (R56): every lane has exited, no access of it is outstanding or not
written back, its posts have released their sources, and no engine works for it. -/
def MayRetire (s : State) (k : Nat) (x : Team) : Prop :=
  let mine (g : Group) : Prop := g.owner = .team k
  tget s.teams k = some x ∧ x.mate = none ∧ x.trailing = false ∧ x.phase = .resident ∧ x.force = none ∧ x.arrivals = [] ∧
  (tgetD s.launches x.launch {}).aborted = false ∧ (∀ g ∈ s.groups, mine g.2 → g.2.ended = true) ∧
  (∀ o ∈ s.outs, o.2.owner ≠ .team k) ∧ (∀ w ∈ s.writeBacks, .team k ∉ w.2.owners) ∧
  (∀ c ∈ s.cores, (∀ d ∈ c.2.dirty, .team k ∉ d.owners) ∧ c.2.mxHolder ≠ some k ∧
    ∀ m ∈ c.2.mxQueue, ∀ g ∈ s.groups, g.1 = m.2.gid → ¬mine g.2) ∧
  (∀ p ∈ s.posts, p.2.team = k → p.2.srcRead = true ∧ p.2.phase ≠ .waiting) ∧ (∀ c ∈ s.copies, c.2.team ≠ k) ∧
  ∀ g ∈ s.groups, mine g.2 → g.2.farRoles = []

/-- The bookkeeping of the distributor. -/
def noPlaces (s : State) : State :=
  { aside s with
    queues := [], launches := [], rowBlocks := [], dist := {}, nextId := 0, cores := [], mem := [], poison := [], mgmt := []
    convs := [], convRequests := [] }

/-- A strand in a PNOPRE region whose hold has not overrun (R71, R364). -/
def Holds (e : Entry) : Prop := e.noPre = true ∧ ∀ t ∈ e.pend, t.code ≠ 0x28#8

/-- A strand of the team's groups holds off its pre-emption (R71). -/
def TeamHolds (s : State) (k : Nat) : Prop :=
  ∃ g ∈ s.groups, g.2.owner = .team k ∧ g.2.ended = false ∧
    ((∃ h, g.2.handler = some h ∧ Holds h.strand) ∨ g.2.handler = none ∧ ∃ e ∈ g.2.stack, e.mode ≠ .parent ∧ Holds e)

/-- A team's pre-emption has been asked for (R29, R71): its strands stop, at once where none is in a region; a GFUSE that
has not completed is withdrawn. -/
def Preempted (s t : State) (k : Nat) (x : Team) : Prop :=
  (∀ j, j ≠ k → tget t.teams j = tget s.teams j) ∧
  (∃ y, tget t.teams k = some y ∧ { y with phase := x.phase, requestedAt := x.requestedAt } = x ∧
    y.requestedAt = (coreAt s (x.cores.headD 0)).cycle ∧
    (TeamHolds s k ∨ x.force ≠ none → y.phase = .stopping) ∧ (¬TeamHolds s k → x.force = none → y.phase = .saving)) ∧
  (∀ j g, tget s.groups j = some g → ∃ h, tget t.groups j = some h ∧
    { h with fuse := none, fuseCode := none } = { g with fuse := none, fuseCode := none } ∧
    (g.owner ≠ .team k → h = g) ∧ (g.owner = .team k → ¬TeamHolds s k → h.fuse = none ∧ h.fuseCode = none))

/-- A group of the team has a request at a conversation home on another device (R294). -/
def FarAsked (s : State) (k : Nat) : Prop :=
  ∃ r ∈ s.convRequests, portHome r.2.handle = true ∧ hDev r.2.handle ≠ devNo s ∧
    ∃ g ∈ s.groups, g.1 = r.2.gid ∧ g.2.owner = .team k

/-- The one team of a save in which nothing changes but its phase, its resident cycles, and what its engines' copies have
brought to its share (R71, R252, R263). -/
def OnlySaved (s : State) (x y : Team) : Prop :=
  { y with phase := x.phase, resident := x.resident, matrix := x.matrix, share := x.share, sharePoison := x.sharePoison } = x ∧
    y.phase = .saved ∧ y.resident = x.resident + ((coreAt s (x.cores.headD 0)).cycle - x.placedAt) ∧
    y.matrix = { x.matrix with kept := true }

/-- The state without what a save writes besides its team. -/
def noSave (s : State) : State :=
  { aside s with rowBlocks := [], cores := [], mem := [], poison := [], copies := [], freeNo := 0 }

/-- A resident team has no copy, and a lane that has not exited. -/
def Preemptible (s : State) (k : Nat) (x : Team) : Prop :=
  tget s.teams k = some x ∧ x.mate = none ∧ x.trailing = false ∧ x.phase = .resident ∧
  ∃ g ∈ s.groups, g.2.owner = .team k ∧ g.2.ended = false

/-! ### Invalidations and collectives -/

/-- An invalidation has started (R87): the entries it covers are gone from every TLB, walks of the context that it covers
leave nothing, and it awaits every walk of the context, every access and coach translated through an entry that is gone,
and every copy of the context (log 36). -/
def InvalidationStarted (s t : State) (n : Nat) (v : Word) (rest : List Word) : Prop :=
  let all := v.getLsbD 0
  let page := v.toNat / 2 ^ 12 % 2 ^ 45
  let hit (e : TlbEntry) : Bool := e.ctx = n ∧ (all ∨ e.vbase ≤ page * 4096 ∧ page * 4096 < e.vbase + e.size)
  let gone (e : TlbEntry) : Prop := hit e = true ∧ ((∃ c ∈ s.cores, e ∈ c.2.tlb) ∨ ∃ l ∈ s.tlb2, e ∈ l.2)
  let through (a : LaneAcc) : Prop := all = true ∨ a.va.toNat / 4096 = page ∨
    ∃ e, gone e ∧ e.vbase ≤ a.va.toNat ∧ a.va.toNat < e.vbase + e.size
  (∀ c, (coreAt t c).tlb = (coreAt s c).tlb.filter fun e => !hit e) ∧
  (∀ c, { coreAt t c with tlb := [] } = { coreAt s c with tlb := [] }) ∧
  (∀ c, tgetD t.tlb2 c [] = (tgetD s.tlb2 c []).filter fun e => !hit e) ∧
  (∀ k, tget t.walks k = (tget s.walks k).map fun w =>
    { w with dead := w.dead || (w.ctx == n && (all || w.va == page)) }) ∧
  (∀ k, k ≠ n → tget t.contexts k = tget s.contexts k) ∧
  ∃ r, tget t.contexts n = some { tgetD s.contexts n {} with running := some r, queued := rest } ∧
    r.page = page ∧ r.all = all ∧ (∀ k, k ∈ r.walks ↔ ∃ w, (k, w) ∈ s.walks ∧ w.ctx = n) ∧
    ∀ k, k ∈ r.outs ↔ (∃ o, (k, o) ∈ s.outs ∧ o.ctx = n ∧ ∃ a ∈ o.lanes, through a) ∨ ∃ c, (k, c) ∈ s.copies ∧ c.ctx = n

/-- The parts that an invalidation touches. -/
def noContexts (s : State) : State := { aside s with cores := [], tlb2 := [], walks := [], contexts := [], posts := [] }

/-- Two members' elements combined (R322): integers as the atomics of the same operator do, numbers by the float rules. -/
def ruleElement (op fmt a b : Nat) : Nat :=
  let w := fmtBits fmt
  match op with
  | 13 => roundTo fmt 0 false false (addExact 0 (fmtValue fmt a) (fmtValue fmt b))
  | 14 => minMax (ffmtOf fmt) false a b
  | 15 => minMax (ffmtOf fmt) true a b
  | _ => (ruleAtomic (0x70 + op) w (BitVec.ofNat w a) (BitVec.ofNat w b) 0#w).toNat

/-- The operators and formats of reductions (R322). -/
def ruleCombines (op fmt : Nat) : Prop :=
  (op = 0 ∨ 2 ≤ op ∧ op ≤ 8) ∧ fmt < 8 ∨ 13 ≤ op ∧ op ≤ 15 ∧ 8 ≤ fmt ∧ fmt ≤ 10

/-- Member j's element after k rounds of the tree (R323): round k combines each multiple of 2^(k + 1) with the member 2^k
above it, where there is one. -/
def ruleRounds (f : Nat → Nat → Nat) (x : Nat → Nat) (p : Nat) : Nat → Nat → Nat
  | 0, j => x j
  | k + 1, j =>
    let y := ruleRounds f x p k
    if j % 2 ^ (k + 1) = 0 ∧ j + 2 ^ k < p then f (y j) (y (j + 2 ^ k)) else y j

/-- What the member of rank j writes (R324): from the members' rows, in rank order, of u bytes each, c of each member. -/
def ruleCollective (kind op fmt u c root : Nat) (rows : List (List Byte)) (j : Nat) : List Byte :=
  let e := max 1 (fmtBits fmt / 8)
  let p := rows.length
  let all := (List.range (u * c / e)).flatMap fun k =>
    leBytes (ruleRounds (ruleElement op fmt) (fun m => leNat (((rows.getD m []).drop (e * k)).take e)) p 8 0) e
  match kind with
  | 6 => all
  | 7 => (all.drop (u * (j * c / p))).take (u * ((j + 1) * c / p - j * c / p))
  | 8 => rows.flatten
  | _ => rows.getD root []

/-! ### Links and views -/

/-- Of the ports only one changes, with what leaves the device and the numbers given to packets. -/
def OnlyPort (s t : State) (k : Nat) (p : Port) : Prop :=
  SameWork s t ∧ { noNetwork t with nextId := 0 } = { noNetwork s with nextId := 0 } ∧ tget t.ports k = some p ∧
    ∀ j, j ≠ k → tget t.ports j = tget s.ports j

/-- A port in ERROR (R344, R424, R436): what was unconfirmed on it is gone and counted. -/
def portFailed (p : Port) (errc : Nat) : Port :=
  { p with state := 4, errc := errc, channels := [], retries := p.retries + (unconfirmed p).length }

/-- The parts that the agreement of views and the install of a view touch. -/
def noFabric (s : State) : State :=
  { noConvs s with fabric := {}, posts := [], collectives := [] }

/-- The members known not to be lost. -/
def survivors (s : State) : List Nat := (members s).filter fun d => d ∉ s.fabric.agreement.lost

/-- Groups stay as they are, and so do teams but for what BTEs hold for teams that do not run (R403). -/
def SameButHeld (s t : State) : Prop := t.groups = s.groups ∧ (PostsSeated s → t.teams = s.teams)

/-- The notices to the sources of the packets that a port was forwarding for other devices (R424). -/
def discardNotices (s : State) (p : Port) : List Packet :=
  (forwardedOn s p).map fun x => { kind := .discardNotice, dev := x.nums.getD 0 0, nums := [x.dev] }

/-- A port has gone to ERROR (R344, R424): what was unconfirmed on it is gone and counted, and the sources of what it was
forwarding are told. -/
def PortStops (s t : State) (k : Nat) (p : Port) (errc : Nat) : Prop :=
  SameWork s t ∧ noNetwork t = noNetwork s ∧ tget t.ports k = some (portFailed p errc) ∧
    t.outbox = s.outbox ++ discardNotices s p ∧
    (discardNotices s p = [] → ∀ j, j ≠ k → tget t.ports j = tget s.ports j)

/-- A link has gone down (R424, R427): its port is in ERROR, the sources of what it was forwarding are told, and a member of
a view reports it to the other members, and counts its own report. -/
def LinkFails (s t : State) (k errc : Nat) (p : Port) (sent : List Packet) : Prop :=
  let peer := p.cfg.toNat / 2 ^ 8 % 2 ^ 8
  let q := tgetD t.ports k {}
  SameButHeld s t ∧ q.state = 4 ∧ q.errc = errc ∧ q.channels = [] ∧ noFabric t = noFabric s ∧
  (p.cfg.toNat % 4 ≠ 1 ∨ s.fabric.viewSet = false →
    tget t.ports k = some (portFailed p errc) ∧ t.outbox = s.outbox ++ sent ++ discardNotices s p ∧ t.nextId = s.nextId ∧
    (discardNotices s p = [] → OnlyPort s t k (portFailed p errc))) ∧
  (p.cfg.toNat % 4 = 1 → s.fabric.viewSet = true →
    ((devNo s, peer) ∈ t.fabric.agreement.downs ∨ peer ∈ t.fabric.agreement.lost) ∧
    ∃ more, t.outbox = s.outbox ++ sent ++ discardNotices s p ++
      ((survivors s).filter fun d => d ≠ devNo s ∧ d ≠ peer).map (fun d =>
        { kind := .linkDown, dev := d, nums := [peer] }) ++ more)

/-- The number of the view after the current one (R428). -/
def ruleNext (s : State) : Nat := if curView s = 0xFFFE then 0 else curView s + 1

/-- A map may be committed (R428): it holds more than half of the old view's members, or half of them with the
lowest-numbered. -/
def Majority (s : State) (map : BitVec 256) : Prop :=
  let n := ((members s).filter fun d => map.getLsbD d).length
  (members s).length < 2 * n ∨ 2 * n = (members s).length ∧ map.getLsbD ((members s).headD 0) = true

/-- A view is in force (R309, R428, R445). -/
def Installed (s t : State) (m : ViewMsg) : Prop :=
  t.fabric.viewSet = true ∧ t.fabric.viewNum = m.num ∧ t.fabric.viewMap = m.map ∧
  (∀ k, k < 4 → tgetD t.fabric.staged k 0#64 = m.map.extractLsb' (64 * k) 64) ∧
  (∀ d ∈ members s, m.map.getLsbD d = false → d ∈ t.fabric.agreement.lost) ∧
  ∀ p ∈ s.ports, p.2.state = 3 → p.2.cfg.toNat % 4 = 1 → m.map.getLsbD (p.2.cfg.toNat / 2 ^ 8 % 2 ^ 8) = false →
    (tgetD t.ports p.1 {}).state = 4 ∧ (tgetD t.ports p.1 {}).errc = 7

/-- A device is lost (R427, R428, R435), or was lost already, is no member, or this device is in no view. An open join
ends, and so does a proposal of the lost device and one of this device that holds it. Where this device is then the
lowest-numbered member that is not lost and no proposal is open, it proposes the view without the lost ones; alone, it
commits it at once; where the map is no majority it is outside the view. -/
def DeviceLost (s t : State) (d : Nat) : Prop :=
  let a := s.fabric.agreement
  let me := devNo s
  let counts := s.fabric.viewSet = true ∧ a.outside = false ∧ d ≠ me ∧ d ∈ members s ∧ d ∉ a.lost
  let ends := ∃ m, a.proposal = some m ∧ (m.joining = true ∨ m.dev = d ∨ a.mine = true ∧ m.map.getLsbD d = true)
  let left := (survivors s).filter (· ≠ d)
  let m : ViewMsg := { dev := me, num := ruleNext s, map := mapOf left }
  let asked := s.outbox ++ (left.filter (· ≠ me)).map (viewPacket .propose m)
  let proposes := (a.proposal = none ∨ ends) ∧ left.head? = some me
  SameButHeld s t ∧ noFabric t = noFabric s ∧
  (¬counts → SameWork s t ∧ aside t = aside s) ∧
  (counts → d ∈ t.fabric.agreement.lost ∧
    (¬proposes → t.outbox = s.outbox ∧ { t.fabric with agreement := {} } = { s.fabric with agreement := {} } ∧
      (ends → t.fabric.agreement.proposal = none) ∧ (¬ends → t.fabric.agreement.proposal = a.proposal)) ∧
    (proposes → Majority s m.map →
      (left = [me] → Installed s t m) ∧
      (left ≠ [me] → { t.fabric with agreement := {} } = { s.fabric with agreement := {} } ∧ t.outbox = asked ∧
        t.fabric.agreement.proposal = some m ∧ t.fabric.agreement.mine = true ∧
        t.fabric.agreement.accepted = [me])) ∧
    (proposes → ¬Majority s m.map → { t.fabric with agreement := {} } = { s.fabric with agreement := {} } ∧
      t.outbox = asked ∧ t.fabric.agreement.outside = true ∧ t.fabric.agreement.proposal = none))

/-- The agreement of views has changed to `a`, and a packet has left. -/
def Answers (s t : State) (p : List Packet) (a : Agreement) : Prop :=
  SameWork s t ∧ t.outbox = s.outbox ++ p ∧ t.fabric = { s.fabric with agreement := a } ∧
    { noNetwork t with fabric := {} } = { noNetwork s with fabric := {} }

/-! ### The control window and ports -/

/-- An instruction does what another does. -/
def SameAs (i j : Instr) (s : State) : Prop := exec i s = exec j s

/-- Of the ports only one changes, and nothing else. -/
def OnlyThisPort (s t : State) (k : Nat) (p : Port) : Prop :=
  SameWork s t ∧ { aside t with ports := [] } = { aside s with ports := [] } ∧ tget t.ports k = some p ∧
    ∀ j, j ≠ k → tget t.ports j = tget s.ports j

/-- A register of the control window as it reads (R50 to R53, R86, R309, R335, R339, R343). -/
def ruleWindow (s : State) (off : Nat) : Nat :=
  let part (base size : Nat) : Nat × Nat := ((off - base) / size, (off - base) % size)
  if off < 0x20 then
    if off = 0x00 then 0x337303
    else if off = 0x08 then s.boot.stage + 2 ^ 8 * s.boot.code + 2 ^ 16 * (s.boot.bootNum % 2 ^ 16)
    else if off = 0x18 then s.boot.length % 2 ^ 64 else 0
  else if 0x10000 ≤ off ∧ off < 0x11000 then
    let n := (part 0x10000 0x40).1
    let q := tgetD s.queues n {}
    match (part 0x10000 0x40).2 with
    | 0x00 => q.base.toNat
    | 0x08 => q.head.toNat
    | 0x10 => q.tail.toNat
    | 0x18 => (if q.en then 1 else 0) + 2 ^ 4 * q.log2 + (if q.preok then 2 ^ 9 else 0) + (if q.dev then 2 ^ 10 else 0)
    | 0x20 => q.code + 2 ^ 4 * queueState s n + 2 ^ 8 * q.index.toNat
    | 0x28 => q.quant
    | 0x30 => (BitVec.ofInt 64 q.deficit).toNat
    | _ => 0
  else if 0x20000 ≤ off ∧ off < 0x20800 then
    let c := tgetD s.contexts (part 0x20000 0x20).1 {}
    match (part 0x20000 0x20).2 with
    | 0x00 => c.root.toNat
    | 0x08 => c.vlt.toNat
    | 0x10 => (if c.en then 1 else 0) + if c.running.isSome then 2 ^ 63 else 0
    | _ => 0
  else if 0x30000 ≤ off ∧ off < 0x30040 then
    match off - 0x30000 with
    | 0x00 => s.fabric.frpos.toNat
    | 0x08 => s.fabric.frshape.toNat
    | 0x10 => curView s
    | 0x18 => (tgetD s.fabric.staged 0 0#64).toNat
    | 0x20 => (tgetD s.fabric.staged 1 0#64).toNat
    | 0x28 => (tgetD s.fabric.staged 2 0#64).toNat
    | 0x30 => (tgetD s.fabric.staged 3 0#64).toNat
    | _ => 0
  else if 0x50000 ≤ off ∧ off < 0x50100 then
    (tgetD s.measures ((off - 0x50000) / 32) 0#256).toNat / 2 ^ (8 * (off % 32)) % 2 ^ 64
  else if 0x1000000 ≤ off ∧ off < 0x2000000 then leNat (mread s.boot.staging (off - 0x1000000) 8)
  else 0

/-- The bits of a debug register (R367), by its offset in the core's block; none elsewhere. -/
def ruleDebug (o : Nat) : Option Nat :=
  if o = 0x180 then some 1
  else if o < 0x100 then
    match o % 32 with
    | 0 => some (2 ^ 57 - 2 ^ 3)
    | 8 => some (0xFF * 2 ^ 16 + 0x3F * 2 ^ 8 + 7)
    | 16 => some (2 ^ 64 - 1)
    | _ => none
  else if o < 0x180 then
    match o % 32 with
    | 0 => some (2 ^ 57 - 1)
    | 8 => some (0xFF * 2 ^ 16 + 0x3F * 2 ^ 8 + 0xFF)
    | 16 => some (2 ^ 64 - 1)
    | _ => none
  else none

/-- The registers with room for the fields that the spec gives them. -/
def WindowSound (s : State) : Prop :=
  s.boot.stage < 2 ^ 4 ∧ s.boot.code < 2 ^ 4 ∧ (∀ q ∈ s.queues, q.2.log2 < 2 ^ 5 ∧ q.2.code < 2 ^ 4 ∧ q.2.quant < 2 ^ 32) ∧
    curView s < 2 ^ 16

/-- A host's access that is refused, whatever it asks (R332, R334, R336, R345). -/
def HostRefused (s : State) (port : Nat) (dram write : Bool) (size addr : Nat) : Prop :=
  let p := tgetD s.ports port {}
  let host := p.state = 3 ∧ p.cfg.toNat % 4 = 2
  let lo := p.cfg.toNat / 2 ^ 16 % 2 ^ 10 * 2 ^ 30
  let hi := p.cfg.toNat / 2 ^ 32 % 2 ^ 10 * 2 ^ 30
  let boot := addr < 0x20 ∨ 0x1000000 ≤ addr ∧ addr < 0x2000000
  let granted (n : Nat) : Bool := p.qmask.getLsbD n
  addr % 8 ≠ 0 ∨ size ≠ 8 ∨
  (dram = true ∧ ¬(host ∧ lo ≤ addr ∧ addr + 8 ≤ hi ∧ addr + 8 ≤ Config.dramSize)) ∨
  (dram = false ∧ p.state = 0 ∧ ¬boot) ∨
  (dram = false ∧ p.state = 0 ∧ write = true ∧ (addr = 0x18 ∨ 0x1000000 ≤ addr) ∧
    ∃ w, s.boot.owner = some w ∧ w ≠ port) ∨
  (dram = false ∧ p.state ≠ 0 ∧ ¬host) ∨
  (dram = false ∧ p.state ≠ 0 ∧ 0x10000 ≤ addr ∧ addr < 0x11000 ∧ granted ((addr - 0x10000) / 0x40) = false) ∨
  (dram = false ∧ p.state ≠ 0 ∧ 0x20000 ≤ addr ∧ addr < 0x20800 ∧ granted ((addr - 0x20000) / 0x20) = false) ∨
  (dram = false ∧ p.state ≠ 0 ∧ (0x40000 ≤ addr ∧ addr < 0x40800 ∨ 0x50100 ≤ addr)) ∨
  (dram = false ∧ p.state ≠ 0 ∧ write = true ∧ (addr < 0x20 ∨ 0x50000 ≤ addr ∧ addr < 0x50100))

/-! ### Power, boot and alarms -/

/-- Power has gone (R331): nothing but the fuses, and the model's own counters, is kept; `b` is the boot block left. -/
def PowerGone (s t : State) (b : Boot) (m : Tab (BitVec 256)) : Prop :=
  { t with progress := s.progress } =
    { State.reset with
      boot := b, measures := m, agenda := s.agenda, turnNo := s.turnNo, freeNo := s.freeNo, nextId := s.nextId
      progress := s.progress }

/-- A measurement register extended by a 32-byte value (R339). -/
def ruleExtend (m x : BitVec 256) : BitVec 256 := Config.sha256 (leBytes m.toNat 32 ++ leBytes x.toNat 32)

/-- A field of the staged image. -/
def imageField (s : State) (a n : Nat) : Nat := leNat (mread s.boot.staging a n)

/-- The staged image has the magic, lengths and padding of R337. -/
def ImageFormed (s : State) : Prop :=
  let f := imageField s 8 8
  let m := imageField s 16 8
  imageField s 0 4 = 0x5746545A ∧ s.boot.length = 2048 + f + m ∧ 2048 + f + m ≤ 2 ^ 24 ∧ f ≤ 2 ^ 21 ∧
    ∀ a, (24 ≤ a ∧ a < 64 ∨ 120 ≤ a ∧ a < 128 ∨ 1740 ≤ a ∧ a < 2048) → mget s.boot.staging a = 0#8

/-- The boot status code of the staged image (R337, R338), 0 where it is accepted. -/
def ImageCode (s : State) (code : Nat) : Prop :=
  let key := mread s.boot.staging 64 56
  let body := mread s.boot.staging 2048 (imageField s 8 8 + imageField s 16 8)
  let keyOk := Config.sha256 key = Config.fusedKeyHash
  let signed := Config.lmsVerifies key (mread s.boot.staging 0 128 ++ body) (mread s.boot.staging 128 1612) = true
  let new := Config.fusedFloor ≤ imageField s 4 4
  (code = 0 ∧ ImageFormed s ∧ keyOk ∧ signed ∧ new) ∨ (code = 1 ∧ ¬ImageFormed s) ∨
    (code = 2 ∧ ImageFormed s ∧ ¬keyOk) ∨ (code = 3 ∧ ImageFormed s ∧ keyOk ∧ ¬signed) ∨
    (code = 4 ∧ ImageFormed s ∧ keyOk ∧ signed ∧ ¬new)

/-- Of the state only the boot block changes. -/
def OnlyBoot (s t : State) (b : Boot) : Prop := SameWork s t ∧ aside t = aside { s with boot := b }

/-- Every launch is aborted, and its bins are gone (R361). -/
def allAborted (s t : State) : Prop :=
  (∀ k, tget t.launches k = (tget s.launches k).map fun l => { l with aborted := true }) ∧
    ∀ c, { coreAt t c with bins := [] } = { coreAt s c with bins := [] }

/-! ### Attestation, check points and injection -/

/-- The device has answered on a port, and nothing else has changed but the boot block and the ports, which `u` has. -/
def SpdmAnswered (s u t : State) (port code : Nat) (nums : List Nat) (bytes : List Byte) : Prop :=
  t.groups = s.groups ∧ t.teams = s.teams ∧
    t.outbox = s.outbox ++ [{ kind := .spdm, dev := port, nums := code :: nums, bytes := bytes }] ∧
    { aside t with outbox := [] } = { aside u with outbox := [] }

/-- The signature of bytes by the next leaf of the boot's tree (R341). -/
def ruleSigned (s : State) (l : List Byte) : List Byte := l ++ Config.lmsSign s.boot.seed s.boot.signatures l

/-- The state with one more signature taken. -/
def oneSigned (s : State) : State := { s with boot := { s.boot with signatures := s.boot.signatures + 1 } }

/-- A measurement register's bytes. -/
def mrBytes (s : State) (k : Nat) : List Byte := leBytes (tgetD s.measures k 0#256).toNat 32

/-- A session has gone (R344, R436): a LOCKED or RUN port enters ERROR. -/
def sessionGone (p : Port) : Port :=
  { (if p.state = 2 ∨ p.state = 3 then portFailed p 4 else p) with session := {} }

/-- The held stores of a team performed in buffer order (R412, R414). -/
def ruleHeld (l : List HeldStore) (m : Memory) : Memory := l.foldl (fun m h => ruleStores h.size h.lanes m) m

/-- A check point is due for a team: its lead meets its event, and both copies stand still, with nothing outstanding but
the arrivals that the check point counts (R411, R412, R439); each copy's checkpoint is of its own groups. -/
def CheckDue (s : State) (k : Nat) (x : Team) (why : Force) (sn : Snapshot) : Prop :=
  tget s.teams k = some x ∧ x.force = some why ∧ x.snap = some sn ∧ x.trailing = false ∧ x.granted = none ∧
    (tgetD s.launches x.launch {}).aborted = false ∧ checkQuiet s k = true ∧
    (∀ m, x.mate = some m → m ≠ k ∧ ∃ y, tget s.teams m = some y ∧ y.values = [] ∧ y.mate = some k ∧ y.snap ≠ none) ∧
    ∀ c y n, (c = k ∨ x.mate = some c) → tget s.teams c = some y → y.snap = some n →
      ∀ g ∈ n.groups, ∀ h, tget s.groups g.1 = some h → h.owner = .team c

/-- A structure's count of corrected errors (R405). -/
def errorsOf (s : State) (st : Structure) : Nat := ((s.errors.find? fun x => x.1 == st).map (·.2)).getD 0

/-- An error of a structure has been counted, and nothing else has come of it (R405). -/
def Counted (s t : State) (st : Structure) : Prop :=
  { t with errors := s.errors } = s ∧ errorsOf t st = errorsOf s st + 1 ∧ ∀ x, x ≠ st → errorsOf t x = errorsOf s x

/-- Granules of memory have been poisoned, and nothing else has changed (R405). -/
def Poisons (s t : State) (l : List Nat) : Prop :=
  { t with poison := s.poison } = s ∧ ∀ g, g ∈ t.poison ↔ g ∈ s.poison ∨ g ∈ l

/-- A copy stands at its checkpoint again (R412). -/
def RolledBack (s t : State) (k : Nat) (sn : Snapshot) (mismatch : Bool) : Prop :=
  ∃ x y, tget s.teams k = some x ∧ tget t.teams k = some y ∧ y.points = sn.points ∧ y.tiles = sn.tiles ∧
    y.templates = sn.templates ∧ y.share = sn.share ∧ y.matrix = sn.matrix ∧ y.refusals = sn.refusals ∧ y.held = [] ∧
    y.values = [] ∧ y.arrivals = [] ∧ y.force = none ∧ y.forcedBy = none ∧ y.failed = true ∧ y.snap = x.snap ∧
    y.chk = { mmcnt := if mismatch then min 255 (x.chk.mmcnt + 1) else x.chk.mmcnt, rbcnt := min 255 (x.chk.rbcnt + 1) }

/-! ### The whole machine -/

/-- The major opcodes that the table of R172 assigns. -/
def assignedOpcode (op : Nat) : Prop :=
  match op / 16 with
  | 0 => False
  | 1 => True
  | 2 => True
  | 3 => op % 16 ≠ 6 ∧ op % 16 ≠ 11 ∧ op % 16 ≠ 13
  | 4 => op % 16 ≠ 1 ∧ op % 16 ≠ 3 ∧ op % 16 ≠ 5
  | 5 => op % 16 < 13
  | 6 => op % 16 < 11
  | 7 => True
  | 8 => True
  | 9 => op % 16 < 12
  | 10 => op % 16 < 15
  | 11 => op % 16 < 11
  | 12 => op % 16 < 13
  | 13 => op % 16 < 13
  | 14 => op % 16 < 10
  | _ => op % 16 < 13

/-- The half opcodes that the table of R174 assigns. -/
def assignedHalf (hop : Nat) : Prop :=
  hop < 14 ∨ hop = 0x11 ∨ 0x13 ≤ hop ∧ hop ≤ 0x19 ∨ hop = 0x1B ∨ hop = 0x1D ∨ 0x20 ≤ hop ∧ hop ≤ 0x23

/-- The word is one of R175's undefined instructions. -/
def undefinedWord (w : Word) : Prop :=
  if w.getLsbD 63 then w.getLsbD 62 = true ∨ ¬assignedHalf (w.toNat / 2 ^ 55 % 2 ^ 7) ∨ ¬assignedHalf (w.toNat / 2 ^ 24 % 2 ^ 7)
  else ¬assignedOpcode (w.toNat / 2 ^ 55 % 2 ^ 8)

/-- Every memory of the machine is in its canonical form: DRAM and the vaults, each team's share and its checkpoint's, and
the boot staging block. -/
def MemoriesWf (s : State) : Prop :=
  memWf s.mem = true ∧ memWf s.boot.staging = true ∧
    ∀ x ∈ s.teams, memWf x.2.share = true ∧ ∀ sn, x.2.snap = some sn → memWf sn.share = true

/-- The strand of the cursor is tried: it is taken to wait for nothing until it is found to (R38). -/
def tried (s : State) : State := setStrand s { curStrand s with runs := false }

/-- A strand stands at a boundary with nothing before its word: it is no trailing copy's, has begun no instruction, has no
trap pending and meets no breakpoint (R357). -/
def AtWord (s : State) : Prop :=
  isTrailing s (curGroup s) = false ∧ (curStrand s).stage = 0 ∧ (curStrand s).pend = [] ∧
    breakHit s (curGroup s) (curStrand s) = false

/-- Power goes or comes in this turn (R331, R347). -/
def powerTurn (t : Turn) : Prop :=
  t = .event .powerOff ∨ t = .event .junction110C ∨ ∃ seed, t = .event (.powerUp seed)

end Sys2Proof.Machine
end

