-- ==== Sys2Proof/Certificates/Slice0/Obligations.lean ====
section
/-!
DEFINITION. The statements for the provers. Each says in its docstring which rules of spec/ it formalises; the vocabulary
they share (what stays as it was, where a strand goes, the rule tables) is Sys2Proof/Safety.lean's.
-/

open Sys2Proof Sys2Proof.Machine

/-! ### Scalars, uniform predicates and control -/

/-- The scalar instructions, register and immediate forms (R178 to R185, R189, R190): with their registers declared
and full each writes its result to its destination, poisoned where a source is (R406, R407), changes no other
register, and goes on; s0 to s7 are the handler registers in handler mode (R358).

Choices of the model in it: log 7. -/
def Obligations.ScalarResults : Prop :=
  ∀ (i : Instr) (r : ScalarRule) (s : State), scalarRule i = some r → ScalarsReady s r.sources [r.dest] →
    recordedTrap s = none →
    let bad := r.sources.any (poisonedS (curGroup s))
    ∃ t, exec i s = .next t ∧ getS (curGroup t) r.dest = r.value (curGroup s) (curStrand s) ∧
      poisonedS (curGroup t) r.dest = bad ∧ OnlyScalars s t [r.dest] ∧ GoesOn s t ∧
      Elsewhere (if bad then consumed s (curGroup s) else s) t

/-- SCMP, QAND, QOR, QXOR and VOTE (R186 to R188): each writes its uniform predicate, q0 excepted, which reads true.

PMOV to a predicate (R190): the lanes of the strand's active mask take the scalar's bits, the others keep theirs, and
p0 is not written. -/
def Obligations.UniformResults : Prop :=
  (
    ∀ (i : Instr) (r : UniformRule) (s : State), i.wf = true → uniformRule i = some r → ScalarsReady s r.sources [] →
      (∀ x ∈ r.sources, poisonedS (curGroup s) x = false) → recordedTrap s = none →
      ∃ t, exec i s = .next t ∧
        getQ (curGroup t) r.dest = (r.dest == 0 || r.value (curGroup s) (curStrand s)) ∧
        OnlyUniform s t r.dest ∧ GoesOn s t ∧ Elsewhere s t) ∧
  (
    ∀ (o : PMovToPred) (s : State), ScalarsReady s [o.sa.toNat] [] → poisonedS (curGroup s) o.sa.toNat = false →
      recordedTrap s = none →
      ∃ t, exec (.pmovToPredicate o) s = .next t ∧
        (∀ l, o.pd ≠ 0#3 → l < 64 → (getP (curGroup t) o.pd.toNat).getLsbD l =
          if (activeLanes (curGroup s) (curStrand s)).contains l then (getS (curGroup s) o.sa.toNat).getLsbD l
          else (getP (curGroup s) o.pd.toNat).getLsbD l) ∧
        (o.pd = 0#3 → getP (curGroup t) 0 = BitVec.allOnes 64) ∧
        OnlyPredicates s t [o.pd.toNat] ∧ GoesOn s t ∧ Elsewhere s t)

/-- BRQ, JMP, CALL, RET, LOOP, PBLK, NOP and YIELD (R191 to R197, R201, R205, R291): where the strand goes, the link
or counter it writes, its block and the return stack; a register target is a multiple of 8.

R193, R196, R197: a register target that is no multiple of 8 is a misaligned trap (0x12); the strand is at its
instruction and nothing of it has happened: no link is written and no return address pushed or popped.

Choices of the model in it: log 17. -/
def Obligations.UniformControl : Prop :=
  (
    ∀ (i : Instr) (r : MoveRule) (s : State), moveRule i (curGroup s) (curStrand s) = some r →
      ScalarsReady s r.sources (r.link.toList.map (·.1)) →
      (∀ x ∈ r.sources, poisonedS (curGroup s) x = false) →
      (∀ x, registerTarget i = some x → getS (curGroup s) x.1 &&& 7#64 = 0#64) → recordedTrap s = none →
      ∃ t, exec i s = .next t ∧ GoesTo s t r.pc r.block ∧ (curGroup t).rstack = r.returns ∧
        (∀ x, r.link = some x → getS (curGroup t) x.1 = x.2 ∧ poisonedS (curGroup t) x.1 = false) ∧
        (∀ k, k < 128 → k ∉ r.link.toList.map (·.1) → getS (curGroup t) k = getS (curGroup s) k ∧
          poisonedS (curGroup t) k = poisonedS (curGroup s) k) ∧
        (∀ k, k < 8 → hmode (curGroup s) = true →
          tgetD (curGroup t).sregs k 0#64 = tgetD (curGroup s).sregs k 0#64) ∧
        { noScalars (curGroup t) with rstack := [] } = { noScalars (curGroup s) with rstack := [] } ∧ Elsewhere s t) ∧
  (
    ∀ (i : Instr) (x : Nat × BitVec 1) (s : State), registerTarget i = some x → ScalarsReady s [x.1] [] →
      (∀ y, moveRule i (curGroup s) (curStrand s) = some y → ∀ l ∈ y.link, l.1 < declS s (curGroup s)) →
      poisonedS (curGroup s) x.1 = false → getS (curGroup s) x.1 &&& 7#64 ≠ 0#64 → Alone s → (curStrand s).stage = 0 →
      exec i s = .next (progressed (takeTrap s { code := 0x12#8, addr := getS (curGroup s) x.1 })))

/-- BRV (R19, R22, R192), outside handler mode: no guarded lane goes on, all go to the target, some divide the strand;
where that takes more than 32 resident entries the oldest are spilled, eight at a time, and otherwise nothing else
changes.

Choices of the model in it: log 37. -/
def Obligations.BranchDivides : Prop :=
  ∀ (o : BrvOp) (s : State), Fresh s → hmode (curGroup s) = false → Standing s → recordedTrap s = none →
    let g := curGroup s
    let e := curStrand s
    let t := guardedLanes g e o.gn o.gp
    let rc := some (ruleTarget e o.rcv)
    g.stack.length + 2 ≤ 512 →
    ∃ u, exec (.brv o) s = .next u ∧
      (t = [] → GoesOn s u) ∧
      (t ≠ [] → t = activeLanes g e → GoesTo s u (ruleTarget e o.off) none) ∧
      (t ≠ [] → t ≠ activeLanes g e →
        Divided s u [(ruleTarget e o.off, maskWhere t.contains), (nextPc e, e.mask &&& ~~~(maskWhere t.contains))] rc) ∧
      { bareGroup (curGroup u) with nextEntry := 0 } = { bareGroup g with nextEntry := 0 } ∧
      (t = [] ∨ t = activeLanes g e → Elsewhere s u) ∧
      (t ≠ [] → t ≠ activeLanes g e → Elsewhere (spill 2 s) u ∧ (g.stack.length + 2 ≤ 32 + g.spilled → Elsewhere s u))

/-- JMPV, CALLV and RETV (R198 to R200), outside handler mode and with an active lane: each lane of the strand goes to
its destination; CALLV writes the link in the active lanes and pushes next_pc; RETV pops the common target or empties
the return stack. Entries beyond 32 resident ones are spilled, eight at a time (R22).

Choices of the model in it: log 17, 37. -/
def Obligations.VectorTransfers : Prop :=
  ∀ (i : Instr) (gn : BitVec 1) (gp : BitVec 3) (va : Nat) (vd : Option Nat) (rc : Option Word)
    (returns : List Word) (s : State),
    let g := curGroup s
    let e := curStrand s
    let lanes := guardedLanes g e gn gp
    let dests := pointerDests g e gn gp va
    ((∃ o, i = .jmpv o ∧ gn = o.gn ∧ gp = o.gp ∧ va = o.va.toNat ∧ vd = none ∧ rc = some (ruleTarget e o.rcv) ∧
        returns = g.rstack) ∨
     (∃ o, i = .callv o ∧ gn = o.gn ∧ gp = o.gp ∧ va = o.va.toNat ∧ vd = some o.vd.toNat ∧ rc = some (nextPc e) ∧
        returns = rulePush g.rstack (nextPc e)) ∨
     (∃ o, i = .retv o ∧ gn = o.gn ∧ gp = o.gp ∧ va = o.va.toNat ∧ vd = none ∧ rc = e.reconv ∧ dests.length ≤ 4 ∧
        returns = match (lanes.map fun l => rulePointer e (getV g va l)).eraseDups with
          | [x] => rulePop g.rstack x
          | _ => [])) →
    Fresh s → hmode g = false → Standing s → lanes ≠ [] → VectorsReady s [va] vd.toList →
    (∀ l ∈ lanes, poisonedV g va l = false) → NoneDue s (va :: vd.toList) → recordedTrap s = none →
    g.stack.length + dests.length ≤ 512 →
    ∃ t, exec i s = .next t ∧ GoesToAll s t dests rc ∧ (curGroup t).rstack = returns ∧
      (∀ r, vd = some r → ∀ l ∈ lanes, getV (curGroup t) r l = (nextPc e).extractLsb' 3 32) ∧
      (∀ r l, l < 64 → (vd ≠ some r ∨ l ∉ lanes) → getV (curGroup t) r l = getV g r l ∧
        poisonedV (curGroup t) r l = poisonedV g r l) ∧
      { noVectors (curGroup t) with nextEntry := 0, rstack := [] } =
        { noVectors g with nextEntry := 0, rstack := [] } ∧
      Elsewhere (spilledFor s dests.length) t ∧ (g.stack.length + dests.length ≤ 32 + g.spilled → Elsewhere s t)

/-- EXIT (R36, R202), outside handler mode and with an active lane: its lanes leave every entry of the stack and count
out of the team's points; lanes that stay go on; a group without lanes ends, and its slot may be freed. Where no
strand waits on a point that may flip, no other group and no core changes. -/
def Obligations.ExitLanes : Prop :=
  ∀ (o : ExitOp) (s : State),
    let g := curGroup s
    let e := curStrand s
    let lanes := guardedLanes g e o.gn o.gp
    let m := maskWhere lanes.contains
    Alone s → Fresh s → hmode g = false → Standing s → e.mode = .live → lanes ≠ [] →
    (∀ x ∈ s.teams, x.2.points.Pairwise fun a b => a.1 < b.1) →
    ∃ t, exec (.exit o) s = .next t ∧ t.mem = s.mem ∧ t.outs = s.outs ∧ (NoneWaits s → t.cores = s.cores) ∧
      (∀ k, teamKey g = some k → (tget t.teams k).map (·.points) = (tget s.teams k).map fun x =>
        x.points.map fun p => (p.1,
          if p.2.init = true ∧ p.2.device = false then
            if p.2.expected - lanes.length ≤ p.2.arrived then
              { p.2 with expected := p.2.expected - lanes.length, arrived := 0, phase := !p.2.phase }
            else { p.2 with expected := p.2.expected - lanes.length }
          else p.2)) ∧
      ((∀ x ∈ g.stack, x.mask &&& ~~~m = 0#64) →
        ∃ l h, tget l s.cur.gid = some h ∧ h.ended = true ∧ (t.groups = l ∨ t.groups = terase l s.cur.gid)) ∧
      (NoneWaits s → (∃ x ∈ g.stack, x.mask &&& ~~~m ≠ 0#64) →
        (∀ x ∈ (curGroup t).stack, x.mask &&& m = 0#64) ∧ OnlyMoves s t ∧
        (∀ k, k ≠ s.cur.gid → tget t.groups k = tget s.groups k) ∧
        (e.mask &&& ~~~m ≠ 0#64 → e.reconv ≠ some (nextPc e) →
          (curStrand t).pc = nextPc e ∧ (curStrand t).mask = e.mask &&& ~~~m))

/-- GSPLIT (R24 to R26, R203): the result code, lowest first, and with code 0 the children, each with its lanes of
every register, the parent's scalars, one strand after the GSPLIT, and a slot.

GFUSE (R27, R28, R204), for a group of a team that has received no code: the last partner of a complete block fuses
it; a block with an empty slot gives code 1; a spawned group receives code 5; a code received before is written.

Choices of the model in it: log 26, 62. -/
def Obligations.SplitAndFuse : Prop :=
  (
    ∀ (o : WidthOp) (s : State), o.code ≠ 0#2 → Alone s → hmode (curGroup s) = false → Standing s → Fresh s →
      ScalarsReady s [] [o.sd.toNat] → awaitsReply s s.cur.gid = false → matrixIdle s s.cur.gid = true →
      (curGroup s).held = [] → 4 ≤ (curGroup s).width → (curGroup s).width ≤ 64 →
      let g := curGroup s
      let e := curStrand s
      let n := if o.code = 1#2 then 2 else 4
      let w := g.width / n
      let free := freeSlots s g.core
      let code := if free.length < n - 1 then 1 else if 1 < g.stack.length then 2 else if w < 4 then 3 else 0
      ∃ t, exec (.gsplit o) s = .next t ∧
        (code ≠ 0 → getS (curGroup t) o.sd.toNat = BitVec.ofNat 64 code ∧ OnlyScalars s t [o.sd.toNat] ∧ GoesOn s t ∧
          Elsewhere s t) ∧
        (code = 0 → ∀ k, k < n → (e.mask >>> (k * w)) &&& widthMask w ≠ 0#64 →
          ∃ c x, tget t.groups (if k = 0 then s.cur.gid else s.nextId + (k - 1)) = some c ∧
            c.owner = g.owner ∧ c.core = g.core ∧ c.width = w ∧
            c.slot = (if k = 0 then g.slot else free.getD (k - 1) 0) ∧
            c.laneNo = (g.laneNo.drop (k * w)).take w ∧
            (∀ r l, l < w → getV c r l = getV g r (k * w + l) ∧ poisonedV c r l = poisonedV g r (k * w + l)) ∧
            c.vfull = g.vfull ∧ c.sfull = g.sfull ∧ c.unis = g.unis ∧
            (∀ r, r < 128 → getS c r = if r = o.sd.toNat then 0#64 else getS g r) ∧
            (∀ p l, p ≠ 0 → l < w → (getP c p).getLsbD l = (getP g p).getLsbD (k * w + l)) ∧
            c.rstack = [] ∧ c.ref = false ∧
            c.stack = [x] ∧ x.pc = nextPc e ∧ x.mask = (e.mask >>> (k * w)) &&& widthMask w ∧ x.reconv = none)) ∧
  (
    ∀ (o : WidthOp) (s : State), o.code ≠ 0#2 → Alone s → Fresh s → hmode (curGroup s) = false →
      ScalarsReady s [] [o.sd.toNat] →
      let g := curGroup s
      let n := if o.code = 1#2 then 2 else 4
      let at_ (k : Nat) : Option (Nat × Group) := groupInSlot s g.core (g.slot / n * n + k)
      (∀ c, g.fuseCode = some c → ∃ t, exec (.gfuse o) s = .next t ∧
        getS (curGroup t) o.sd.toNat = BitVec.ofNat 64 c ∧ GoesOn s t ∧ t.mem = s.mem ∧ t.outs = s.outs) ∧
      (g.fuseCode = none → teamKey g = none → ∃ t, exec (.gfuse o) s = .next t ∧
        getS (curGroup t) o.sd.toNat = 5#64 ∧ GoesOn s t ∧ t.mem = s.mem ∧ t.outs = s.outs) ∧
      (g.fuseCode = none → teamKey g ≠ none → (∃ k, k < n ∧ at_ k = none) → ∃ t, exec (.gfuse o) s = .next t ∧
        getS (curGroup t) o.sd.toNat = 1#64 ∧ GoesOn s t ∧ t.mem = s.mem ∧ t.outs = s.outs) ∧
      (∀ ps : Nat → Nat × Group, g.fuseCode = none → teamKey g ≠ none → n * g.width ≤ 64 →
        (∀ k x, n = 2 → k < 4 → groupInSlot s g.core (g.slot / 4 * 4 + k) = some x → x.2.owner = g.owner →
          x.2.fuse.map (·.n) ≠ some 4) → at_ (g.slot % n) = some (s.cur.gid, g) →
        (∀ k, k < n → at_ k = some (ps k) ∧ (ps k).2.owner = g.owner ∧ (ps k).2.slot = g.slot / n * n + k ∧
          (ps k).2.ended = false ∧
          (ps k).2.held = [] ∧ (ps k).2.width = g.width ∧ (ps k).2.stack.length ≤ 1 ∧ (ps k).2.handler = none ∧
          ((ps k).1 = s.cur.gid ∨ ∃ sd, sd < 128 ∧ (ps k).2.fuse = some { n := n, sd := sd }) ∧
          awaitsReply s (ps k).1 = false ∧ matrixIdle s (ps k).1 = true ∧
          (ps k).2.vregs.Pairwise (fun a b => a.1 < b.1) ∧ (∀ x ∈ (ps k).2.vregs, x.1 % 64 < g.width)) →
        (∀ j k, j < n → k < n → (ps j).1 = (ps k).1 → j = k) →
        ∃ t h, exec (.gfuse o) s = .next t ∧ tget t.groups (ps 0).1 = some h ∧ h.width = n * g.width ∧
          h.slot = g.slot / n * n ∧ h.held = (List.range (n - 1)).map (fun k => g.slot / n * n + (k + 1)) ∧
          (∀ k r l, k < n → l < g.width → getV h r (k * g.width + l) = getV (ps k).2 r l) ∧
          (∀ r, r < 128 →
            r ≠ (if (ps 0).1 = s.cur.gid then o.sd.toNat else (((ps 0).2.fuse).map (·.sd)).getD 0) →
            getS h r = getS (ps 0).2 r) ∧
          getS h (if (ps 0).1 = s.cur.gid then o.sd.toNat else (((ps 0).2.fuse).map (·.sd)).getD 0) = 0#64 ∧
          h.unis = (ps 0).2.unis ∧ h.rstack = (ps 0).2.rstack ∧ t.mem = s.mem))

/-! ### Vectors -/

/-- The lane-wise integer instructions (R166, R167, R207 to R212): with its registers declared and full each writes
its value to the active lanes of its destination, poisoned where a source is (R407), changes no other lane, register
or byte of memory, and goes on. -/
def Obligations.IntegerVectors : Prop :=
  ∀ (i : Instr) (r : VectorRule) (s : State), i.wf = true → integerRule i = some r → vectorHolds i r s

/-- The floating-point instructions that write a vector (R207, R214 to R216): the same, each value rounded once; the
value of an approximation is the device's own within the bound of R216 (log 5).

CVT, PACK and UNPACK (R207, R219 to R222): the same, for a conversion's one or several destination registers. -/
def Obligations.FloatVectors : Prop :=
  (
    ∀ (i : Instr) (r : VectorRule) (s : State), i.wf = true → floatRule i = some r → vectorHolds i r s) ∧
  (
    ∀ (i : Instr) (r : VectorRule) (s : State), i.wf = true → convertRule i = some r → vectorHolds i r s)

/-- VSHUF, VLSH, VBCAST, VSCAN, and VRED to a vector (R223 to R229): the same, each lane's value made of the lanes
that the rule names.

VRED to a scalar (R227, R228): the reduction of the active lanes, extended to 64 bits. -/
def Obligations.CrossLanes : Prop :=
  (
    ∀ (i : Instr) (r : VectorRule) (s : State), i.wf = true → crossRule i = some r → vectorHolds i r s) ∧
  (
    ∀ (o : VRedOp) (s : State), o.d = 1#1 → (Instr.vred o).wf = true →
      let g := curGroup s
      let lanes := guardedLanes g (curStrand s) o.gn o.gp
      let x := (ruleTree (ruleCombine o.op.toNat o.rm.toNat (o.sat == 1#1)) lanes (getV g o.va.toNat) 6 0).getD 0#32
      let bad := lanes.any fun l => poisonedV g o.va.toNat l
      lanes ≠ [] → ScalarsReady s [] [o.vd.toNat] → VectorsReady s [o.va.toNat] [] → NoneDue s [o.va.toNat] →
      recordedTrap s = none →
      ∃ t, exec (.vred o) s = .next t ∧
        getS (curGroup t) o.vd.toNat = (if o.op.toNat ≤ 2 then x.signExtend 64 else x.setWidth 64) ∧
        poisonedS (curGroup t) o.vd.toNat = bad ∧ OnlyScalars s t [o.vd.toNat] ∧ GoesOn s t ∧
        Elsewhere (if bad then consumed s g else s) t)

/-- VCMP, FCMP and FCLASS (R156, R168, R213, R217, R218): what each combine type writes to pd1 and pd2 in every lane
of the strand's active mask; p0 is not written, and nothing else changes. -/
def Obligations.Compares : Prop :=
  ∀ (i : Instr) (r : CompareRule) (s : State), i.wf = true → compareRule i = some r →
    let g := curGroup s
    let active := activeLanes g (curStrand s)
    let lanes := guardedLanes g (curStrand s) r.gn r.gp
    let after (l : Nat) : Bool × Bool :=
      if active.contains l then
        (ruleWrites r.ct (lanes.contains l) ((getP g r.pd1).getLsbD l) ((getP g r.pd2).getLsbD l) (r.holds g l)).getD
          ((getP g r.pd1).getLsbD l, (getP g r.pd2).getLsbD l)
      else ((getP g r.pd1).getLsbD l, (getP g r.pd2).getLsbD l)
    ScalarsReady s r.scalars [] → VectorsReady s r.vectors [] → NoneDue s r.vectors →
    (∀ x ∈ r.scalars, poisonedS g x = false) → (∀ l ∈ lanes, ∀ x ∈ r.vectors, poisonedV g x l = false) →
    recordedTrap s = none →
    ∃ t, exec i s = .next t ∧
      (∀ l, l < 64 → (r.pd1 ≠ 0 → (getP (curGroup t) r.pd1).getLsbD l = (after l).1) ∧
        (r.pd2 ≠ 0 → (getP (curGroup t) r.pd2).getLsbD l = (after l).2)) ∧
      OnlyPredicates s t ([r.pd1, r.pd2].filter (· ≠ 0)) ∧ GoesOn s t ∧ Elsewhere s t

/-- A pair word (R162, R163, R174, R232): each half writes the active lanes of its vd with its operation of the values
that both halves found, and nothing else changes. -/
def Obligations.PairWords : Prop :=
  ∀ (p : PairOp) (s : State), (Instr.pairWord p).wf = true →
    let g := curGroup s
    let lanes (h : HalfOp) : List Nat := halfActive g (curStrand s) h
    let bad (h : HalfOp) : Bool := (lanes h).any fun l => anyPoison [] (halfSources h) g l
    let named := [p.a, p.b].flatMap fun h => if lanes h = [] then [] else h.vd.toNat :: halfSources h
    VectorsReady s named [] → NoneDue s named →
    (∀ h ∈ [p.a, p.b], h.hop ≠ 0#7 → h.vd.toNat < declV s g ∧ h.vs.toNat < declV s g) → recordedTrap s = none →
    ∃ t, exec (.pairWord p) s = .next t ∧
      (∀ h ∈ [p.a, p.b], ∀ l ∈ lanes h,
        getV (curGroup t) h.vd.toNat l = halfResult h.hop.toNat (getV g h.vd.toNat l) (halfSecond g h l) ∧
        poisonedV (curGroup t) h.vd.toNat l = anyPoison [] (halfSources h) g l) ∧
      (∀ r l, l < 64 → (∀ h ∈ [p.a, p.b], r ≠ h.vd.toNat ∨ l ∉ lanes h) →
        getV (curGroup t) r l = getV g r l ∧ poisonedV (curGroup t) r l = poisonedV g r l) ∧
      noVectors (curGroup t) = noVectors g ∧ GoesOn s t ∧
      Elsewhere (if bad p.a || bad p.b then consumed s g else s) t

/-- A vector-class instruction without an active lane (R166, R167): it has no effect but that its strand goes on,
whatever its sources hold; a compare of combine type 1 or 7 is Compares' matter. -/
def Obligations.NoActiveLane : Prop :=
  ∀ (i : Instr) (gn : BitVec 1) (gp : BitVec 3) (s : State),
    ((∃ r, (integerRule i = some r ∨ floatRule i = some r ∨ crossRule i = some r) ∧ gn = r.gn ∧ gp = r.gp ∧
        (∀ x ∈ r.scalars, x < declS s (curGroup s)) ∧
        ∀ x ∈ r.vectors ++ [r.dest], x < declV s (curGroup s)) ∨
     (∃ r, compareRule i = some r ∧ r.ct ≠ 1 ∧ r.ct ≠ 7 ∧ gn = r.gn ∧ gp = r.gp ∧
        (∀ x ∈ r.scalars, x < declS s (curGroup s)) ∧ ∀ x ∈ r.vectors, x < declV s (curGroup s))) →
    guardedLanes (curGroup s) (curStrand s) gn gp = [] → recordedTrap s = none →
    ∃ t, exec i s = .next t ∧ OnlyMoves s t ∧ GoesOn s t ∧ Elsewhere s t

/-- Rounding is exact where it can be (R138): a finite value that a float format holds rounds to its own code, in
every mode and with or without .sat.

Rounding to nearest (R138): a positive value no greater than the largest of the format rounds to a code that no other
code of the format is nearer to. -/
def Obligations.Rounding : Prop :=
  (
    ∀ (f : FFmt) (rm c : Nat) (sat neg : Bool), f ∈ [fp32, fp16, bf16, e4m3, e5m2] → c ≤ f.maxCode →
      toFloat f rm sat (floatValue f (f.withSign neg c)) = f.withSign neg c) ∧
  (
    ∀ (f : FFmt) (m : Nat) (e : Int) (c n : Nat) (d : Int), f ∈ [fp32, fp16, bf16, e4m3, e5m2] → m ≠ 0 →
      toFloat f 0 false (.fin false m e) = c → c ≤ f.maxCode → floatValue f c = .fin false n d →
      ∀ c' n' d', c' ≤ f.maxCode → floatValue f c' = .fin false n' d' →
        let q := min (min d d') e
        let x : Int := m * 2 ^ (e - q).toNat
        (x - n * 2 ^ (d - q).toNat).natAbs ≤ (x - n' * 2 ^ (d' - q).toNat).natAbs)

/-! ### Memory -/

/-- Loads without an escort, the atomics without one, and XCVT (R234 to R238, R242 to R246): the access is sent with
every lane's address, place and operands, and the registers that its reply fills are marked empty.

Stores, XADD and FENCE (R234 to R238, R245, R247): the access is sent with every lane's address, place and data, and
no register changes. -/
def Obligations.LoadsAndStoresSent : Prop :=
  (
    ∀ (i : Instr) (r : AccessRule) (s : State), accessRule i s = some r →
      (r.access.kind = .load ∨ r.access.kind = .atomic ∨ r.access.kind = .xcvt) → accessHolds i r s) ∧
  (
    ∀ (i : Instr) (r : AccessRule) (s : State), accessRule i s = some r →
      (r.access.kind = .store ∨ r.access.kind = .xadd ∨ r.access.kind = .fence) → accessHolds i r s)

/-- R235, R374: a lane whose address is no multiple of the access size takes a misaligned trap (0x12) with the lane
and its address, the lowest such lane; nothing of the access has happened.

PREFETCH (R239): it changes no register and no memory value, and takes part in no ordering; the lines of the active
lanes whose addresses translate to cached pages come into an L1 that has room for them, but for .noalloc.

Choices of the model in it: log 27. -/
def Obligations.MisalignedAndPrefetch : Prop :=
  (
    ∀ (i : Instr) (r : AccessRule) (s : State) (l : Nat), accessRule i s = some r → r.access.scalar = false →
      r.access.kind ≠ .fence → ¬(r.space = 1 ∧ r.access.scope = 6) →
      Alone s → ScalarsReady s r.scalars [] → VectorsReady s r.vectors r.fills → NoneDue s (r.vectors ++ r.fills) →
      (r.scalars.head?.all fun x => !poisonedS (curGroup s) x) = true →
      (r.vectors.head?.all fun x => r.lanes.all fun l => !poisonedV (curGroup s) x l) = true →
      (curStrand s).stage = 0 → r.lanes.find? (fun l => (r.addr l).toNat % r.bytes ≠ 0) = some l →
      exec i s = .next (progressed (takeTrap s { code := 0x12#8, lane := l, addr := r.addr l }))) ∧
  (
    ∀ (o : PrefetchOp) (s : State),
      let g := curGroup s
      let lanes := guardedLanes g (curStrand s) o.gn o.gp
      Alone s → ScalarsReady s [o.sb.toNat] [] → VectorsReady s [o.va.toNat] [] → NoneDue s [o.va.toNat] →
      poisonedS g o.sb.toNat = false → (∀ l ∈ lanes, poisonedV g o.va.toNat l = false) →
      ∃ t, exec (.prefetch o) s = .next t ∧ OnlyMoves s t ∧ GoesOn s t ∧
        { t with groups := [], cores := [], tlb2 := [], freeNo := 0, progress := 0 } =
          { s with groups := [], cores := [], tlb2 := [], freeNo := 0, progress := 0 } ∧
        (∀ k, k ≠ s.cur.gid → tget t.groups k = tget s.groups k) ∧ (∀ c, c ≠ g.core → coreAt t c = coreAt s c) ∧
        { coreAt t g.core with lines := [], tlb := [] } = { coreAt s g.core with lines := [], tlb := [] } ∧
        ((coreAt s g.core).lines.length + lanes.length ≤ Config.l1Lines → o.hint ≠ 2#3 →
          (lanes.length ≤ 1 ∨ ∀ l ∈ lanes,
            (tlbLookup s g.core (launchOf s g).queue (ruleAddr g o.sb o.va o.osc l)).isSome = true) →
          ∀ l ∈ lanes, ∀ pa,
            translateNow s (.core g.core) (launchOf s g).queue (ruleAddr g o.sb o.va o.osc l) 0 = .ok (pa, 0) →
            ∃ x, tget (coreAt t g.core).lines (pa / 128) = some x ∧
              ∀ k, k < 128 → x.valid.getLsbD k = true ∨ Newer x k))

/-- R42, R94, R240, R241: a global or vault LD, or an ATOM to which R94 gives its escort, outside handler mode, with a
register to escort and no other escorted instruction of the core at its address checks (R350). With a tag and
carriages to spare a coach leaves with the escort registers' lanes, which it and the destination leave empty; else the
refusal is counted and the access is sent without it, the escort registers full. -/
def Obligations.EscortedAccess : Prop :=
  ∀ (i : Instr) (r : AccessRule) (eb : BitVec 8) (ec : BitVec 4) (pk : BitVec 1) (s : State) (place : Nat → Nat × Nat),
    let g := curGroup s
    let esc := (List.range ec.toNat).map (eb.toNat + ·)
    let o := r.out s place
    let n := (ec.toNat * g.width * 4 + 63) / 64
    ((∃ x, i = .ld x ∧ eb = x.eb ∧ ec = x.ec ∧ pk = x.pk ∧ accessRule (.ld { x with ec := 0#4 }) s = some r) ∨
     (∃ x, i = .atomAdd x ∧ eb = x.eb ∧ ec = x.ec ∧ pk = x.pk ∧ (x.space = 1#3 ∨ x.space = 0#3 ∧ 4 ≤ x.scope.toNat) ∧
        accessRule (.atomAdd { x with ec := 0#4 }) s = some r)) →
    ec ≠ 0#4 → hmode g = false → Alone s → Fresh s → Standing s → ScalarsReady s r.scalars [] →
    VectorsReady s r.vectors (r.fills ++ esc) → NoneDue s (r.vectors ++ r.fills ++ esc) →
    (r.scalars.head?.all fun x => !poisonedS g x) = true →
    (r.vectors.head?.all fun x => r.lanes.all fun l => !poisonedV g x l) = true →
    r.lanes ≠ [] → ¬(r.space = 1 ∧ o.scope = 6) → NoWatch s → checkHeld s g = false →
    (∀ l ∈ r.lanes, located s r.space r.use r.bytes (r.addr l) = some (place l)) →
    ∃ t, exec i s = .next t ∧ t.mem = s.mem ∧ GoesOn s t ∧
      (∀ tag, freeTag s g.core = some tag →
        abroadCount s (sameAccount g s.cur.gid) + n ≤ recField (launchOf s g).record 216 13 →
        abroadCount s (fun x => x.core == g.core) + n ≤ 4096 →
        (∀ x, x < 256 → fullV (curGroup t) x = (!(r.fills ++ esc).contains x && fullV g x)) ∧
        (curGroup t).parked = (g.parked || (pk == 1#1 && decide (g.stack.length = 1))) ∧
        ∃ c, (tget t.outs s.nextId).map (fun x => { bareOut x with coach := none }) = some (bareOut o) ∧
          (tget t.outs s.nextId).map (·.coach) = some (some c) ∧
          c.base = eb.toNat ∧ c.count = ec.toNat ∧ c.tag = tag ∧ c.carriages = n ∧ c.status = 0 ∧
          (∀ x l, x ∈ esc → l < g.width → l < 64 → tgetD c.payload (laneKey x l) 0#32 = getV g x l)) ∧
      ((freeTag s g.core = none ∨ recField (launchOf s g).record 216 13 < abroadCount s (sameAccount g s.cur.gid) + n ∨
          4096 < abroadCount s (fun x => x.core == g.core) + n) →
        (tget t.outs s.nextId).map bareOut = some (bareOut o) ∧ (curGroup t).ref = true ∧
        (∀ x, x < 256 → fullV (curGroup t) x = (!r.fills.contains x && fullV g x)) ∧
        (∀ k, teamKey g = some k →
          (tget t.teams k).map (·.refusals) = (tget s.teams k).map fun x => x.refusals + 1))

/-- LOAD_REPLY and STORE_ACKNOWLEDGED of an access whose turn has come. Where it travels (R78, R96), its request joins
its core's trains first; what the spec calls its performance is a later step, its answer then travels home, and the
last step writes the registers.

A load (R236): each lane gets the bytes found at its place, the rest of a narrow lane 0, with the poison of their
granules (R406); memory is unchanged. Where lines come into the L1 under a load of several lanes, each byte is
memory's or one that the L1 held.

An atomic (R242 to R244): the lanes act on memory, or on their team's share, one after the other in increasing order;
each gets the value it found. XCVT reads its objects (R246). One lane's access may also come apart from the others, so
that others' accesses fall between the lanes (R109).

A store (R75, R78, R149, R237, R245, R247) writes its lanes' bytes to memory, to its team's share, or, at team scope
or narrower on cached pages, into its core's L1, memory unchanged until their write-back; an XADD adds to its objects;
a fence changes no memory.

Choices of the model in it: log 27. -/
def Obligations.AccessesPerform : Prop :=
  (
    ∀ (id : Nat) (o : Out) (i : Instr) (s : State), Due s id o → ¬Local s o → o.sent = false →
      (∃ a ∈ o.lanes, a.did = false) →
      (i = .loadReply id false ∧ fillsRegister o = true ∨ i = .storeAcknowledged id ∧ fillsRegister o = false) →
      ∃ t, exec i s = .next t ∧ tget t.outs id = some { o with sent := true, away := true } ∧ t.mem = s.mem ∧
        t.groups = s.groups ∧ t.teams = s.teams ∧
        tget t.trains s.nextId = some { src := o.core, cargo := .access, item := id, home := false } ∧
        (sourceAt t o.core).inject = (sourceAt s o.core).inject ++ [s.nextId]) ∧
  (
    ∀ (id : Nat) (o : Out) (s : State), Performable s id o → o.kind = .load → o.size ∈ [1, 2, 4, 8, 16] →
      ∃ t, exec (.loadReply id false) s = .next t ∧ t.mem = s.mem ∧ t.poison = s.poison ∧
        (o.sent = true → ∃ p, Answered s t id o p ∧ ∀ k a, o.lanes[k]? = some a →
          let x := p.lanes.getD k {}
          ((∀ b ∈ o.lanes, ¬keepsToL1 o b ∨ inL1Whole s o b) ∨ o.lanes.length ≤ 1 →
            x.res = BitVec.ofNat 128 (seenNat s o a) ∧ ∀ i, i < 4 → x.resPoison.getLsbD i =
              (List.range o.size).any fun j => j / 4 == i && (seenByte s o a (a.pa + j)).2) ∧
          (keepsToL1 o a → ∀ j, j < o.size → maySee s o (a.pa + j) (x.res.extractLsb' (8 * j) 8))) ∧
        (o.sent = false → Completed s t id ∧ (∀ k, k ≠ o.gid → tget t.groups k = tget s.groups k) ∧
          (o.scalar = false → o.nreg = ruleRegs o.size → o.reg + o.nreg ≤ 256 →
            Landed s t o fun k a => BitVec.ofNat 32 (seenNat s o a / 2 ^ (32 * k))))) ∧
  (
    ∀ (id : Nat) (o : Out) (evicted : Bool) (s : State), Due s id o → fillsRegister o = true → o.sent = false →
      (∀ a ∈ o.lanes, a.did = true) →
      ∃ t, exec (.loadReply id evicted) s = .next t ∧ Completed s t id ∧ t.mem = s.mem ∧ t.poison = s.poison ∧
        (∀ k, k ≠ o.gid → tget t.groups k = tget s.groups k) ∧
        (o.scalar = false → o.reg + o.nreg ≤ 256 →
          Landed s t o (fun k a => a.res.extractLsb' (32 * k) 32) ∧
          ∀ g h, tget s.groups o.gid = some g → g.ended = false → tget t.groups o.gid = some h →
            ∀ k a, k < o.nreg → a ∈ o.lanes → poisonedV h (o.reg + k) a.lane = a.resPoison.getLsbD k) ∧
        (∀ a g, o.scalar = true → o.hreg = false → o.reg < 128 → o.lanes = [a] →
          tget s.groups o.gid = some g → g.ended = false →
          ∃ h, tget t.groups o.gid = some h ∧ tgetD h.sregs o.reg 0#64 = a.res.setWidth 64 ∧
            h.sfull.getLsbD o.reg = true ∧ (∀ r, r ≠ o.reg → tgetD h.sregs r 0#64 = tgetD g.sregs r 0#64) ∧
            h.vregs = g.vregs ∧ h.vfull = g.vfull ∧ h.handler = g.handler ∧ h.stack = g.stack)) ∧
  (
    ∀ (id : Nat) (o : Out) (evicted : Bool) (s : State), Performable s id o → o.scalar = false →
      (∀ a ∈ o.lanes, a.pa % o.size = 0) → o.reg + o.nreg ≤ 256 →
      (o.kind = .atomic → o.size ∈ [4, 8] → o.nreg = ruleRegs o.size → (0x7D ≤ o.op → o.size = 4) →
        (∀ a ∈ o.lanes, a.data.toNat < 2 ^ (8 * o.size) ∧ a.swap.toNat < 2 ^ (8 * o.size)) →
        ∃ t, exec (.loadReply id evicted) s = .next t ∧
          (o.space ≠ 2 → t.mem = (ruleAtomics o.op o.size o.lanes s.mem).1 ∧
            Obtained s t id o (ruleAtomics o.op o.size o.lanes s.mem).2) ∧
          (∀ k x, o.space = 2 → o.owner = .team k → tget s.teams k = some x → t.mem = s.mem ∧
            (tget t.teams k).map (·.share) = some (ruleAtomics o.op o.size o.lanes x.share).1 ∧
            Obtained s t id o (ruleAtomics o.op o.size o.lanes x.share).2)) ∧
      (o.kind = .xcvt → o.space = 0 → o.size = 64 → o.nreg = 1 →
        ∃ t, exec (.loadReply id evicted) s = .next t ∧ t.mem = s.mem ∧
          Obtained s t id o (o.lanes.map fun a => (xaRead (BitVec.ofNat 512 (leNat (mread s.mem a.pa 64)))).toNat))) ∧
  (
    ∀ (id : Nat) (o : Out) (s : State), Performable s id o → memWf s.mem = true → (∀ a ∈ o.lanes, a.pa % o.size = 0) →
      (o.kind = .store ∧ o.size ∈ [1, 2, 4, 8, 16] ∨ o.kind = .xadd ∧ o.space = 0 ∨ o.kind = .fence ∧ o.lanes = []) →
      (o.kind = .xadd → o.size = 64) →
      (∀ a ∈ o.lanes, o.kind = .store → keepsToL1 o a → (tget (coreAt s o.core).lines (a.pa / 128)).isSome = true ∨
        (coreAt s o.core).lines.length + o.lanes.length ≤ Config.l1Lines) →
      ∃ t, exec (.storeAcknowledged id) s = .next t ∧ (o.sent = false → Completed s t id ∧ t.groups = s.groups) ∧
        (o.sent = true → ∃ p, Answered s t id o p) ∧
        (o.kind = .fence → t.mem = s.mem ∧ t.poison = s.poison) ∧
        (o.kind = .xadd → t.mem = ruleXadds o.lanes s.mem) ∧
        (o.kind = .store → o.space ≠ 2 → (∀ a ∈ o.lanes, ¬keepsToL1 o a) → t.mem = ruleStores o.size o.lanes s.mem) ∧
        (∀ k x, o.kind = .store → o.space = 2 → o.owner = .team k → tget s.teams k = some x → t.mem = s.mem ∧
          (tget t.teams k).map (·.share) = some (ruleStores o.size o.lanes x.share)) ∧
        (o.kind = .store → o.lanes ≠ [] → (∀ a ∈ o.lanes, keepsToL1 o a) → t.mem = s.mem ∧
          ∀ a ∈ o.lanes, ∀ x, a.pa ≤ x → x < a.pa + o.size →
            ∃ l, tget (coreAt t o.core).lines (x / 128) = some l ∧ l.valid.getLsbD (x % 128) = true ∧
              l.data.extractLsb' (8 * (x % 128)) 8 = mget (ruleStores o.size o.lanes s.mem) x)) ∧
  (
    ∀ (id k : Nat) (o : Out) (a : LaneAcc) (s : State), s.boot.powered = true → Performable s id o → o.kind = .atomic →
      o.space ≠ 2 → o.size ∈ [4, 8] → (0x7D ≤ o.op → o.size = 4) → a.data.toNat < 2 ^ (8 * o.size) →
      a.swap.toNat < 2 ^ (8 * o.size) → o.lanes[k]? = some a →
      let one := ruleAtomics o.op o.size [a] s.mem
      ∃ t p, runTurn (.lane id k) s = .next t ∧ t.mem = one.1 ∧ t.groups = s.groups ∧ tget t.outs id = some p ∧
        p.lanes.length = o.lanes.length ∧ ∀ j b, p.lanes[j]? = some b → b.did = decide (j = k) ∧
          (j = k → b.res = BitVec.ofNat 128 (one.2.headD 0)))

/-! ### Fill barriers and rendezvous points -/

/-- FINIT, FEXPECT and FWAIT (R91, R92, R253): FINIT gives the barrier phase 0, no arrived bytes and the expected
count s(sb); FEXPECT adds s(sb) to the count and judges the barrier once; FWAIT, none of the strand's acquires
outstanding, goes on once the phase differs from the named one, with a membership-change trap pending where the flip
it saw was one (R431), and waits until then; only clean lines leave the L1.

Choices of the model in it: log 27. -/
def Obligations.FillBarriers : Prop :=
  ∀ (s : State) (sa sb : BitVec 7) (k : Nat) (x : Team),
    let g := curGroup s
    let off := (getS g sa.toNat).toNat
    let n := (getS g sb.toNat).toNat
    let (ph, arr, exp) := fillBarrier (mword x.share off)
    g.owner = .team k → tget s.teams k = some x → Alone s → ScalarsReady s [sa.toNat, sb.toNat] [] →
    CleanScalars s [sa.toNat, sb.toNat] → off % 8 = 0 → off + 8 ≤ shareSize s g → ownAccess s 2 [(off, 8)] = false →
    (∀ o : SaSbOp, o.sa = sa → o.sb = sb → n < 2 ^ 31 →
      ∃ t, exec (.finit o) s = .next t ∧ OnlyMoves s t ∧ GoesOn s t ∧
        OnlyTeam s t fun x y => fillBarrier (mword y.share off) = (false, 0, n) ∧ OnlyShare off 8 x y) ∧
    (∀ o : SaSbOp, o.sa = sa → o.sb = sb → exp + n < 2 ^ 31 →
      ∃ t, exec (.fexpect o) s = .next t ∧ OnlyMoves s t ∧ GoesOn s t ∧
        OnlyTeam s t fun x y =>
          fillBarrier (mword y.share off) = ruleJudge ph arr (exp + n) ∧ OnlyShare off 8 x y) ∧
    (∀ o : SaSbOp, o.sa = sa → o.sb = sb → (2 ^ 31 ≤ n → Traps (.finit o) s 0x0A#8) ∧
      (2 ^ 31 ≤ exp + n → Traps (.fexpect o) s 0x0A#8)) ∧
    (∀ (o : FwaitOp) (named : Bool), o.sa = sa → o.sb = sb →
      (o.reg = 1#1 ∧ n ≤ 1 ∧ named = decide (n = 1) ∨ o.reg = 0#1 ∧ named = (o.ph == 1#1)) →
      (ph = named → Waits (.fwait o) s) ∧
      (ph ≠ named → acqPending s = false → ∃ t, exec (.fwait o) s = .next t ∧ OnlyMoves s t ∧ GoesOn s t ∧ t.teams = s.teams ∧
        (∀ j, j ≠ s.cur.gid → tget t.groups j = tget s.groups j) ∧ noCores t = noCores s ∧ KeepsCores s t ∧
        (Standing s → hmode g = false → (curStrand s).reconv ≠ some (nextPc (curStrand s)) →
          (curStrand t).pend = (curStrand s).pend ++
            if x.mflips.contains off ∧ g.mcmask = false then [{ code := 0x20#8 }] else [])))

/-- BINIT (R33, R37, R254): a point of the team that is not initialised takes its expected count, with no arrivals and
phase 0; a second BINIT of the point, a count out of range and a scope other than team or device trap. In a gang grid
the first BINIT of a device-scope point sets it for every team, and a later one with the same count has no effect.

BARV, BWAIT and BSYNC at a team-scope point of a team on one core (R34, R35, R45, R254): with none of its threads'
accesses outstanding, an arrival is counted at once, and the strand records the phase it counted in; one that would
take the count past the expected count traps. With some outstanding, it is noted with the accesses it awaits, the
point unchanged. BWAIT goes on once the phase differs from the recorded one, or a flip has released it, and waits
until then; BSYNC does both.

An arrival that flips the phase completes the instruction of a strand that waits on the point: it stands at its next
instruction (R351).

BARV_ARRIVAL_COUNTED (R34, R45, R376): once what a team-scope arrival awaits is performed, its point counts its lanes
and the strands that carry it record the phase it counted in; one that would take the count past the expected count
leaves the point as it was, and its strand's trap is pending with the PC of its BARV or BSYNC (R360, R385).

Choices of the model in it: log 30. -/
def Obligations.Points : Prop :=
  (
    ∀ (s : State) (o : BinitOp) (k : Nat) (x : Team),
      let g := curGroup s
      let b := o.b.toNat
      let n := (getS g o.sa.toNat).toNat
      let l := launchOf s g
      let mine := (tgetD x.points b {}).init
      let grid := (tgetD l.points b {}).init
      g.owner = .team k → tget s.teams k = some x → Alone s → hmode g = false → ScalarsReady s [o.sa.toNat] [] →
      CleanScalars s [o.sa.toNat] → (tget s.launches x.launch).isSome = true →
      (o.scope = 2#3 → mine = false → grid = false → 1 ≤ n → n ≤ 16384 →
        ∃ t, exec (.binit o) s = .next t ∧ OnlyMoves s t ∧ GoesOn s t ∧
          OnlyTeam s t (OnlyPoint b { init := true, expected := n })) ∧
      (o.scope = 5#3 → l.record.getLsbD 184 = true → mine = false → grid = false → 1 ≤ n → n < 2 ^ 32 →
        ∃ t, exec (.binit o) s = .next t ∧ OnlyMoves s t ∧ GoesOn s t ∧ t.teams = s.teams ∧
          (∀ j, j ≠ s.cur.gid → tget t.groups j = tget s.groups j) ∧
          { aside t with launches := [] } = { aside s with launches := [] } ∧
          (∀ j, j ≠ x.launch → tget t.launches j = tget s.launches j) ∧
          ∃ m, tget t.launches x.launch = some m ∧ { m with points := [] } = { l with points := [] } ∧
            tget m.points b = some { init := true, device := true, expected := n } ∧
            ∀ c, c ≠ b → tget m.points c = tget l.points c) ∧
      (o.scope = 5#3 → l.record.getLsbD 184 = true → mine = false → grid = true → (tgetD l.points b {}).expected = n →
        1 ≤ n → n < 2 ^ 32 → ∃ t, exec (.binit o) s = .next t ∧ OnlyMoves s t ∧ GoesOn s t ∧ Elsewhere s t) ∧
      (o.scope ≠ 2#3 ∧ o.scope ≠ 5#3 ∨ o.scope = 5#3 ∧ l.record.getLsbD 184 = false → Traps (.binit o) s 0x08#8) ∧
      (o.scope = 2#3 → (mine = true ∨ n = 0 ∨ 16384 < n) → Traps (.binit o) s 0x09#8) ∧
      (o.scope = 5#3 → l.record.getLsbD 184 = true →
        (mine = false ∧ grid = true ∧ (tgetD l.points b {}).expected ≠ n ∨ n = 0 ∨ 2 ^ 32 ≤ n) → Traps (.binit o) s 0x09#8)) ∧
  (
    ∀ (s : State) (o : PointOp) (k : Nat) (x : Team) (p : Point),
      let g := curGroup s
      let e := curStrand s
      let b := o.b.toNat
      let n := (activeLanes g e).length
      g.owner = .team k → tget s.teams k = some x → Alone s → Fresh s → Standing s → hmode g = false → b < 24 →
      x.cores.length ≤ 1 → tget x.points b = some p → p.init = true → (∀ a ∈ x.arrivals, a.2.point ≠ b) →
      tget x.arrivals s.nextId = none →
      (p.expected < p.arrived + n → earlierAccesses s = [] → e.stage = 0 →
        Traps (.barv o) s 0x09#8 ∧ Traps (.bsync o) s 0x09#8) ∧
      (p.arrived + n ≤ p.expected → earlierAccesses s = [] → e.released = false →
        (p.arrived + n = p.expected → NoneWaits s) →
        (∃ t, exec (.barv o) s = .next t ∧ OnlyMoves s t ∧ GoesOn s t ∧
          OnlyTeam { s with nextId := s.nextId + 1 } t (OnlyPoint b (ruleArrive p n)) ∧
          (e.reconv ≠ some (nextPc e) → tget (curStrand t).phases b = some p.phase)) ∧
        (e.stage = 0 → ∃ t, exec (.bsync o) s = .next t ∧ OnlyMoves s t ∧
          (p.arrived + n = p.expected → GoesOn s t) ∧
          OnlyTeam { s with nextId := s.nextId + 1 } t (OnlyPoint b (ruleArrive p n)) ∧
          (p.arrived + n < p.expected → (curStrand t).pc = e.pc ∧ (curStrand t).stage = 1 ∧
            tget (curStrand t).phases b = some p.phase))) ∧
      (earlierAccesses s ≠ [] →
        ∃ t, exec (.barv o) s = .next t ∧ OnlyMoves s t ∧ GoesOn s t ∧
          OnlyTeam { s with nextId := s.nextId + 1 } t fun x y => { y with arrivals := [] } = { x with arrivals := [] } ∧
            (tget y.arrivals s.nextId).map (fun a => (a.gid, a.entry, a.point, a.lanes, a.after)) =
              some (s.cur.gid, s.cur.entry, b, n, earlierAccesses s) ∧
            ∀ j, j ≠ s.nextId → tget y.arrivals j = tget x.arrivals j) ∧
      (p.arrived + n = p.expected → earlierAccesses s = [] → ∀ j h f, j ≠ s.cur.gid → tget s.groups j = some h →
        findEntry h.stack f.id = some f → h.owner = g.owner → h.handler = none → x.phase = .resident →
        f.waitsOn = some b → f.released = false → tget f.phases b = some p.phase → (∀ q ∈ f.phases, q.1 < 24) →
        h.stepping = none → f.reconv ≠ some (nextPc f) →
        (∀ y ∈ s.groups, ∀ e' ∈ y.2.stack, e'.waitsOn ≠ none → y.1 = j ∧ e'.id = f.id) →
        ∃ t h' f', exec (.barv o) s = .next t ∧ tget t.groups j = some h' ∧ findEntry h'.stack f.id = some f' ∧
          f'.pc = nextPc f ∧ f'.waitsOn = none ∧ f'.stage = 0) ∧
      ((∀ q ∈ e.phases, q.1 < 24) → acqPending s = false →
        (∀ ph, tget e.phases b = some ph → ph ≠ p.phase ∨ e.released = true →
          (∃ t, exec (.bwait o) s = .next t ∧ OnlyMoves s t ∧ GoesOn s t ∧ Elsewhere s t) ∧
          (e.stage = 1 → ∃ t, exec (.bsync o) s = .next t ∧ OnlyMoves s t ∧ GoesOn s t ∧ Elsewhere s t)) ∧
        (e.released = false → tget e.phases b = some p.phase →
          exec (.bwait o) s = .next (stalled (setStrand s { e with waitsOn := some b })) ∧
          (e.stage = 1 → exec (.bsync o) s = .next (stalled (setStrand s { e with waitsOn := some b })))) ∧
        (e.released = false → tget e.phases b = none → exec (.bwait o) s =
          .next (stalled (setStrand s { e with waitsOn := some b, phases := tset e.phases b p.phase }))))) ∧
  (
    ∀ (s : State) (id k : Nat) (x : Team) (a : Arrival) (p : Point),
      s.teams.find? (fun t => (tget t.2.arrivals id).isSome) = some (k, x) → tget s.teams k = some x →
      tget x.arrivals id = some a → a.after = [] → a.staged = true → a.afterWb = [] → chkOf s { owner := .team k } = false →
      tget x.points a.point = some p → p.init = true → a.point < 24 →
      (p.expected < p.arrived + a.lanes →
        ∃ t, exec (.barvArrivalCounted id) s = .next t ∧ aside t = aside s ∧
          tget t.teams k = some { x with arrivals := terase x.arrivals id } ∧
          (∀ j, j ≠ k → tget t.teams j = tget s.teams j) ∧
          ∀ h f, tget s.groups a.gid = some h → findEntry h.stack a.entry = some f →
            ∃ h' f', tget t.groups a.gid = some h' ∧ findEntry h'.stack a.entry = some f' ∧
              f'.pend = f.pend ++ [{ code := 0x09#8, tpc := some a.pc }]) ∧
      (p.arrived + a.lanes ≤ p.expected → (p.arrived + a.lanes = p.expected → NoneWaits s) →
      ∃ t, exec (.barvArrivalCounted id) s = .next t ∧ aside t = aside s ∧
        (∀ j, j ≠ k → tget t.teams j = tget s.teams j) ∧
        (∃ y, tget t.teams k = some y ∧ y.arrivals = terase x.arrivals id ∧
          OnlyPoint a.point (ruleArrive p a.lanes) x { y with arrivals := x.arrivals }) ∧
        (∀ j, (tget t.groups j).map (fun g => { g with stack := [] }) =
          (tget s.groups j).map (fun g => { g with stack := [] })) ∧
        ∀ j g e, tget s.groups j = some g → e ∈ g.stack → (tget e.phases (24 * id + a.point)).isSome = true →
          ∃ h f, tget t.groups j = some h ∧ f ∈ h.stack ∧ f.id = e.id ∧ tget f.phases a.point = some p.phase ∧
            { f with phases := [] } = { e with phases := [] }))

/-! ### Queues and tiles -/

/-- The queue instructions (R93, R255 to R258), with the team on one core and none of the strand's accesses
outstanding: QINIT writes a header, QPUSH and QPOP copy a slot and count it, QPUSH.res and QWAIT give the offset of
the next slot, QPUSH.cmt and QREL count one; a full or empty queue makes QPUSH, QPUSH.res, QWAIT and QPOP wait and
QPUSH.cmt and QREL trap; an unsound header traps, and so do a misaligned copy and a slot outside the share. Only clean
lines leave the L1.

Choices of the model in it: log 30. -/
def Obligations.Queues : Prop :=
  ∀ (s : State) (k : Nat) (x : Team) (sd sa sb : BitVec 7),
    let g := curGroup s
    let off := (getS g sa.toNat).toNat
    let b := getS g sb.toNat
    let h := countsAt x.share off
    g.owner = .team k → tget s.teams k = some x → Alone s → ScalarsReady s [sa.toNat, sb.toNat] [sd.toNat] →
    CleanScalars s [sa.toNat, sb.toNat] → off % 16 = 0 → off + 16 ≤ shareSize s g → x.cores.length ≤ 1 →
    earlierAccesses s = [] → ownAccess s 2 [(off, 16)] = false → deliveryPending s k off = false →
    (∀ o : SaSbOp, o.sa = sa → o.sb = sb →
      let n : Counts := { ssize := b.toNat % 2 ^ 16, scnt := b.toNat / 2 ^ 16, clc := 0, wrc := 0, rdc := 0 }
      let fits := b.toNat < 2 ^ 32 ∧ n.Sound ∧ off + 16 + n.scnt * n.ssize ≤ shareSize s g
      (fits → ∃ t, exec (.qinit o) s = .next t ∧ OnlyMoves s t ∧ GoesOn s t ∧
        OnlyTeam s t fun x y => countsAt y.share off = n ∧ OnlyShare off 16 x y) ∧
      (¬fits → Traps (.qinit o) s 0x0B#8)) ∧
    (∀ (o : SaSbOp) (r : QResOp) (c : QCmtOp) (w : SdSaOp) (l : SaOp), o.sa = sa → o.sb = sb → r.sa = sa → r.sd = sd →
      c.sa = sa → w.sa = sa → w.sd = sd → l.sa = sa →
      (b.toNat % 16 ≠ 0 → Traps (.qpush o) s 0x12#8 ∧ Traps (.qpop o) s 0x12#8) ∧
      (¬h.Sound → (∀ i ∈ [Instr.qpushRes r, .qpushCmt c, .qwait w, .qrel l], Traps i s 0x0B#8) ∧
        (b.toNat % 16 = 0 → Traps (.qpush o) s 0x0B#8 ∧ Traps (.qpop o) s 0x0B#8)) ∧
      (h.Sound → h.used < h.scnt →
        (b.toNat % 16 = 0 → b.toNat + h.ssize ≤ shareSize s g → shareSize s g < h.slot off h.wrc + h.ssize →
          Traps (.qpush o) s 0x11#8) ∧
        (b.toNat % 16 = 0 → b.toNat + h.ssize ≤ shareSize s g → h.slot off h.wrc + h.ssize ≤ shareSize s g →
          ownAccess s 2 [(off, 16), (b.toNat, h.ssize), (h.slot off h.wrc, h.ssize)] = false →
          ∃ t, exec (.qpush o) s = .next t ∧ OnlyMoves s t ∧ GoesOn s t ∧
            OnlyTeam s t (QueueMoves off { h with wrc := (h.wrc + 1) % 2 ^ 32 } b.toNat (h.slot off h.wrc) h.ssize)) ∧
        (∃ t, exec (.qpushRes r) s = .next t ∧ getS (curGroup t) sd.toNat = BitVec.ofNat 64 (h.slot off h.wrc) ∧
          OnlyScalars s t [sd.toNat] ∧ GoesOn s t ∧ Elsewhere s t) ∧
        ∃ t, exec (.qpushCmt c) s = .next t ∧ OnlyMoves s t ∧ GoesOn s t ∧
          OnlyTeam s t (QueueMoves off { h with wrc := (h.wrc + 1) % 2 ^ 32 } 0 0 0)) ∧
      (h.Sound → h.scnt ≤ h.used → Waits (.qpushRes r) s ∧ Traps (.qpushCmt c) s 0x0B#8 ∧
        (b.toNat % 16 = 0 → b.toNat + h.ssize ≤ shareSize s g → Waits (.qpush o) s)) ∧
      (h.Sound → h.clc ≠ h.wrc →
        (∃ t, exec (.qwait w) s = .next t ∧ getS (curGroup t) sd.toNat = BitVec.ofNat 64 (h.slot off h.clc) ∧
          OnlyScalars s t [sd.toNat] ∧ GoesOn s t ∧ KeepsCores s t ∧
          OnlyTeam { s with cores := t.cores } t (QueueMoves off { h with clc := (h.clc + 1) % 2 ^ 32 } 0 0 0)) ∧
        (b.toNat % 16 = 0 → b.toNat + h.ssize ≤ shareSize s g → shareSize s g < h.slot off h.clc + h.ssize →
          Traps (.qpop o) s 0x11#8) ∧
        (b.toNat % 16 = 0 → b.toNat + h.ssize ≤ shareSize s g → h.slot off h.clc + h.ssize ≤ shareSize s g →
          ownAccess s 2 [(off, 16), (b.toNat, h.ssize), (h.slot off h.clc, h.ssize)] = false →
          ∃ t, exec (.qpop o) s = .next t ∧ OnlyMoves s t ∧ GoesOn s t ∧ KeepsCores s t ∧
            OnlyTeam { s with cores := t.cores } t (QueueMoves off { h with clc := (h.clc + 1) % 2 ^ 32, rdc := (h.rdc + 1) % 2 ^ 32 }
              (h.slot off h.clc) b.toNat h.ssize))) ∧
      (h.Sound → h.clc = h.wrc → Waits (.qwait w) s ∧
        (b.toNat % 16 = 0 → b.toNat + h.ssize ≤ shareSize s g → Waits (.qpop o) s)) ∧
      (h.Sound → h.rdc ≠ h.clc → ∃ t, exec (.qrel l) s = .next t ∧ OnlyMoves s t ∧ GoesOn s t ∧
        OnlyTeam s t (QueueMoves off { h with rdc := (h.rdc + 1) % 2 ^ 32 } 0 0 0)) ∧
      (h.Sound → h.rdc = h.clc → Traps (.qrel l) s 0x0B#8))

/-- TDEF, TREL and TSTAT (R88, R89, R248, R251): TDEF writes the entry, defined and empty, and traps on an operand out
of order or a tile in use; TREL empties a tile that is empty or ready and waits for one that is filling or draining;
TSTAT gives 4 + STATE. A tile that is not defined makes TREL and TSTAT trap.

TLOAD and TSTORE at issue (R89, R90, R249, R250): with every page of the region translated, none of the strand's
acquires outstanding and nothing of the group under way on its bytes, the tile is filling or draining and a copy
stands; a tile in a state that does not let the copy start makes the strand wait; a misaligned base or stride traps.

TLOAD_COPY_DONE and TSTORE_DONE (R88, R90, R128, R249, R250): a load's source bytes stand in the tile's elements, its
size has arrived at the fill barrier, and the tile is ready; the rows of a store's tile stand in memory, a later row
over an earlier one, and the tile is ready again. Of the stores since its issue the engine may miss some; with none,
it reads what stands there. The copy is off the list, and a state of the tile that a handler has written is forgotten
(R289).

Choices of the model in it: log 29. -/
def Obligations.TileCopies : Prop :=
  (
    ∀ (s : State) (k n : Nat) (x : Team),
      let g := curGroup s
      let e := tgetD x.tiles n 0#128
      let st := e.extractLsb' 0 2
      g.owner = .team k → tget s.teams k = some x → Alone s → tileHeld s k n = false →
      (∀ o : TdefOp, o.t.toNat = n → ScalarsReady s [o.sa.toNat, o.sb.toNat, o.sd.toNat] [] →
        CleanScalars s [o.sa.toNat, o.sb.toNat, o.sd.toNat] →
        let base := getS g o.sa.toNat
        let shape := getS g o.sb.toNat
        let bar := getS g o.sd.toNat
        let new := ruleTile base shape bar
        let fits := base.toNat % 64 = 0 ∧ bar.toNat % 8 = 0 ∧ (∀ j, j < 64 → shape.getLsbD j = true →
          j < 11 ∨ 16 ≤ j ∧ j < 27 ∨ 32 ≤ j ∧ j < 34) ∧ shape.extractLsb' 32 2 ≠ 3#2 ∧
          base.toNat < 2 ^ 18 ∧ tEnd new ≤ shareSize s g ∧ bar.toNat + 8 ≤ shareSize s g ∧
          ¬(e.getLsbD 2 = true ∧ st ≠ 0#2)
        (fits → ∃ t, exec (.tdef o) s = .next t ∧ OnlyMoves s t ∧ GoesOn s t ∧ OnlyTeam s t (OnlyTile n new)) ∧
        (¬fits → Traps (.tdef o) s 0x0A#8)) ∧
      (∀ (o : TileOp) (w : TstatOp), o.t.toNat = n → w.t.toNat = n → ScalarsReady s [] [w.sd.toNat] →
        (e.getLsbD 2 = false → Traps (.trel o) s 0x0A#8 ∧ Traps (.tstat w) s 0x0A#8) ∧
        (e.getLsbD 2 = true → tEsize e < 3 → tEnd e ≤ shareSize s g →
          (∃ t, exec (.tstat w) s = .next t ∧ getS (curGroup t) w.sd.toNat = BitVec.ofNat 64 (4 + st.toNat) ∧
            OnlyScalars s t [w.sd.toNat] ∧ GoesOn s t ∧ Elsewhere s t) ∧
          (st = 0#2 ∨ st = 2#2 → ∃ t, exec (.trel o) s = .next t ∧ OnlyMoves s t ∧ GoesOn s t ∧
            OnlyTeam s t (OnlyTile n (ruleState e 0#2))) ∧
          (st = 1#2 ∨ st = 3#2 → Waits (.trel o) s)))) ∧
  (
    ∀ (s : State) (k n : Nat) (x : Team) (sa sb : BitVec 7),
      let g := curGroup s
      let e := tgetD x.tiles n 0#128
      let st := e.extractLsb' 0 2
      let base := getS g sa.toNat
      let stride := getS g sb.toNat
      g.owner = .team k → tget s.teams k = some x → Alone s → tileHeld s k n = false →
      ScalarsReady s [sa.toNat, sb.toNat] [] → CleanScalars s [sa.toNat, sb.toNat] → pendingWb s g.core (fun _ => true) = [] →
      e.getLsbD 2 = true → tEsize e < 3 → tEnd e ≤ shareSize s g →
      (∀ (o : TloadOp) (trans : Bool) (segs : List (Nat × Nat)), o.t.toNat = n → o.sa = sa → o.sb = sb →
        (o.tr = 0#2 ∧ trans = false ∨ o.tr.toNat = tEsize e + 1 ∧ o.tr ≠ 3#2 ∧ trans = true) →
        (st = 1#2 ∨ st = 3#2 → Waits (.tload o) s) ∧
        ((st = 0#2 ∨ st = 2#2) → base.toNat % tBytes e ≠ 0 ∨ stride.toNat % tBytes e ≠ 0 → Traps (.tload o) s 0x12#8) ∧
        ((st = 0#2 ∨ st = 2#2) → base.toNat % tBytes e = 0 → stride.toNat % tBytes e = 0 →
          ownAccess s 2 [(tBase e, tEnd e - tBase e), (tBar e, 8)] = false → ownAccess s 0 segs = false →
          acqPending s = false → ∀ u, translatePieces g 0 (tileRegion e trans base stride) s = .ok (segs, u) →
          OnlyTlbs s u ∧ ∃ t, exec (.tload o) s = .next t ∧ OnlyMoves s t ∧ GoesOn s t ∧
            OnlyTeam { u with nextId := s.nextId + 1, copies := t.copies } t (OnlyTile n (ruleState e 1#2)) ∧
            t.copies = tset s.copies s.nextId
              { load := true, team := k, gid := s.cur.gid, core := g.core, ctx := (launchOf s g).queue, tile := n
                trans := trans, segs := segs, since := s.notes.length })) ∧
      (∀ (o : TstoreOp) (segs : List (Nat × Nat)), o.t.toNat = n → o.sa = sa → o.sb = sb →
        (st ≠ 2#2 → Waits (.tstore o) s) ∧
        (st = 2#2 → base.toNat % tBytes e ≠ 0 ∨ stride.toNat % tBytes e ≠ 0 → Traps (.tstore o) s 0x12#8) ∧
        (st = 2#2 → base.toNat % tBytes e = 0 → stride.toNat % tBytes e = 0 →
          ownAccess s 2 [(tBase e, tEnd e - tBase e)] = false → ownAccess s 0 segs = false →
          acqPending s = false → ∀ u, translatePieces g 1 (tileRegion e false base stride) s = .ok (segs, u) →
          OnlyTlbs s u ∧ ∃ t, exec (.tstore o) s = .next t ∧ OnlyMoves s t ∧ GoesOn s t ∧
            OnlyTeam { u with nextId := s.nextId + 1, copies := t.copies } t (OnlyTile n (ruleState e 3#2)) ∧
            t.copies = tset s.copies s.nextId
              { load := false, team := k, gid := s.cur.gid, core := g.core, ctx := (launchOf s g).queue, tile := n
                segs := segs, since := s.notes.length }))) ∧
  (
    ∀ (s : State) (id : Nat) (c : Copy) (x : Team),
      let e := tgetD x.tiles c.tile 0#128
      let size := tRows e * tCols e * tBytes e
      tget s.copies id = some c → tget s.teams c.team = some x → (x.phase = .resident ∨ x.phase = .stopping) →
      x.mate = none → x.values = [] → (c.segs.map (·.2)).sum = size → tEsize e < 3 → c.first.length ≤ size →
      (c.load = true → ∀ early,
        let seen := segBytes s c.team c.since (fun k => early.testBit (k - c.since)) c.segs
        let bytes := c.first ++ seen.drop c.first.length
        (s.notes.length ≤ c.since → x.held = [] →
          seen.map (·.1) = c.segs.flatMap fun y => mread s.mem y.1 y.2) ∧
        ∃ t, exec (.tloadCopyDone id early) s = .next t ∧ t.mem = s.mem ∧ ForgetsTile s t c.team c.tile ∧
          t.cores = s.cores ∧ t.copies = terase s.copies id ∧ noCopies t = noCopies s ∧
          (∀ j, j ≠ c.team → (tget t.teams j).map noRecord = (tget s.teams j).map noRecord) ∧
          ∃ y, tget t.teams c.team = some y ∧ TileDone c.tile (ruleState e 2#2) x y ∧
            (∀ i j d, i < tRows e → j < tCols e → d < tBytes e →
              (tElem e i j + d < tBar e ∨ tBar e + 8 ≤ tElem e i j + d) →
              mget y.share (tElem e i j + d) = (bytes.getD (tileSource e c.trans i j d) (0#8, false)).1) ∧
            (tBar e + 8 ≤ 2048 * recField (tgetD s.launches x.launch {}).record 208 8 →
              (tBar e + 8 ≤ tBase e ∨ tEnd e ≤ tBar e) →
              let b := fillBarrier (mword x.share (tBar e))
              fillBarrier (mword y.share (tBar e)) = ruleJudge b.1 (min (b.2.1 + size) (2 ^ 31 - 1)) b.2.2)) ∧
      (c.load = false → c.first = [] →
        ∃ t unseen, exec (.tstoreDone id) s = .next t ∧
          let rows := (List.range (tRows e)).flatMap fun i =>
            engineBytes s (some c.team) c.since unseen (tElem e i 0) (tRowBytes e)
          (s.notes.length ≤ c.since →
            rows.map (·.1) = (List.range (tRows e)).flatMap fun i => mread x.share (tElem e i 0) (tRowBytes e)) ∧
          t.mem = ruleSegs c.segs (rows.map (·.1)) s.mem ∧
          ForgetsTile s t c.team c.tile ∧ KeepsCores s t ∧ t.copies = terase s.copies id ∧
          { noCopies t with freeNo := 0 } = { noCopies s with freeNo := 0 } ∧
          (∀ j, j ≠ c.team → tget t.teams j = tget s.teams j) ∧
          ∃ y, tget t.teams c.team = some y ∧ y.share = x.share ∧ OnlyTile c.tile (ruleState e 2#2) x { y with chk := x.chk }))

/-! ### The matrix engine -/

/-- MLDW, MSWAP, MSTREAM, MDRAIN and MZERO at issue (R17, R31, R48, R264 to R270): in a launch with MAT = 1, on the
team's home core, with the group converged outside handler mode, its own checks passed, its scale run full, its tile
ready (or free to drain), none of its acquires outstanding and a place in the queue, the operation enters the queue
with its operands, an MDRAIN sets its tile draining, and the strand goes on; with 16 in the queue it waits. A scale
register past the declaration takes 0x03 before anything else (R164, R176); MAT = 0, a foreign core and a failed check
take 0x0A, a group that is not converged 0x05.

Choices of the model in it: log 31. -/
def Obligations.MatrixIssue : Prop :=
  ∀ (i : Instr) (s : State) (k : Nat) (x : Team) (r : MatrixRule),
    let g := curGroup s
    let mat := (launchOf s g).record.getLsbD 187
    let home := x.cores.headD 0 = g.core
    let whole := hmode g = false ∧ g.stack.length = 1 ∧ ∀ l, l < g.width → l < 64 → (curStrand s).mask.getLsbD l = true
    matrixRule i s k x = some r → g.owner = .team k → tget s.teams k = some x → Alone s → Standing s → 0 < g.width →
    g.width ≤ 64 → ScalarsReady s r.sources [] → CleanScalars s r.sources →
    let named := ∀ y ∈ ruleScaleNames r g.width, y < declV s g
    ((curStrand s).stage = 0 → ¬named → Traps i s 0x03#8) ∧
    (named → mat = false ∨ ¬home → Traps i s 0x0A#8) ∧ (named → mat = true → home → ¬whole → Traps i s 0x05#8) ∧
    (named → mat = true → home → whole → ¬r.passes → Traps i s 0x0A#8) ∧
    (named → mat = true → home → whole → r.passes → acqPending s = false →
      (∀ y ∈ ruleScaleRegs r g.width, fullV g y = true) →
      (∀ n, r.tile = some n →
        let e := tgetD x.tiles n 0#128
        ownAccess s 2 [(tBase e, tEnd e - tBase e)] = false ∧
          if r.op.kind = .mdrain then (e.extractLsb' 0 2 = 0#2 ∨ e.extractLsb' 0 2 = 2#2) ∧ tileHeld s k n = false
          else e.extractLsb' 0 2 = 2#2) →
      (16 ≤ (coreAt s g.core).mxQueue.length → Waits i s) ∧
      ((coreAt s g.core).mxQueue.length < 16 →
        ∃ t, exec i s = .next t ∧ GoesOn s t ∧
          bareGroup (curGroup t) = { bareGroup g with mxOpen := g.mxOpen ++ [s.nextId] } ∧
          (∀ j, j ≠ s.cur.gid → tget t.groups j = tget s.groups j) ∧ (∀ c, c ≠ g.core → coreAt t c = coreAt s c) ∧
          coreAt t g.core =
            { coreAt s g.core with mxQueue := tset (coreAt s g.core).mxQueue s.nextId (ruleScaled r g) } ∧
          noCores t = noCores { s with nextId := s.nextId + 1 } ∧ (∀ j, j ≠ k → tget t.teams j = tget s.teams j) ∧
          (r.op.kind ≠ .mdrain → t.teams = s.teams) ∧
          (r.op.kind = .mdrain → ∀ n, r.tile = some n → ∃ y, tget t.teams k = some y ∧
            OnlyTile n (ruleState (tgetD x.tiles n 0#128) (if r.op.m = 0 ∨ r.op.n = 0 then 2#2 else 3#2)) x y)))

/-- MBATCH, MWAIT and MSTAT (R271, R272): MBATCH closes the group's open matrix instructions into the batch that its
counter numbers, writes the number and counts on, and waits while 128 batches are outstanding; MWAIT, none of the
strand's acquires outstanding, goes on once its batch is not outstanding; MSTAT writes the engine's status word. -/
def Obligations.MatrixBatches : Prop :=
  ∀ (s : State) (sd : BitVec 7), let g := curGroup s
    Alone s →
    (ScalarsReady s [] [sd.toNat] →
      (128 ≤ g.batches.length → Waits (.mbatch { sd := sd }) s) ∧
      (g.batches.length < 128 → ∃ t, exec (.mbatch { sd := sd }) s = .next t ∧
        getS (curGroup t) sd.toNat = BitVec.ofNat 64 g.batch ∧ GoesOn s t ∧ Elsewhere s t ∧
        (curGroup t).batch = (g.batch + 1) % 256 ∧ (curGroup t).mxOpen = [] ∧
        (curGroup t).batches = (g.batches ++ [{ num := g.batch, ops := g.mxOpen : Batch }]).dropWhile (fun b => b.ops.isEmpty) ∧
        (∀ r, r < 128 → r ≠ sd.toNat → getS (curGroup t) r = getS g r) ∧
        { noScalars (curGroup t) with mxOpen := [], batches := [], batch := 0 } =
          { noScalars g with mxOpen := [], batches := [], batch := 0 }) ∧
      ∃ t, exec (.mstat { sd := sd }) s = .next t ∧ OnlyScalars s t [sd.toNat] ∧ GoesOn s t ∧ Elsewhere s t ∧
        ∀ w, getS (curGroup t) sd.toNat = w → w.extractLsb' 24 40 = 0#40 ∧
          w.getLsbD 23 = (g.owner matches .team _ && (coreAt s g.core).mxHolder == teamKey g) ∧
          (w.extractLsb' 16 7).toNat = min 127 (((coreAt s g.core).mxQueue.map fun o => o.2.gid).count s.cur.gid) ∧
          w.extractLsb' 8 8 = BitVec.ofNat 8 ((g.batches.head?.map (·.num)).getD g.batch) ∧
          w.extractLsb' 0 8 = BitVec.ofNat 8 g.batch) ∧
    ∀ o : MwaitOp, (o.imm = 0#1 → ScalarsReady s [o.sa.toNat] [] ∧ CleanScalars s [o.sa.toNat]) →
      let n := if o.imm = 1#1 then o.n.toNat else (getS g o.sa.toNat).toNat % 256
      acqPending s = false → ((∃ b ∈ g.batches, b.num = n) → Waits (.mwait o) s) ∧
      ((∀ b ∈ g.batches, b.num ≠ n) → ∃ t, exec (.mwait o) s = .next t ∧ OnlyMoves s t ∧ GoesOn s t ∧ Elsewhere s t)

/-- The engine's steps (R263, R264, R266 to R270): MATRIX_TEAM_SWITCH writes the holder's matrix state into its
context record and gives the engine to the team at the head of the queue, whose state comes from its own record where
it has one there; an operation that may complete leaves the queue and its batch, an MLDW having loaded the shadow
plane, an MSWAP exchanged the planes, an MSTREAM added to its accumulator, an MDRAIN written its tile, which is ready,
and an MZERO cleared its accumulator.

Choices of the model in it: log 31. -/
def Obligations.MatrixSteps : Prop :=
  ∀ (s : State) (core : Nat),
    (∀ id o r, (coreAt s core).mxQueue = (id, o) :: r → (coreAt s core).mxHolder ≠ some o.team →
      let kept (h : Nat) : Prop := (teamRecord s h).getLsbD 187 = true ∧ recordOk s h = true
      ∃ t, exec (.matrixTeamSwitch core) s = .next t ∧ t.groups = s.groups ∧
        { noCores t with mem := [], poison := [] } = { noCores s with mem := [], poison := [] } ∧
        (∀ c, c ≠ core → coreAt t c = coreAt s c) ∧
        coreAt t core = { coreAt s core with mxHolder := some o.team } ∧
        (∀ j, (tget t.teams j).map noMatrix = (tget s.teams j).map noMatrix) ∧
        (∀ j, (coreAt s core).mxHolder ≠ some j → j ≠ o.team → (tgetD s.teams o.team {}).mate ≠ some j →
          tget t.teams j = tget s.teams j) ∧
        ((tgetD s.teams o.team {}).matrix.kept = false → tget t.teams o.team = tget s.teams o.team) ∧
        ((∀ h, (coreAt s core).mxHolder = some h → ¬kept h) → t.mem = s.mem) ∧
        ∀ h, (coreAt s core).mxHolder = some h → kept h →
          t.mem = (recordPut s h (matrixAt (teamRecord s h)) (ruleMatrixBytes (tgetD s.teams h {}).matrix)).mem) ∧
    ∀ (id : Nat) (o : MxOp) (x : Team), tget (coreAt s core).mxQueue id = some o → mxReady (coreAt s core) id o = true →
      tget s.teams o.team = some x →
      (o.kind = .mldw → o.n ≤ 64 → ∃ t, exec (.mldwLoaded core id) s = .next t ∧
        EngineDone s t core id o fun x y => ∃ p, OnlyMatrix { x.matrix with shadow := p } x y ∧
          p.k = o.k ∧ p.n = o.n ∧ p.fmt = o.fmt ∧
          ∀ k n, k < o.k → n < o.n →
            (tgetD p.elems (64 * k + n) 0#16) = BitVec.ofNat 16 (ruleElem x o k n) ∧
            tgetD p.scales (64 * k + n) 127#8 = ruleFactor o.scales (2 * n + k / 32) ∧
            p.bad.contains (64 * k + n) = (badElem x o k n || o.badScales.contains (2 * n + k / 32))) ∧
      (o.kind = .mswap → ∃ t, exec (.mswapTakesEffect core id) s = .next t ∧
        EngineDone s t core id o
          (OnlyMatrix { x.matrix with active := x.matrix.shadow, shadow := x.matrix.active })) ∧
      (o.kind = .mstream → x.matrix.active.n ≤ 64 → ∃ t, exec (.mstreamPassed core id) s = .next t ∧
        EngineDone s t core id o fun x y => ∃ accs, OnlyMatrix { x.matrix with accs := accs } x y ∧
          (∀ a, a ≠ o.acc → tget accs a = tget x.matrix.accs a) ∧
          (tgetD accs o.acc {}).int = (tgetD x.matrix.accs o.acc {}).int ∧
          ∀ m n, n < 64 → tgetD (tgetD accs o.acc {}).vals (64 * m + n) 0#64 =
            if m < o.m ∧ n < x.matrix.active.n ∧ x.matrix.active.k ≠ 0 then ruleAccum x o m n
            else tgetD (tgetD x.matrix.accs o.acc {}).vals (64 * m + n) 0#64) ∧
      (o.kind = .mdrain → o.m ≠ 0 → o.n ≠ 0 → ∃ t, exec (.mdrainDone core id) s = .next t ∧
        EngineDone (forgetWritten s o.team o.tile) t core id o fun x y =>
          let e := tgetD x.tiles o.tile 0#128
          TileDone o.tile (ruleState e 2#2) x y ∧
          (fmtSize o.fmt = tBytes e → ∀ m n d, m < o.m → n < o.n → d < tBytes e → o.col0 + o.n ≤ tCols e →
            some (mget y.share (tElem e (o.row0 + m) (o.col0 + n) + d)) = (ruleDrain x o m n)[d]?) ∧
          ∀ a, (∀ m, m < o.m → a < tElem e (o.row0 + m) o.col0 ∨
              tElem e (o.row0 + m) o.col0 + o.n * fmtSize o.fmt ≤ a) → mget y.share a = mget x.share a) ∧
      (o.kind = .mzero → ∃ t, exec (.mzeroDone core id) s = .next t ∧
        EngineDone s t core id o
          (OnlyMatrix { x.matrix with accs := tset x.matrix.accs o.acc { int := o.int, vals := [] } }))

/-! ### Templates, posts and remote requests -/

/-- XTPL and XQUERY (R274, R276, R278): XTPL writes the eight registers into the team's entry and makes it valid,
keeping its counts, or traps with the entry unchanged; XQUERY writes the entry's state.

XPOST (R89, R127, R277): with the right aperture, a valid entry, its row range and destination in order, none of the
strand's acquires outstanding, room in its virtual queue and its tile free to fill, a post stands with a copy of the
entry that awaits the accesses of its group, its tile fills, and the strand waits for its acceptance; accepted, the
strand goes on. A bad aperture, post word, entry or range traps; a full queue or a tile in use makes it wait. -/
def Obligations.TemplatesAndPosts : Prop :=
  (
    ∀ (s : State) (k : Nat) (x : Team), let g := curGroup s
      g.owner = .team k → tget s.teams k = some x → Alone s →
      (∀ o : XtplOp, let rs := (List.range 8).map (o.sa.toNat + ·)
        let b := templateIn g o.sa.toNat
        ScalarsReady s rs [] → CleanScalars s rs →
        (tplOk (shareSize s g) b = true → ∃ t, exec (.xtpl o) s = .next t ∧ OnlyMoves s t ∧ GoesOn s t ∧
          OnlyTeam s t fun x y => { y with templates := [] } = { x with templates := [] } ∧
            (∀ j, j ≠ o.i.toNat → tget y.templates j = tget x.templates j) ∧
            tget y.templates o.i.toNat = some { tgetD x.templates o.i.toNat {} with bits := b, valid := true }) ∧
        ((tplOk (shareSize s g) b = false ∨ 10 ≤ b.toNat % 16 ∨ b.extractLsb' 12 2 = 3#2 ∨ b.extractLsb' 14 3 = 7#3 ∨
          b.extractLsb' 48 16 ≠ 0#16) → Traps (.xtpl o) s 0x13#8)) ∧
      ∀ o : XqueryOp, ScalarsReady s [] [o.sd.toNat] →
        let e := tgetD x.templates o.i.toNat {}
        ∃ t, exec (.xquery o) s = .next t ∧ OnlyScalars s t [o.sd.toNat] ∧ GoesOn s t ∧ Elsewhere s t ∧
          ∀ w, getS (curGroup t) o.sd.toNat = w → w.extractLsb' 32 32 = BitVec.ofNat 32 e.done ∧ w.extractLsb' 24 8 = 0#8 ∧
            w.extractLsb' 16 8 = BitVec.ofNat 8 e.lstat ∧ w.extractLsb' 8 8 = BitVec.ofNat 8 e.pend ∧
            w.extractLsb' 1 7 = 0#7 ∧ w.getLsbD 0 = e.valid) ∧
  (
    ∀ (s : State) (o : SaSbOp) (k : Nat) (x : Team), let g := curGroup s
      let e := curStrand s
      let w := getS g o.sb.toNat
      let i := w.toNat / 2 ^ 52 % 32
      let m := tgetD x.templates i {}
      let rows := if tKind m.bits = 5 then some (0, 1) else ruleRows (tRowsN m.bits) (w.toNat % 2 ^ 52)
      let bad := (getS g o.sa.toNat).toNat ≠ 0xF000000000000 + 0x10000 * (g.core / 14) ∨ 2 ^ 57 ≤ w.toNat ∨
        m.valid = false ∨ rows = none
      g.owner = .team k → tget s.teams k = some x → Alone s → Standing s → ScalarsReady s [o.sa.toNat, o.sb.toNat] [] →
      CleanScalars s [o.sa.toNat, o.sb.toNat] →
      (hmode g = true → e.stage = 0 → Traps (.xpost o) s 0x01#8) ∧
      (hmode g = false → e.stage ≠ 1 → bad → Traps (.xpost o) s 0x13#8) ∧
      (hmode g = false → e.stage ≠ 1 → ¬bad → ∀ f c, rows = some (f, c) → postDestOk s g m.bits c = true →
        acqPending s = false →
        (64 ≤ (queueOf s (g.core / 14) (tPrio m.bits)).length ∨ postTileFree s k m.bits = false → Waits (.xpost o) s) ∧
        ((queueOf s (g.core / 14) (tPrio m.bits)).length < 64 → postTileFree s k m.bits = true →
          ∃ t, exec (.xpost o) s = .next t ∧ OnlyMoves s t ∧
            (tDsp m.bits ≠ 2 → t.teams = s.teams) ∧ (∀ j, j ≠ k → tget t.teams j = tget s.teams j) ∧
            (tDsp m.bits = 2 → ∃ y, tget t.teams k = some y ∧ OnlyTile (tDst m.bits % 64)
              (ruleState (tgetD x.tiles (tDst m.bits % 64) 0#128) 1#2) x { y with snap := x.snap }) ∧
            (∀ j, j ≠ s.cur.gid → tget t.groups j = tget s.groups j) ∧
            (curStrand t).pc = e.pc ∧ (curStrand t).stage = 1 ∧ (curStrand t).request = s.nextId ∧
            noPosts t = noPosts s ∧ t.btes = s.btes ∧ (∀ j, j ≠ s.nextId → tget t.posts j = tget s.posts j) ∧
            ∃ p, tget t.posts s.nextId = some p ∧ p.phase = .waiting ∧ p.status = none ∧ p.staged = false ∧
              p.cluster = g.core / 14 ∧ p.core = g.core ∧ p.team = k ∧ p.launch = x.launch ∧ p.gid = s.cur.gid ∧
              p.num = x.num ∧ p.ctx = (launchOf s g).queue ∧ p.tidx = i ∧ p.bits = m.bits ∧ p.arg = w.toNat % 2 ^ 52 ∧
              p.first = f ∧ p.count = c ∧ p.sent = 0 ∧ p.delivered = 0 ∧
              ∀ j q, tget s.outs j = some q → q.gid = s.cur.gid → j ∈ p.awaits)) ∧
      (hmode g = false → e.stage = 1 →
        ((∃ p, tget s.posts e.request = some p ∧ p.phase = .waiting) → Waits (.xpost o) s) ∧
        ((∀ p, tget s.posts e.request = some p → p.phase ≠ .waiting) →
          ∃ t, exec (.xpost o) s = .next t ∧ OnlyMoves s t ∧ GoesOn s t ∧ Elsewhere s t)))

/-- BTE_POST_ACCEPT (R127, R277, R315, R317): once the accesses of its group that a post awaits are performed, its
core is asked to write back every narrow-dirty sector, which the post then awaits; once those have come, a post of a
copying or remote kind joins the end of its virtual queue and its entry's PEND counts it; one of no rows, and one
whose device lies outside the shape or whose atomic is misaligned, is to finish at once, with status 0 and 3.

BTE_CART_SEND and POST_FINISH (R92, R128, R275, R277, R278, R289, R315, R316). A BTE about to visit queue 0, whose
head is a copy from global memory to global memory with a cart ready: the cart's bytes, as the engine sees them, are
copied, the post's counts and the queue's deficit move on, and a post that has delivered all is to finish with status
0; other queues keep theirs. A post to finish leaves, its entry counts it and shows its status, its tile is ready or,
with status 3, empty, whatever a handler has written, and a fill barrier as its delivered target receives its bytes
but for status 3. -/
def Obligations.PostsRun : Prop :=
  (
    ∀ (s : State) (id : Nat) (p : Post) (x : Team) (m : Template), let k := tKind p.bits
      let refused := 3 ≤ k ∧ (inShape s (tDev p.bits) = false ∨
        k = 5 ∧ (tDst p.bits + p.arg) % (fmtBits (tFmt p.bits) / 8) ≠ 0)
      tget s.posts id = some p → tget s.teams p.team = some x → tget x.templates p.tidx = some m → k < 6 →
      p.phase = .waiting → p.status = none → postAwaits s p → (queueOf s p.cluster (tPrio p.bits)).length < 64 →
      (x.phase = .resident ∨ x.phase = .stopping) → x.mate = none → x.snap = none →
      (tgetD s.launches p.launch {}).aborted = false → (k = 5 → tgtV (tTsr p.bits) = false) →
      (p.staged = false → ∃ t, exec (.btePostAccept id) s = .next t ∧ t.groups = s.groups ∧ t.teams = s.teams ∧
        { noTrains t with cores := [], writeBacks := [], posts := [], nextId := 0, progress := 0 } =
          { noTrains s with cores := [], writeBacks := [], posts := [], nextId := 0, progress := 0 } ∧
        (∀ j, j ≠ id → tget t.posts j = tget s.posts j) ∧
        (∀ c, { coreAt t c with lines := [], dirty := [], sending := none } =
          { coreAt s c with lines := [], dirty := [], sending := none }) ∧
        ∃ q, tget t.posts id = some q ∧ { q with awaits := [] } = { p with staged := true, awaits := [] } ∧
          (∀ d ∈ (coreAt s p.core).dirty, d.id ∈ q.awaits) ∧ ∀ w ∈ s.writeBacks, w.2.core = p.core → w.1 ∈ q.awaits) ∧
      (p.staged = true → ∃ t, exec (.btePostAccept id) s = .next t ∧ t.groups = s.groups ∧
        (∀ j, j ≠ p.team → tget t.teams j = tget s.teams j) ∧
        (∃ y, tget t.teams p.team = some y ∧ { y with templates := [] } = { x with templates := [] } ∧
          y.templates = tset x.templates p.tidx { m with pend := m.pend + 1 }) ∧
        (¬refused → p.count ≠ 0 → noPosts t = noPosts s ∧ (∀ j, j ≠ id → tget t.posts j = tget s.posts j) ∧
          tget t.posts id = some { p with
            phase := .queued, seq := s.nextId, since := s.notes.length, srcRead := p.srcRead || decide (k = 5) } ∧
          queueOf t p.cluster (tPrio p.bits) = queueOf s p.cluster (tPrio p.bits) ++ [id]) ∧
        ((refused ∨ p.count = 0) → (tget t.posts id).map (fun q => (q.phase, q.status)) =
          some (.finished, some (if refused then 3 else 0))))) ∧
  (
    (∀ (s : State) (g id : Nat) (p : Post) (ps ds : List (Nat × Nat)),
      let n := cartLen s p
      let cost := (n + 63) / 64 * 64
      let b := tgetD s.btes g {}
      let d := min (tgetD b.deficits 0 0 + 16384) 32768
      let seen (unseen : Nat → Bool) : List (Byte × Bool) := ps.flatMap fun y => engineBytes s none p.since unseen y.1 y.2
      tget s.posts id = some p → p.cluster = g → (∀ q ∈ s.posts, (tgetD s.launches q.2.launch {}).aborted = false) →
      (∀ q ∈ s.posts, q.2.far = false ∧ q.2.slots = []) → b.turn % 8 = 0 → (queueOf s g 0).head? = some id →
      tPrio p.bits = 0 → tKind p.bits = 0 → tDsp p.bits = 0 → tSsp p.bits = false → cartReady s g id p = true → 0 < n →
      n ≤ postBytes p - p.sent → tgtV (tTsr p.bits) = false →
      (∃ x, tget s.teams p.team = some x ∧ (x.phase = .resident ∨ x.phase = .stopping)) →
      transPieces s (.hub g) p.ctx 0 (srcPieces p p.sent n) = .ok ps →
      transPieces s (.hub g) p.ctx 1 (dstPieces p p.sent n) = .ok ds → (∀ u, ∀ y ∈ seen u, y.2 = false) →
      ∃ t unseen, exec (.bteCartSend g) s = .next t ∧ n ≤ 2048 ∧
        t.mem = ruleSegs ds ((seen unseen).map (·.1)) s.mem ∧
        (s.notes.length ≤ p.since → (seen unseen).map (·.1) = ps.flatMap fun y => mread s.mem y.1 y.2) ∧
        t.groups = s.groups ∧ t.teams = s.teams ∧
        { noPosts t with mem := [], poison := [], tlb2 := [], freeNo := 0 } =
          { noPosts s with mem := [], poison := [], tlb2 := [], freeNo := 0 } ∧
        (∀ j, j ≠ id → tget t.posts j = tget s.posts j) ∧
        (∃ q, tget t.posts id = some q ∧ q.sent = p.sent + n ∧ q.delivered = p.delivered + n ∧
          (p.delivered + n = postBytes p → q.status = some 0 ∧ q.phase = .finished ∧ id ∉ queueOf t g 0) ∧
          (p.delivered + n ≠ postBytes p → q.status = none ∧ q.phase = .queued ∧ queueOf t g 0 = queueOf s g 0)) ∧
        tgetD (tgetD t.btes g {}).deficits 0 0 = d - cost) ∧
    ∀ (s : State) (id st : Nat) (p : Post) (x : Team) (m : Template),
      let off := 8 * ((tTdl p.bits).extractLsb' 0 15).toNat
      let f := fillBarrier (mword x.share off)
      tget s.posts id = some p → p.status = some st → tget s.teams p.team = some x → tget x.templates p.tidx = some m →
      (x.phase = .resident ∨ x.phase = .stopping) → x.mate = none → x.snap = none → tgtV (tTsr p.bits) = false →
      p.ended = false → p.slots = [] → (s.fabric.agreement.mine = true → s.fabric.agreement.owesAccept = false) →
      (tgtV (tTdl p.bits) = true → tgtQ (tTdl p.bits) = false) →
      ∃ t, exec (.postFinish id) s = .next t ∧ (∀ j, j ≠ p.team → tget t.teams j = tget s.teams j) ∧
        (tDsp p.bits ≠ 2 → t.groups = s.groups) ∧ (tDsp p.bits = 2 → ForgetsTile s t p.team (tDst p.bits % 64)) ∧
        t.posts.map (·.1) = (terase s.posts id).map (·.1) ∧ (∀ j, j ≠ id → tget t.posts j = tget s.posts j) ∧
        { noNetwork t with posts := [], launches := [], fabric := {} } =
          { noNetwork s with posts := [], launches := [], fabric := {} } ∧
        ∃ y, tget t.teams p.team = some y ∧
          tget y.templates p.tidx = some { m with done := m.done + 1, lstat := st, pend := m.pend - 1 } ∧
          (tDsp p.bits = 2 → tget y.tiles (tDst p.bits % 64) =
            some (ruleState (tgetD x.tiles (tDst p.bits % 64) 0#128) (if st = 3 then 0#2 else 2#2))) ∧
          (tgtV (tTdl p.bits) = true → st ≠ 3 →
            fillBarrier (mword y.share off) = ruleJudge f.1 (min (f.2.1 + p.delivered) (2 ^ 31 - 1)) f.2.2 ∧
            ∀ a, (a < off ∨ off + 8 ≤ a) → mget y.share a = mget x.share a) ∧
          (tgtV (tTdl p.bits) = false ∨ st = 3 → y.share = x.share))

/-- The answers to remote requests and the requests of other devices (R312, R313, R317, R319, R424 to R426), which
come in through a port in RUN, while no posting team is saved. An acknowledgement counts its packet's bytes as
delivered and frees its tag; a read's reply is written to the pieces its request translated; a request unanswered for
2²⁶ cycles advances its tag's generation, ends its post with status 3 and tells the management core; an answer of
another generation is only counted; a discarded packet is sent again. A write packet is performed and acknowledged, a
read request answered with the bytes, an atomic performed on its element and answered with the old value; one whose
pages fail, or whose bytes are poisoned, goes back refused.

Choices of the model in it: log 40. -/
def Obligations.RemoteRequests : Prop :=
  (∀ (s : State) (g tag : Nat) (r : Request) (p : Post), let b := tgetD s.btes g {}
    tget b.requests tag = some r → r.live = true → tget s.posts r.post = some p → p.status = none → p.phase = .queued →
    Linked s → PostsSeated s →
    (r.kind = 0 → ∃ t, exec (.remoteWriteAck g tag r.gen) s = .next t ∧ noPosts t = noPosts s ∧ t.groups = s.groups ∧
      t.teams = s.teams ∧ tget (tgetD t.btes g {}).requests tag = some { r with live := false } ∧
      (∃ q, tget t.posts r.post = some q ∧ q.delivered = p.delivered + r.len ∧
        (q.delivered = postBytes p → q.status = some 0) ∧ (q.delivered ≠ postBytes p → q.status = none))) ∧
    (r.kind = 1 → tDsp p.bits = 0 → tgtV (tTsr p.bits) = false → ∀ data : List Byte, data.length = r.len →
      ∃ t, exec (.remoteReadReply g tag r.gen data) s = .next t ∧ t.mem = ruleSegs r.segs data s.mem ∧
        { noPosts t with mem := [], poison := [] } = { noPosts s with mem := [], poison := [] } ∧ t.groups = s.groups ∧
        t.teams = s.teams ∧ tget (tgetD t.btes g {}).requests tag = some { r with live := false } ∧
        ∃ q, tget t.posts r.post = some q ∧ q.delivered = p.delivered + r.len) ∧
    (r.kind < 3 → r.sentAt + 2 ^ 26 ≤ tgetD s.clocks (Config.clockBte g) 0 →
      ∃ t, exec (.requestTimeout g tag) s = .next t ∧ t.mem = s.mem ∧ t.groups = s.groups ∧ t.teams = s.teams ∧
        (tget (tgetD t.btes g {}).requests tag).map (fun x => (x.live, x.gen)) = some (false, (r.gen + 1) % 64) ∧
        (tget t.posts r.post).map (·.status) = some (some 3) ∧
        (∃ n, t.mgmt = s.mgmt ++ [{ kind := 6, nums := [r.dev, p.tidx, n] }])) ∧
    (∀ gen, gen ≠ r.gen → ∃ t, exec (.lateAnswer g tag gen) s = .next t ∧
      { t with mgmt := [], progress := 0 } = { s with mgmt := [], progress := 0 } ∧
      t.mgmt = s.mgmt ++ [{ kind := 7, nums := [g, tag, gen] }]) ∧
    (∃ t, exec (.discardNotice g tag) s = .next t ∧ t.groups = s.groups ∧ t.teams = s.teams ∧
      { noNetwork t with btes := [] } = { noNetwork s with btes := [] } ∧
      t.outbox = s.outbox ++
        [{ kind := requestPacket r.kind, dev := r.dev, nums := [g, tag, r.gen] ++ r.nums, bytes := r.bytes }] ∧
      (tget (tgetD t.btes g {}).requests tag).map (fun x => (x.live, x.gen, x.sentAt)) =
        some (true, r.gen, tgetD s.clocks (Config.clockBte g) 0))) ∧
  ∀ (s : State) (dev tag ctx : Nat), Linked s →
    let answers (i : Instr) (p : Packet) (m : Memory) : Prop :=
      ∃ t, exec i s = .next t ∧ t.groups = s.groups ∧ t.teams = s.teams ∧ t.outbox = s.outbox ++ [p] ∧ t.mem = m ∧
        { noNetwork t with mem := [], poison := [] } = { noNetwork s with mem := [], poison := [] }
    (∀ (runs : List (Word × Nat)) (data : List Byte) (rel : Bool) (ps : List (Nat × Nat)),
      let l := runs.map fun y => (y.1.toNat, y.2)
      (transPieces s .bare ctx 1 l = .ok ps → answers (.remoteWritePacket dev tag ctx runs data rel)
        { kind := .writeAck, dev := dev, nums := [tag] } (ruleSegs ps data s.mem)) ∧
      (∀ va c, transPieces s .bare ctx 1 l = .error (va, c) → answers (.remoteWritePacket dev tag ctx runs data rel)
        { kind := .refused, dev := dev, nums := [tag, va, c] } s.mem) ∧
      (transPieces s .bare ctx 0 l = .ok ps → (∃ y ∈ sideBytes s 0 false ps, y.2 = true) →
        ∃ va, answers (.remoteReadRequest dev tag ctx runs) { kind := .refused, dev := dev, nums := [tag, va, 0x18] } s.mem) ∧
      (transPieces s .bare ctx 0 l = .ok ps → (∀ y ∈ sideBytes s 0 false ps, y.2 = false) →
        answers (.remoteReadRequest dev tag ctx runs)
          { kind := .readReply, dev := dev, nums := [tag], bytes := ps.flatMap fun y => mread s.mem y.1 y.2 } s.mem) ∧
      (∀ va c, transPieces s .bare ctx 0 l = .error (va, c) → answers (.remoteReadRequest dev tag ctx runs)
        { kind := .refused, dev := dev, nums := [tag, va, c] } s.mem)) ∧
    ∀ (va opr swap : Word) (op fmt pa mt : Nat), let n := fmtBits fmt / 8
      let old := leNat (mread s.mem pa n)
      (n = 4 ∨ n = 8) → op < 16 → (13 ≤ op → n = 4) → va.toNat % n = 0 → translateNow s .bare ctx va 1 = .ok (pa, mt) →
      answers (.remoteAtomic dev tag ctx va op fmt opr swap)
        { kind := .readReply, dev := dev, nums := [tag], bytes := mread s.mem pa n }
        (mwrite s.mem pa (leBytes (ruleAtomic (0x70 + op) (8 * n) (BitVec.ofNat (8 * n) old) (opr.setWidth (8 * n))
          (swap.setWidth (8 * n))).toNat n))

/-! ### Conversations -/

/-- CPROTO and COPEN (R279 to R281): CPROTO loads a well-formed image into a free entry of the directory and writes
its number, or 2⁶³ + 2 for a malformed image and 2⁶³ + 1 for a full directory; COPEN opens a free object of the first
home that has one, in the protocol's initial state, and writes its handle, or 2⁶³ + 1 where no home has room and 2⁶³ +
3 for a protocol that is not loaded. A misaligned image address traps; so do both in handler mode.

CBIND, CSEND, CRECV, CDELEG and CCLOSE (R282 to R285, R326): an instruction whose handle names a home slice of this
device sends its request and waits; once the home has answered, it goes on with the values the answer gives its
destinations (CRECV: the message word, then the payload), or takes the trap the answer names. One whose home is a
port, be it of another device, sends it through a free request of its cluster's BTE, and remembers what it binds
there. A handle that can name no object gives CBIND code 3 and the others the conversation-closed trap. CSEND waits
for its earlier accesses, and CRECV for its earlier acquires.

CONV_MESSAGE_AT_HOME (R282 to R285, R326 to R328): the home judges a request of a party of this device whose group
runs by R282 to R285 and answers it, or lets it wait; it judges the request of another device at a port home and
answers with a packet, or keeps it among the object's waiters, until that device withdraws it (R294). What a home does
with a request does not depend on its group, and a packet comes in through a port in RUN (R312).

Choices of the model in it: log 43. -/
def Obligations.Conversations : Prop :=
  (
    ∀ (s : State) (sd sa : BitVec 7), let g := curGroup s
      let a := getS g sa.toNat
      Alone s → ScalarsReady s [sa.toNat] [sd.toNat] → CleanScalars s [sa.toNat] →
      (∀ (o : SdSaOp) (c : CopenOp), o.sa = sa → o.sd = sd → c.sa = sa → c.sd = sd →
        (hmode g = true → (curStrand s).stage = 0 → Traps (.cproto o) s 0x01#8 ∧ Traps (.copen c) s 0x01#8) ∧
        (hmode g = false → a.toNat % 64 ≠ 0 → Traps (.cproto o) s 0x12#8) ∧
        (hmode g = false → a.toNat % 64 = 0 → ∀ image u, readImage s a 1088 = .ok (image, u) →
          (∀ y ∈ image, y.2 = false) →
          let l := image.map (·.1)
          let full := ∀ k, k < 256 → protoLive s k = true
          OnlyTlbs s u ∧ ∃ t, exec (.cproto o) s = .next t ∧ OnlyScalars s t [sd.toNat] ∧ GoesOn s t ∧ t.teams = s.teams ∧
            (∀ j, j ≠ s.cur.gid → tget t.groups j = tget s.groups j) ∧
            { aside t with protocols := [], freeNo := 0 } = { aside u with protocols := [], freeNo := 0 } ∧
            (¬ImageSound l → getS (curGroup t) sd.toNat = 0x8000000000000002#64 ∧ t.protocols = s.protocols) ∧
            (ImageSound l → full → getS (curGroup t) sd.toNat = 0x8000000000000001#64 ∧ t.protocols = s.protocols) ∧
            (ImageSound l → ¬full → ∃ k, k < 256 ∧ protoLive s k = false ∧
              getS (curGroup t) sd.toNat = BitVec.ofNat 64 k ∧ t.protocols = tset s.protocols k
                { launch := launchKey s g, init := leNat (l.take 8) % 32, nrole := leNat (l.take 8) / 256 % 8 + 1
                  entries := imageEntries l })) ∧
        (hmode g = false → let homes := homesOf g.core (c.span == 1#1)
          ∃ t, exec (.copen c) s = .next t ∧ OnlyScalars s t [sd.toNat] ∧ GoesOn s t ∧ t.teams = s.teams ∧
            (∀ j, j ≠ s.cur.gid → tget t.groups j = tget s.groups j) ∧
            { aside t with convs := [], freeNo := 0 } = { aside s with convs := [], freeNo := 0 } ∧
            (protoLive s a.toNat = false → getS (curGroup t) sd.toNat = 0x8000000000000003#64 ∧ t.convs = s.convs) ∧
            (protoLive s a.toNat = true → (∀ h ∈ homes, freeObjects s h = []) →
              getS (curGroup t) sd.toNat = 0x8000000000000001#64 ∧ t.convs = s.convs) ∧
            ∀ h, protoLive s a.toNat = true → homes.find? (fun h => !(freeObjects s h).isEmpty) = some h →
              ∃ obj, obj ∈ freeObjects s h ∧
                let old := tgetD s.convs (256 * h + obj) {}
                t.convs = tset s.convs (256 * h + obj)
                  { proto := a.toNat, live := true, state := (tgetD s.protocols a.toNat {}).init, gen := old.gen } ∧
                ∀ w, getS (curGroup t) sd.toNat = w → w.extractLsb' 56 8 = BitVec.ofNat 8 (devNo s) ∧
                  w.extractLsb' 48 8 = BitVec.ofNat 8 h ∧ w.extractLsb' 32 16 = BitVec.ofNat 16 old.gen ∧
                  w.extractLsb' 8 24 = 0#24 ∧ w.extractLsb' 0 8 = BitVec.ofNat 8 obj))) ∧
  (
    ∀ (i : Instr) (s : State) (r : ConvRule), let g := curGroup s
      let e := curStrand s
      let home := (r.handle.extractLsb' 48 8).toNat
      let dev := (r.handle.extractLsb' 56 8).toNat
      let nowhere := r.handle.extractLsb' 8 24 ≠ 0#24 ∨ (98 ≤ home ∧ (home < 128 ∨ 160 ≤ home)) ∨ dev ≠ devNo s ∧ home < 98
      convRule i g = some r → Alone s → Standing s → ScalarsReady s r.sources r.dests → CleanScalars s r.sources →
      r.dests.Nodup → (∀ x ∈ r.dests, x < 128) →
      (r.op = 0 → earlierAccesses s = [] ∧ pendingWb s g.core (fun _ => true) = []) → (r.op = 1 → acqPending s = false) →
      (hmode g = true → e.stage = 0 → Traps i s 0x01#8) ∧
      (hmode g = false → e.stage = 0 → nowhere → r.op ≠ 2 → Traps i s 0x22#8) ∧
      (hmode g = false → e.stage = 0 → nowhere → ∀ d, r.op = 2 → r.dests = [d] →
        ∃ t, exec i s = .next t ∧ getS (curGroup t) d = 3#64 ∧ OnlyScalars s t [d] ∧ GoesOn s t ∧ Elsewhere s t) ∧
      (hmode g = false → e.stage = 0 → r.handle.extractLsb' 8 24 = 0#24 → home < 98 → dev = devNo s →
        ∃ t, exec i s = .next t ∧ OnlyMoves s t ∧ t.teams = s.teams ∧
          (∀ j, j ≠ s.cur.gid → tget t.groups j = tget s.groups j) ∧ (curStrand t).pc = e.pc ∧ (curStrand t).stage = 1 ∧
          (curStrand t).request = s.nextId ∧ noConvs t = noConvs s ∧ t.convs = s.convs ∧ t.btes = s.btes ∧
          t.convRequests = tset s.convRequests s.nextId (ruleRequest s r)) ∧
      (hmode g = false → e.stage = 0 → r.handle.extractLsb' 8 24 = 0#24 → 128 ≤ home → home < 160 →
        (dev ≠ devNo s → dev ∉ s.fabric.agreement.lost) → ∀ tag, freeRequest s (g.core / 14) = some tag →
        convLive s (g.core / 14) < 16 →
        ∃ t q, exec i s = .next t ∧ OnlyMoves s t ∧ t.teams = s.teams ∧
          (∀ j, j ≠ s.cur.gid → tget t.groups j = tget s.groups j) ∧ (curStrand t).pc = e.pc ∧ (curStrand t).stage = 1 ∧
          (curStrand t).request = s.nextId ∧ noConvs t = noConvs s ∧ t.convs = s.convs ∧
          t.convRequests = tset s.convRequests s.nextId (ruleRequest s r) ∧
          tget (tgetD t.btes (g.core / 14) {}).requests tag = some q ∧ q.kind = 3 ∧ q.live = true ∧ q.dev = dev ∧
          q.conv = s.nextId ∧ q.sentAt = tgetD s.clocks (Config.clockBte (g.core / 14)) 0 ∧
          t.outbox = s.outbox ++ (if dev = devNo s then [] else
            [{ kind := .conversation, dev := dev
               nums := [g.core / 14, tag, q.gen, r.op, ruleParty s r, home, (r.handle.extractLsb' 0 8).toNat,
                 (r.handle.extractLsb' 32 16).toNat, r.role, r.kind]
               bytes := r.payload.flatMap fun w => leBytes w.toNat 8 }])) ∧
      (hmode g = false → e.stage = 1 → ∀ q, tget s.convRequests e.request = some q →
        (q.answered = false → Waits i s) ∧
        (q.answered = true → q.code ≠ 0 → q.code < 256 → Traps i s (BitVec.ofNat 8 q.code)) ∧
        (q.answered = true → q.code = 0 → q.vals.length ≤ 9 → ∃ t, exec i s = .next t ∧ GoesOn s t ∧ t.teams = s.teams ∧
          OnlyScalars { s with groups := tset s.groups s.cur.gid { g with farRoles := ruleRoles s r (q.vals.headD 0#64).toNat } }
            t r.dests ∧ (∀ j, j ≠ s.cur.gid → tget t.groups j = tget s.groups j) ∧
          t.convRequests = terase s.convRequests e.request ∧ KeepsCores s t ∧
          { noCores t with convRequests := [] } = { noCores s with convRequests := [] } ∧
          ∀ k d, r.dests[k]? = some d → getS (curGroup t) d =
            (if r.op = 2 ∨ k = 0 then q.vals.headD 0#64 else (q.vals[k]?).getD (getS g d))))) ∧
  (
    ∀ (s : State) (id : Nat) (m : ConvMsg),
      (∀ q c, m.op = 5 → tget s.convRequests id = some q → (tget s.groups q.gid).isSome = true → q.answered = false →
        (q.handle.extractLsb' 56 8).toNat = devNo s → partyRuns s q.gid = true → earlierSend s id q = false → q.op < 5 →
        let key := 256 * (q.handle.extractLsb' 48 8).toNat + (q.handle.extractLsb' 0 8).toNat
        tgetD s.convs key {} = c → c.waiters = [] →
        let v := ruleVerdict (tgetD s.protocols c.proto {}) c { dev := devNo s, gid := q.gid }
          (q.handle.extractLsb' 32 16).toNat q.op q.role q.kind q.payload
        (v = none → exec (.convMessageAtHome id m) s = .next s) ∧
        ∀ code vals c', v = some (code, vals, c') →
          ∃ t, exec (.convMessageAtHome id m) s = .next t ∧ t.groups = s.groups ∧ t.teams = s.teams ∧
            noConvs t = noConvs s ∧ t.outbox = s.outbox ∧ t.convs = tset s.convs key c' ∧
            t.convRequests = tset s.convRequests id { q with answered := true, code := code, vals := vals, ended := false }) ∧
      (∀ c, m.op = 6 → 128 ≤ m.home → m.home < 160 → Linked s → tgetD s.convs (256 * m.home + m.obj) {} = c →
        (∃ q ∈ c.waiters, q.dev = m.dev ∧ q.tag = m.tag) →
        ∃ t, exec (.convMessageAtHome id m) s = .next t ∧ t.groups = s.groups ∧ t.teams = s.teams ∧ noConvs t = noConvs s ∧
          t.convRequests = s.convRequests ∧
          t.convs = tset s.convs (256 * m.home + m.obj)
            { c with waiters := c.waiters.filter fun q => decide (q.dev ≠ m.dev ∨ q.tag ≠ m.tag) } ∧
          t.outbox = s.outbox ++ [{ kind := .convAnswer, dev := m.dev, nums := [m.tag, 0xFF], bytes := [] }]) ∧
      ∀ c, m.op < 5 → 128 ≤ m.home → m.home < 160 → Linked s →
        let key := 256 * m.home + m.obj
        tgetD s.convs key {} = c → c.waiters = [] →
        let v := ruleVerdict (tgetD s.protocols c.proto {}) c { dev := m.dev, gid := m.party } m.gen m.op m.role m.kind m.payload
        (v = none → ∃ t, exec (.convMessageAtHome id m) s = .next t ∧ { t with convs := [], progress := 0 } =
          { s with convs := [], progress := 0 } ∧ t.convs = tset s.convs key { c with waiters := [m] }) ∧
        ∀ code vals c', v = some (code, vals, c') →
          ∃ t, exec (.convMessageAtHome id m) s = .next t ∧ t.groups = s.groups ∧ t.teams = s.teams ∧
            noConvs t = noConvs s ∧ t.convs = tset s.convs key c' ∧ t.convRequests = s.convRequests ∧
            t.outbox = s.outbox ++ [{ kind := .convAnswer, dev := m.dev, nums := [m.tag, code]
                                      bytes := vals.flatMap fun w => leBytes w.toNat 8 }])

/-! ### Links and spawned groups -/

/-- NPUSH and NPOP (R5, R166, R230, R231): NPUSH appends its words to the neighbour's receive queue, NPOP takes its
words from its own core's and writes them, poison included, to its active lanes; each waits for room or for words.
Over an absent link NPUSH has no effect and NPOP writes 0. -/
def Obligations.NeighbourLinks : Prop :=
  ∀ (s : State), let g := curGroup s
    let n := max 1 (g.width / 16)
    Alone s →
    (∀ o : NPushOp, let lanes := guardedLanes g (curStrand s) o.gn o.gp
      let dir := (o.d.toNat + 2) % 4
      VectorsReady s [o.va.toNat] [] → NoneDue s [o.va.toNat] → lanes ≠ [] →
      (neighbour g.core o.d.toNat = none → ∃ t, exec (.npush o) s = .next t ∧ OnlyMoves s t ∧ GoesOn s t ∧ Elsewhere s t) ∧
      ∀ c, neighbour g.core o.d.toNat = some c → let q := tgetD (coreAt s c).links dir []
        (32 < q.length + n → Waits (.npush o) s) ∧
        (q.length + n ≤ 32 → ∃ t ws, exec (.npush o) s = .next t ∧ OnlyMoves s t ∧ GoesOn s t ∧
          (let s' := if lanes.any (poisonedV g o.va.toNat) then consumed s g else s
           OnlyLink s' t c dir (q ++ ws) ∧ t.teams = s'.teams) ∧
          ws.length = n ∧ ∀ k x, ws[k]? = some x → PushedWord g o.va.toNat lanes k x)) ∧
    ∀ o : NPopOp, let lanes := guardedLanes g (curStrand s) o.gn o.gp
      let vd := o.vd.toNat
      VectorsReady s [] [vd] → NoneDue s [vd] → lanes ≠ [] →
      (neighbour g.core o.d.toNat = none → ∃ t, exec (.npop o) s = .next t ∧ OnlyVectors s t [vd] lanes ∧ GoesOn s t ∧
        Elsewhere s t ∧ ∀ l ∈ lanes, l < 64 → getV (curGroup t) vd l = 0#32 ∧ poisonedV (curGroup t) vd l = false) ∧
      ((neighbour g.core o.d.toNat).isSome = true → let q := tgetD (coreAt s g.core).links o.d.toNat []
        (q.length < n → Waits (.npop o) s) ∧
        (n ≤ q.length → ∃ t, exec (.npop o) s = .next t ∧ OnlyVectors s t [vd] lanes ∧ GoesOn s t ∧
          (∃ s', (s' = s ∨ s' = consumed s g) ∧ OnlyLink s' t g.core o.d.toNat (q.drop n) ∧ t.teams = s'.teams) ∧
          ∀ l ∈ lanes, l < 64 → let x := q.getD (l / 16) {}
            getV (curGroup t) vd l = x.bytes.extractLsb' (32 * (l % 16)) 32 ∧
            poisonedV (curGroup t) vd l = x.poison.getLsbD (l % 16)))

/-- SPAWN (R67, R69, R259): with entry and counter aligned and the counter in a writable page, its active lanes'
records join the bin of its key, or an empty bin, in lane order, as long as they do not fill it; one that fills its
bin while the core can take the group launches it. A misaligned entry or counter traps, as it does in handler mode.

SPAWN_BIN_TIMER_EXPIRY, SPAWN_BIN_LAUNCH and SPAWNED_GROUP_END (R67, R68, R260, R410): an expired bin launches its
group, or must launch where the core has no room; a bin that must launch does so once there is room; a spawned group
that has ended with its accesses done and written back lowers its counter by its number of records, or raises it by
2⁶² less them when a check bit of sr.chk is set, and is gone. -/
def Obligations.Spawning : Prop :=
  (
    ∀ (s : State) (o : SpawnOp), let g := curGroup s
      let e := o.vb.toNat
      let entry := getS g e
      let counter := getS g (e + 1)
      let lanes := guardedLanes g (curStrand s) o.gn o.gp
      let args := (List.range 4).map (o.va.toNat + ·)
      let key := (launchKey s g, entry, counter)
      let bins := (coreAt s g.core).bins
      Alone s → ScalarsReady s [e, e + 1] [] → CleanScalars s [e, e + 1] → VectorsReady s args [] → NoneDue s args →
      lanes ≠ [] →
      (hmode g = true → (curStrand s).stage = 0 → Traps (.spawn o) s 0x01#8) ∧
      (hmode g = false → (curStrand s).stage = 0 → (entry.toNat % 8 ≠ 0 ∨ counter.toNat % 8 ≠ 0) → Traps (.spawn o) s 0x12#8) ∧
      (hmode g = false → (curStrand s).stage = 0 → entry.toNat % 8 = 0 → (located s 0 1 8 counter).isSome = true →
        ∀ i b, ((bins.find? fun x => (x.2.launch, x.2.entry, x.2.counter) == key) = some (i, b) ∧ tget bins i = some b ∨
            (∀ x ∈ bins, (x.2.launch, x.2.entry, x.2.counter) ≠ key) ∧ i < 16 ∧ tget bins i = none ∧
              (∀ j, j < i → (tget bins j).isSome = true) ∧
              b = { launch := launchKey s g, entry := entry, counter := counter, recs := [], since := (coreAt s g.core).cycle }) →
          (b.recs.length + lanes.length < 16 → ∃ t, exec (.spawn o) s = .next t ∧ OnlyMoves s t ∧ GoesOn s t ∧
            t.teams = s.teams ∧ (∀ j, j ≠ s.cur.gid → tget t.groups j = tget s.groups j) ∧
            { noCores t with nextId := 0 } = { noCores s with nextId := 0 } ∧ (∀ c, c ≠ g.core → coreAt t c = coreAt s c) ∧
            { coreAt t g.core with bins := [] } = { coreAt s g.core with bins := [] } ∧
            (∀ j, j ≠ i → tget (coreAt t g.core).bins j = tget bins j) ∧
            ∃ c, tget (coreAt t g.core).bins i = some c ∧ { c with recs := [] } = { b with recs := [] } ∧
              c.recs.take b.recs.length = b.recs ∧
              (c.recs.drop b.recs.length).map (fun r => (r.args, r.bad)) = lanes.map (spawnArgs g o.va.toNat)) ∧
          (b.recs.length + lanes.length = 16 → spawnFits s g.core (tgetD s.launches (launchKey s g) {}) = true →
            s.cur.gid < s.nextId →
            ∃ t u c, exec (.spawn o) s = .next t ∧ GoesOn s t ∧ bareGroup (curGroup t) = bareGroup g ∧
              { c with recs := [] } = { b with recs := [] } ∧ c.recs.take b.recs.length = b.recs ∧
              (c.recs.drop b.recs.length).map (fun r => (r.args, r.bad)) = lanes.map (spawnArgs g o.va.toNat) ∧
              (∀ j, j ≠ s.cur.gid → tget u.groups j = tget t.groups j) ∧ aside u = aside t ∧ u.teams = t.teams ∧
              tget u.groups s.cur.gid = tget s.groups s.cur.gid ∧
              ∃ v, BinLaunched v u g.core i c ∧ v.groups = s.groups ∧ v.teams = s.teams ∧ s.nextId ≤ v.nextId ∧
                { noCores v with nextId := 0 } = { noCores s with nextId := 0 }))) ∧
  (
    (∀ (s : State) (core bin : Nat) (b : Bin), let l := tgetD s.launches b.launch {}
      tget (coreAt s core).bins bin = some b → b.recs.length ≤ 16 →
      (b.must = false → b.since + recField l.record 240 16 + 1 ≤ (coreAt s core).cycle →
        (spawnFits s core l = true → ∃ t, exec (.spawnBinTimerExpiry core bin) s = .next t ∧ BinLaunched s t core bin b) ∧
        (spawnFits s core l = false → ∃ t, exec (.spawnBinTimerExpiry core bin) s = .next t ∧ t.groups = s.groups ∧
          t.teams = s.teams ∧ noCores t = noCores s ∧ (∀ c, c ≠ core → coreAt t c = coreAt s c) ∧
          coreAt t core = { coreAt s core with bins := tset (coreAt s core).bins bin { b with must := true } })) ∧
      (b.must = true → spawnFits s core l = true →
        ∃ t, exec (.spawnBinLaunch core bin) s = .next t ∧ BinLaunched s t core bin b)) ∧
    ∀ (s : State) (id pa mt : Nat) (k : Spawned), let own := Owner.spawned id
      let old := mword s.mem pa
      tget s.spawned id = some k → (∀ g ∈ s.groups, g.2.owner = own → g.2.ended = true) →
      (∀ o ∈ s.outs, o.2.owner ≠ own) → ownerDirty s own = false →
      translateNow s .bare (tgetD s.launches k.launch {}).queue k.counter 1 = .ok (pa, mt) →
      ∃ t, exec (.spawnedGroupEnd id) s = .next t ∧ t.teams = s.teams ∧
        t.groups = s.groups.filter (fun g => decide (g.2.owner ≠ own)) ∧ t.spawned = terase s.spawned id ∧
        t.mem = mwrite s.mem pa (leBytes (old - BitVec.ofNat 64 k.count +
          (if k.chk.pc || k.chk.pw || k.chk.pb then 0x4000000000000000#64 else 0#64)).toNat 8) ∧
        { aside t with mem := [], poison := [], spawned := [], launches := [], rowBlocks := [] } =
          { aside s with mem := [], poison := [], spawned := [], launches := [], rowBlocks := [] })

/-! ### Special registers, traps and the small system instructions -/

/-- SRD and CHKERR (R164, R286, R287, R288, R293): with its registers ready each writes the register or state it
names, poison included; an index that names a register past the declaration is a reserved-field trap (0x03) before all
else; a read that is a handler's alone is a protection fault (0x11) outside a handler, an index or s(sa) out of range
a reserved-field trap; CHKERR.clr clears PB, PW and PC in the same step.

Choices of the model in it: log 23. -/
def Obligations.SpecialReads : Prop :=
  ∀ (s : State),
    let g := curGroup s
    let e := curStrand s
    Alone s →
    (∀ o : SrdOp, (Instr.srd o).wf = true → o.v = 1#1 → (18 ≤ o.idx.toNat → hmode g = true) →
      VectorsReady s [] [o.sd.toNat] → NoneDue s [o.sd.toNat] →
      ∃ t, exec (.srd o) s = .next t ∧
        (∀ l ∈ activeLanes g e, getV (curGroup t) o.sd.toNat l = (ruleSpecial s o.idx.toNat l).setWidth 32 ∧
          poisonedV (curGroup t) o.sd.toNat l = false) ∧
        OnlyVectors s t [o.sd.toNat] (activeLanes g e) ∧ GoesOn s t ∧ Elsewhere s t) ∧
    (∀ o : SrdOp, (Instr.srd o).wf = true → o.v = 0#1 → o.cls = 0#5 → (18 ≤ o.idx.toNat → hmode g = true) →
      ScalarsReady s [] [o.sd.toNat] →
      ∃ t, exec (.srd o) s = .next t ∧ getS (curGroup t) o.sd.toNat = ruleSpecial s o.idx.toNat 0 ∧
        poisonedS (curGroup t) o.sd.toNat = false ∧ OnlyScalars s t [o.sd.toNat] ∧ GoesOn s t ∧ Elsewhere s t) ∧
    (∀ (o : SrdOp) (a : Nat) (srcs : List Nat), (Instr.srd o).wf = true → o.cls ≠ 0#5 →
      (usesLane o.cls ∧ srcs = [o.sa.toNat] ∧ a = (getS g o.sa.toNat).toNat ∨ ¬usesLane o.cls ∧ srcs = [] ∧ a = 0) →
      ScalarsReady s srcs [o.sd.toNat] → CleanScalars s srcs →
      (e.stage = 0 → ¬IndexDeclared s o.cls o.idx.toNat → Traps (.srd o) s 0x03#8) ∧
      (hmode g = false → IndexDeclared s o.cls o.idx.toNat → Traps (.srd o) s 0x11#8) ∧
      (hmode g = true → ruleMachine s o.cls.toNat o.idx.toNat a = none → Traps (.srd o) s 0x03#8) ∧
      ∀ x, hmode g = true → ruleMachine s o.cls.toNat o.idx.toNat a = some x →
        ∃ t, exec (.srd o) s = .next t ∧ getS (curGroup t) o.sd.toNat = x.1 ∧
          poisonedS (curGroup t) o.sd.toNat = x.2 ∧ OnlyScalars s t [o.sd.toNat] ∧ GoesOn s t ∧
          Elsewhere (if x.2 then consumed s g else s) t) ∧
    (∀ o : SrdOp, (Instr.srd o).wf = true → o.cls = 0#5 → 18 ≤ o.idx.toNat → hmode g = false →
      (if o.v = 1#1 then o.sd.toNat < declV s g ∧ fullV g o.sd.toNat = true ∧ NoneDue s [o.sd.toNat]
        else o.sd.toNat < declS s g) → Traps (.srd o) s 0x11#8) ∧
    (∀ o : ChkerrOp, ScalarsReady s [] [o.sd.toNat] →
      ∃ t, exec (.chkerr o) s = .next t ∧
        getS (curGroup t) o.sd.toNat = BitVec.ofNat 64 (ruleChk (chkRecord s g)) ∧
        poisonedS (curGroup t) o.sd.toNat = false ∧ OnlyScalars s t [o.sd.toNat] ∧ GoesOn s t ∧
        (o.clr = 0#1 → Elsewhere s t) ∧
        (o.clr = 1#1 → (∀ k, k ≠ s.cur.gid → tget t.groups k = tget s.groups k) ∧
          { aside t with spawned := [] } = { aside s with spawned := [] } ∧
          (∀ k, g.owner ≠ .spawned k → tget t.spawned k = tget s.spawned k) ∧
          (∀ k, g.owner ≠ .team k → tget t.teams k = tget s.teams k) ∧
          (∀ k x, g.owner = .spawned k → tget s.spawned k = some x →
            tget t.spawned k = some { x with chk := { x.chk with pc := false, pw := false, pb := false } }) ∧
          (∀ k x, g.owner = .team k → tget s.teams k = some x →
            tget t.teams k = some { x with chk := { x.chk with pc := false, pw := false, pb := false } })))

/-- SWR (R145, R288, R289): what a write of each class of machine state changes, and that nothing else changes, but
that a flip of a point's phase lets the strands go on that wait on it (R351); the classes other than 0 outside a
handler, and a range overstepped, trap as in SRD. A state of a tile that is the one it has is no change.

Choices of the model in it: log 20, 21. -/
def Obligations.StateWrites : Prop :=
  ∀ (o : SwrOp) (s : State) (a : Nat) (srcs : List Nat),
    let g := curGroup s
    let v := getS g o.sd.toNat
    let idx := o.idx.toNat
    (Instr.swr o).wf = true → Alone s →
    (usesLane o.cls ∧ srcs = [o.sa.toNat] ∧ a = (getS g o.sa.toNat).toNat ∨ ¬usesLane o.cls ∧ srcs = [] ∧ a = 0) →
    ScalarsReady s (o.sd.toNat :: srcs) [] → CleanScalars s srcs →
    ((curStrand s).stage = 0 → ¬IndexDeclared s o.cls idx → Traps (.swr o) s 0x03#8) ∧
    (o.cls ≠ 0#5 → hmode g = false → IndexDeclared s o.cls idx → Traps (.swr o) s 0x11#8) ∧
    (o.cls ≠ 0#5 → hmode g = true → ruleMachine s o.cls.toNat idx a = none → Traps (.swr o) s 0x03#8) ∧
    (o.cls = 0#5 → ∃ t, exec (.swr o) s = .next t ∧ GoesOn s t ∧ Elsewhere s t ∧
      bareGroup (curGroup t) =
        if idx = 17 then
          { bareGroup g with ref := g.ref && !v.getLsbD 0, mcmask := v.getLsbD 3
                             sstep := if hmode g then v.getLsbD 5 else g.sstep }
        else if idx = 18 then
          { bareGroup g with handler := (bareGroup g).handler.map fun h =>
              { h with tpc := BitVec.ofNat 64 (v.toNat / 8 * 8 % 2 ^ 57) } }
        else bareGroup g) ∧
    (hmode g = true → ruleMachine s o.cls.toNat idx a ≠ none →
      (o.cls = 1#5 → ∃ t, exec (.swr o) s = .next t ∧ GoesOn s t ∧ Elsewhere s t ∧ OnlyVectors s t [idx] [a] ∧
        getV (curGroup t) idx a = v.setWidth 32 ∧ poisonedV (curGroup t) idx a = false) ∧
      (o.cls = 2#5 → ∃ t, exec (.swr o) s = .next t ∧ GoesOn s t ∧ Elsewhere s t ∧
        { bareGroup (curGroup t) with sregs := [], spoison := [] } = { bareGroup g with sregs := [], spoison := [] } ∧
        tgetD (curGroup t).sregs idx 0#64 = v ∧ (curGroup t).spoison.contains idx = false ∧
        ∀ r, r ≠ idx → tgetD (curGroup t).sregs r 0#64 = tgetD g.sregs r 0#64 ∧
          (curGroup t).spoison.contains r = g.spoison.contains r) ∧
      (o.cls = 3#5 → ∃ t, exec (.swr o) s = .next t ∧ GoesOn s t ∧ Elsewhere s t ∧
        { bareGroup (curGroup t) with vfull := 0#256, sfull := 0#128 } = { bareGroup g with vfull := 0#256, sfull := 0#128 } ∧
        (∀ r, r < 256 →
          let kept := r / 64 ≠ idx ∨ declV s g ≤ r ∨ v.getLsbD (r % 64) = true ∧ AwaitsReply s r false
          (kept → (curGroup t).vfull.getLsbD r = g.vfull.getLsbD r) ∧
          (¬kept → (curGroup t).vfull.getLsbD r = v.getLsbD (r % 64))) ∧
        (∀ r, r < 128 →
          let kept := r / 64 + 4 ≠ idx ∨ declS s g ≤ r ∨ v.getLsbD (r % 64) = true ∧ AwaitsReply s r true
          (kept → (curGroup t).sfull.getLsbD r = g.sfull.getLsbD r) ∧
          (¬kept → (curGroup t).sfull.getLsbD r = v.getLsbD (r % 64)))) ∧
      (o.cls = 4#5 → ∃ t, exec (.swr o) s = .next t ∧ GoesOn s t ∧ Elsewhere s t ∧
        (idx < 8 → OnlyPredicates s t [idx] ∧ ∀ l, l < 64 → (getP (curGroup t) idx).getLsbD l =
          (decide (idx = 0) || v.getLsbD l && decide (l < g.width))) ∧
        (8 ≤ idx → OnlyUniform s t (idx - 8) ∧ getQ (curGroup t) (idx - 8) = (idx == 8 || v.getLsbD 0))) ∧
      (o.cls = 5#5 → ∃ t, exec (.swr o) s = .next t ∧ GoesOn s t ∧ Elsewhere s t ∧ OnlyMoves s t ∧
        (curGroup t).stack.length = g.stack.length ∧
        ∀ k e, g.stack[k]? = some e → ∃ f, (curGroup t).stack[k]? = some f ∧
          if k = a ∧ idx < 3 then EntryWritten idx v e f else f = e) ∧
      (o.cls = 6#5 → (tget s.launches (launchKey s g)).isSome = true → (∀ k, teamKey g = some k → (tget s.teams k).isSome = true) →
        (a = 1 → ∀ d p, pointOf s g idx = some (d, p) → (if d then 2 ^ 32 - 1 else 16384) < v.toNat →
          Traps (.swr o) s 0x03#8) ∧
        ((∀ d p, a = 1 → pointOf s g idx = some (d, p) → v.toNat ≤ if d then 2 ^ 32 - 1 else 16384) →
          ∃ t, exec (.swr o) s = .next t ∧ GoesOn s t ∧ OnlyMoves s t ∧
            pointOf t g idx = (if teamKey g = none ∧ pointOf s g idx = none then none
              else if a = 2 ∧ (tgetD (teamOf s g).points idx {}).init = true ∧ v.getLsbD 1 = false then
                (if (tgetD (launchOf s g).points idx {}).init = true then pointOf t g idx else none)
              else rulePointWrite (pointOf s g idx) a v) ∧
            (∀ c, c ≠ idx → pointOf t g c = pointOf s g c) ∧
            (∀ k, (tget t.teams k).map (fun x => { x with points := [], values := [] }) =
              (tget s.teams k).map fun x => { x with points := [], values := [] }) ∧
            (∀ k, (tget t.launches k).map (fun x => { x with points := [] }) =
              (tget s.launches k).map fun x => { x with points := [] }) ∧
            (NoneWaits s → (∀ k, k ≠ s.cur.gid → tget t.groups k = tget s.groups k) ∧
              { aside t with launches := [] } = { aside s with launches := [] }))) ∧
      (o.cls = 7#5 → ∀ k x, g.owner = .team k → tget s.teams k = some x →
        ∃ t, exec (.swr o) s = .next t ∧ GoesOn s t ∧
          OnlyTeam s t (OnlyTile idx (ruleTileWrite (tgetD x.tiles idx 0#128) a v)) ∧
          { bareGroup (curGroup t) with handler := none } = { bareGroup g with handler := none } ∧
          ∀ h, g.handler = some h → ∃ h', (curGroup t).handler = some h' ∧
            { h' with strand := {}, tileStates := [] } = { h with strand := {}, tileStates := [] } ∧
            tget h'.tileStates idx = (if a ≠ 0 then tget h.tileStates idx
              else if v.toNat % 4 = ((tgetD x.tiles idx 0#128).extractLsb' 0 2).toNat then none else some (v.toNat % 4)) ∧
            ∀ n, n ≠ idx → tget h'.tileStates n = tget h.tileStates n) ∧
      (o.cls = 8#5 → ∀ k x, g.owner = .team k → tget s.teams k = some x →
        ∃ t, exec (.swr o) s = .next t ∧ GoesOn s t ∧ OnlyMoves s t ∧ OnlyTeam s t fun x y =>
          tgetD (tgetD y.matrix.accs idx {}).vals a 0#64 =
            BitVec.ofNat 64 (v.toNat % 2 ^ (if (tgetD x.matrix.accs idx {}).int then 32 else 34)) ∧
          (∀ j, j ≠ idx → tgetD y.matrix.accs j {} = tgetD x.matrix.accs j {}) ∧
          (∀ j, j ≠ a → tgetD (tgetD y.matrix.accs idx {}).vals j 0#64 = tgetD (tgetD x.matrix.accs idx {}).vals j 0#64) ∧
          (tgetD y.matrix.accs idx {}).int = (tgetD x.matrix.accs idx {}).int ∧
          { y with matrix := { y.matrix with accs := [] } } = { x with matrix := { x.matrix with accs := [] } }) ∧
      (o.cls = 9#5 → ∃ t, exec (.swr o) s = .next t ∧ GoesOn s t ∧ OnlyMoves s t ∧ Elsewhere s t))

/-- TRAP, BRK and a word that holds no instruction (R169, R175, R176, R290, R358, R361): in a launch with a handler
and outside handler mode the handler is entered; TRAP's resume PC is next_pc and its block ends, BRK's and the
undefined word's is the instruction itself. Without a handler, or in handler mode, the launch is aborted.

RETT (R289, R290, R360, R371): outside a handler a protection fault (0x11); with a live or pending entry whose PC is
not a multiple of 8 or whose mask is empty or beyond the width an illegal-convergence trap (0x05); else handler mode
ends, the trapped strand stands at sr.tpc under its block, exempt for one instruction beside the strands that are so
already, and single-stepped where SSTEP is set; the group's own registers and stack are as the handler left them, and
the tile states it wrote take effect.

Choices of the model in it: log 18, 20, 75. -/
def Obligations.TrapEntryAndReturn : Prop :=
  (
    ∀ (i : Instr) (info : TrapInfo) (s : State),
      let g := curGroup s
      let e := curStrand s
      let pc := if info.code = 0x38#8 then nextPc e else e.pc
      ((∃ o : ImmOp, i = .trap o ∧ info = { code := 0x38#8, imm := o.imm.setWidth 16 }) ∨
       (∃ o : ImmOp, i = .brk o ∧ info = { code := 0x30#8, imm := o.imm.setWidth 16 }) ∨
       (∃ w, i = .undefinedInstruction w ∧ info = { code := 0x01#8 })) →
      Alone s → Standing s → e.stage = 0 →
      ∃ t, exec i s = .next t ∧ (∀ k, k ≠ s.cur.gid → tget t.groups k = tget s.groups k) ∧
        (hmode g = false → recField (launchOf s g).record 384 57 ≠ 0 →
          HandlerEntered s t g (curGroup t) e info pc ∧
          (curGroup t).stack = g.stack.map fun x =>
            if x.id = e.id then
              { (if info.code = 0x38#8 then { e with pc := pc, block := none } else e) with waitsOn := none, released := false }
            else x) ∧
        (hmode g = true ∨ recField (launchOf s g).record 384 57 = 0 →
          LaunchAborted s t g pc info.code ∧ OnlyMoves s t ∧ (curStrand t).pc = pc)) ∧
  (
    ∀ (s : State),
      let g := curGroup s
      let sound (e : Entry) : Prop :=
        e.pc.toNat % 8 = 0 ∧ e.mask ≠ 0#64 ∧ ∀ l, l < 64 → e.mask.getLsbD l = true → l < g.width
      Alone s →
      (hmode g = false → Traps .rett s 0x11#8) ∧
      (hmode g = true → (∃ e ∈ g.stack, (e.mode = .live ∨ e.mode = .pending) ∧ ¬sound e) → Traps .rett s 0x05#8) ∧
      ∀ h, g.handler = some h → (∀ e ∈ g.stack, e.mode = .live ∨ e.mode = .pending → sound e) →
        ∃ t, exec .rett s = .next t ∧ hmode (curGroup t) = false ∧
          (∀ k, k ∈ (curGroup t).exempt ↔ k ∈ g.exempt ∨ k = h.trapped) ∧
          (g.sstep = false → (curGroup t).stepping = none) ∧
          (g.sstep = true → ∀ f, findEntry (curGroup t).stack h.trapped = some f →
            (curGroup t).stepping = if f.mode = .merging then none else some h.trapped) ∧
          (∀ k, (curGroup t).stepping = some k → ∃ f, findEntry (curGroup t).stack k = some f ∧ f.mode ≠ .merging) ∧
          (∀ r, r < 128 → getS (curGroup t) r = tgetD g.sregs r 0#64 ∧
            poisonedS (curGroup t) r = g.spoison.contains r) ∧
          { noScalars (curGroup t) with handler := none, stepping := none, exempt := [] } =
            { noScalars g with handler := none, stepping := none, exempt := [] } ∧
          (∀ k, k ≠ s.cur.gid → tget t.groups k = tget s.groups k) ∧ aside t = aside s ∧
          (∀ k, (tget t.teams k).map (fun x => { x with tiles := [] }) =
            (tget s.teams k).map fun x => { x with tiles := [] }) ∧
          (∀ k, g.owner ≠ .team k → tget t.teams k = tget s.teams k) ∧
          (∀ k x, g.owner = .team k → tget s.teams k = some x → h.tileStates.Pairwise (fun a b => a.1 < b.1) →
            ∃ y, tget t.teams k = some y ∧ ∀ n, tget y.tiles n =
              match tget h.tileStates n with
              | some st => some (ruleState (tgetD x.tiles n 0#128) (BitVec.ofNat 2 st))
              | none => tget x.tiles n) ∧
          (∀ e ∈ g.stack, e.id = h.trapped → e.mode = .live → e.reconv ≠ some h.tpc → (g.stack.map (·.id)).Nodup →
            ∃ f, findEntry (curGroup t).stack e.id = some f ∧ f.pc = h.tpc ∧ f.mask = e.mask ∧ f.block = e.block ∧
              f.reconv = e.reconv ∧ f.noPre = e.noPre ∧ f.mode = .live) ∧
          ((∀ e ∈ g.stack, e.mode = .live ∧ e.reconv ≠ some e.pc ∧ (e.id = h.trapped → e.reconv ≠ some h.tpc)) → g.stack.length ≤ 4 →
            (∀ e ∈ g.stack, e.mask ≠ 0#64) →
            (curGroup t).stack.map (fun e => { e with stall := 0 }) = g.stack.map fun e =>
              if e.id = h.trapped ∧ e.pc ≠ h.tpc then
                { e with
                  stall := 0, pc := h.tpc, stage := 0, request := 0, spawnLane := 0, waitsOn := none, released := false }
              else { e with stall := 0 }))

/-- PNOPRE, PPRE, ISYNC and IINV (R133, R291, R292): the region flag; the words that the core has fetched and buffered
go; IINV drops the lines of a range that its context maps from the caches of its cluster and its cores, or of the
device, a length of 0 none, but not what cores have fetched, and traps on another scope (0x08) or a length beyond 32
bits (0x03).

LAUNCH (R54, R293), outside handler mode, of a group of a team launched without CHK: the record's 128 bytes are
written into the tail slot in the queue's context, the tail advances by one and the former count is s(sd); a full
queue waits; a queue above 63 or not fed by device code (0x11) and a record not aligned (0x12) trap.

Choices of the model in it: log 44, 46. -/
def Obligations.SystemAndLaunch : Prop :=
  (
    ∀ (s : State),
      let g := curGroup s
      Alone s →
      (∀ i, i = .pnopre ∨ i = .ppre → hmode g = false → Standing s → (curStrand s).reconv ≠ some (nextPc (curStrand s)) →
        ∃ t, exec i s = .next t ∧ OnlyMoves s t ∧ GoesOn s t ∧ Elsewhere s t ∧
          (curStrand t).noPre = decide (i = .pnopre)) ∧
      (∃ t, exec .isync s = .next t ∧ OnlyMoves s t ∧ GoesOn s t ∧ t.teams = s.teams ∧ noCores t = noCores s ∧
        (∀ k, k ≠ s.cur.gid → tget t.groups k = tget s.groups k) ∧ (∀ c, c ≠ g.core → coreAt t c = coreAt s c) ∧
        coreAt t g.core = { coreAt s g.core with fetched := [] }) ∧
      (∀ o : IinvOp, ScalarsReady s [o.sa.toNat, o.sb.toNat] [] → CleanScalars s [o.sa.toNat, o.sb.toNat] →
        let a := (getS g o.sa.toNat).toNat
        let n := (getS g o.sb.toNat).toNat
        let mine (c : Nat) : Prop := o.scope = 5#3 ∨ c = g.core / 14
        (o.scope ≠ 3#3 → o.scope ≠ 5#3 → Traps (.iinv o) s 0x08#8) ∧
        (o.scope = 3#3 ∨ o.scope = 5#3 → 2 ^ 32 ≤ n → Traps (.iinv o) s 0x03#8) ∧
        (o.scope = 3#3 ∨ o.scope = 5#3 → n < 2 ^ 32 →
          ∃ t, exec (.iinv o) s = .next t ∧ OnlyMoves s t ∧
            GoesOn s t ∧ t.teams = s.teams ∧
            (∀ k, k ≠ s.cur.gid → tget t.groups k = tget s.groups k) ∧
            { noCores t with cicache := [], tlb2 := [] } = { noCores s with cicache := [], tlb2 := [] } ∧
            (∀ c, { coreAt t c with icache := [], tlb := [] } = { coreAt s c with icache := [], tlb := [] }) ∧
            (∀ c w, w ∈ (coreAt t c).icache → w ∈ (coreAt s c).icache) ∧
            (∀ c w, ¬mine (c / 14) → w ∈ (coreAt s c).icache → w ∈ (coreAt t c).icache) ∧
            (∀ c l, ¬mine c → tget s.cicache c = some l → tget t.cicache c = some l) ∧
            (n = 0 → t.cicache = s.cicache ∧ ∀ c, (coreAt t c).icache = (coreAt s c).icache) ∧
            ∀ x pa mtype, a ≤ x → x < a + n →
              translateNow s (.core g.core) (launchOf s g).queue (BitVec.ofNat 64 (x / 4096 * 4096)) 0 = .ok (pa, mtype) →
              (∀ c l w, mine c → tget t.cicache c = some l → w ∈ l → w.1 / 8 ≠ (pa + x % 4096) / 64) ∧
              ∀ c w, mine (c / 14) → w ∈ (coreAt t c).icache → w.1 / 8 ≠ (pa + x % 4096) / 64))) ∧
  (
    ∀ (o : LaunchOp) (s : State),
      let g := curGroup s
      let a := (getS g o.sa.toNat).toNat
      let n := (getS g o.sb.toNat).toNat
      let q := tgetD s.queues n {}
      let slot := q.base + BitVec.ofNat 64 (128 * (q.tail.toNat % 2 ^ q.log2))
      Alone s → hmode g = false → ScalarsReady s [o.sa.toNat, o.sb.toNat] [o.sd.toNat] →
      CleanScalars s [o.sa.toNat, o.sb.toNat] →
      (a % 128 ≠ 0 → Traps (.launch o) s 0x12#8) ∧
      (a % 128 = 0 → 64 ≤ n ∨ q.dev = false → Traps (.launch o) s 0x11#8) ∧
      ∀ image u pa mtype, a % 128 = 0 → n < 64 → q.dev = true → readImage s (getS g o.sa.toNat) 128 = .ok (image, u) →
        OnlyTlbs s u ∧ ((q.tail - q.head).toNat = 2 ^ q.log2 → exec (.launch o) s = .next (stalled u)) ∧
        ((q.tail - q.head).toNat ≠ 2 ^ q.log2 → translateNow u (.core g.core) n slot 1 = .ok (pa, mtype) → earlierAccesses s = [] →
          pendingWb s g.core (fun _ => true) = [] →
          ∃ t, exec (.launch o) s = .next t ∧ getS (curGroup t) o.sd.toNat = q.tail.setWidth 64 ∧
            OnlyScalars s t [o.sd.toNat] ∧ GoesOn s t ∧ t.teams = s.teams ∧
            (∀ k, k ≠ s.cur.gid → tget t.groups k = tget s.groups k) ∧
            t.queues = tset s.queues n { q with tail := q.tail + 1#32 } ∧
            (∀ j, j < 128 → mget t.mem (pa + j) = (image.getD j (0#8, false)).1) ∧
            (∀ x, (x < pa ∨ pa + 128 ≤ x) → mget t.mem x = mget s.mem x) ∧
            { noCores t with queues := [], mem := [], poison := [], tlb2 := [] } =
              { noCores s with queues := [], mem := [], poison := [], tlb2 := [] } ∧
            (∀ c, { coreAt t c with lines := [], tlb := [] } = { coreAt s c with lines := [], tlb := [] }) ∧ KeepsDirty s t))

/-! ### The device's own steps -/

/-- The coaches' trains and their anchor slice (R95 to R99, R132, R393, R394): a coach joins its core's trains once
what comes before its access is performed; a source with fewer than four trains in flight injects its oldest; a
delivered train sets its coach before the anchor's store, or back at its core, where a golden one keeps the identity
until its place is free; the store admits a coach it has room for, deflects another, and sends a golden one back
bounced; a coach with an uncorrectable header goes home as a lost notice; an uncorrectable guard is a fatal device
error. A delivered golden train passes the identity to the oldest train of the next source that has one.

COACH_ACCESS_DONE (R95, R119, R393): once the cores that own an acquire's lines are promoted, every lane but the
failing ones is performed, in increasing order of lanes; the coach goes home, with status 0 and what the lanes found,
or with the first failing lane's status and address. -/
def Obligations.CoachesTravel : Prop :=
  (
    ∀ (s : State) (id : Nat) (o : Out) (c : Coach), HasCoach s id o c → c.phase = .queued →
      (∀ t ∈ s.trains, t.2.cargo = .coach → t.2.item ≠ id) → (sourceAt s o.core).inject = [] →
      (∀ y ∈ s.outs, y.2.core = o.core → y.2.coach ≠ none → y = (id, o)) →
      (outReady o = false → exec (.odnTrainInject o.core) s = .next s) ∧
      (outReady o = true → (sourceAt s o.core).flight.length < 4 →
        Takes (.odnTrainInject o.core) s fun t => SameWork s t ∧ noOuts t = noOuts s ∧
          t.trains = tset s.trains s.nextId { src := o.core, cargo := .coach, item := id, home := false } ∧
          (∀ k, k ≠ o.core → sourceAt t k = sourceAt s k) ∧
          sourceAt t o.core = { inject := [], flight := (sourceAt s o.core).flight ++ [s.nextId] } ∧
          OnlyCoach s t id o { c with phase := .outward })) ∧
  (
    ∀ (s : State) (id n : Nat) (o : Out) (c : Coach) (x : Train), HasCoach s id o c → Carries s id n x →
      (∀ rest, (sourceAt s x.src).inject = n :: rest → (sourceAt s x.src).flight.length < 4 → NoneLeaves s x.src →
        Takes (.odnTrainInject x.src) s fun t => SameWork s t ∧ noOuts t = noOuts s ∧ t.trains = s.trains ∧
          GoldenKept s t ∧ (∀ k, k ≠ x.src → sourceAt t k = sourceAt s k) ∧
          sourceAt t x.src = { inject := rest, flight := (sourceAt s x.src).flight ++ [n] } ∧
          OnlyCoach s t id o { c with phase := if x.home then .homeward else .outward }) ∧
      (4 ≤ (sourceAt s x.src).flight.length → exec (.odnTrainInject x.src) s = .next s) ∧
      (n ∈ (sourceAt s x.src).flight → x.home = true →
        Takes (.odnTrainDelivered n) s fun t => SameWork s t ∧ noOuts t = noOuts s ∧ TrainLeft s t n x ∧
          (s.goldenTrain = some n → t.golden = s.golden ∧ t.goldenTrain = none ∧ t.goldenHold = some id) ∧
          (s.goldenTrain ≠ some n → GoldenKept s t) ∧ OnlyCoach s t id o { c with phase := .returned }) ∧
      (n ∈ (sourceAt s x.src).flight → x.home = false → c.phase = .outward →
        Takes (.odnTrainDelivered n) s fun t => SameWork s t ∧ { aside t with outs := [] } = { aside s with outs := [] } ∧
          OnlyCoach s t id o { c with phase := .before }) ∧
      (c.phase = .before → StoreRoom s c →
        Takes (.coachAtAnchor id) s fun t => SameWork s t ∧ noOuts t = noOuts s ∧ TrainGone s t n x ∧
          OnlyCoach s t id o { c with phase := .stored }) ∧
      (c.phase = .before → ¬StoreRoom s c → s.goldenTrain ≠ some n →
        Takes (.coachAtAnchor id) s fun t => SameWork s t ∧ { aside t with outs := [] } = { aside s with outs := [] } ∧
          OnlyCoach s t id o { c with phase := .outward }) ∧
      (c.phase = .before → ¬StoreRoom s c → s.goldenTrain = some n →
        Takes (.coachAtAnchor id) s fun t => SameWork s t ∧ noOuts t = noOuts s ∧ t.sources = s.sources ∧ GoldenKept s t ∧
          t.trains = tset s.trains n { x with home := true } ∧
          OnlyCoach s t id o { c with phase := .homeward, status := 1 }) ∧
      (c.phase = .before →
        Takes (.coachLost id) s fun t => SameWork s t ∧ noOuts t = noOuts s ∧
          OnlyCoach s t id o { c with phase := .homeward, status := 0x19, lost := true } ∧
          HeadsHome t id s.nextId c.anchor ∧ (s.nextId ≠ n → tget t.trains n = none)) ∧
      (n ∈ (sourceAt s x.src).flight →
        Takes (.coachGuardFailure id) s fun t => tget t.outs id = none ∧ tget t.trains n = none ∧ t.mem = s.mem ∧
          (∀ l ∈ t.launches, l.2.aborted = true) ∧ { kind := 4, nums := [0x19] } ∈ t.mgmt ∧
          (∀ k l, tget s.launches k = some l → l.aborted = false → { kind := 0, nums := [k, 0x19] } ∈ t.mgmt) ∧
          ∀ p ∈ s.ports, p.2.state = 3 → { kind := .fatal, dev := p.1 } ∈ t.outbox)) ∧
  (
    ∀ (s : State) (id : Nat) (o : Out) (c : Coach) (st : Nat → Nat), HasCoach s id o c → c.phase = .stored →
      outReady o = true → promotes s o = [] → (∀ a ∈ o.lanes, a.did = false ∧ a.early = none) →
      (o.kind = .load ∨ o.kind = .atomic ∧ o.size ∈ [4, 8] ∧ (0x7D ≤ o.op → o.size = 4) ∧
        ∀ a ∈ o.lanes, a.pa % o.size = 0 ∧ a.data.toNat < 2 ^ (8 * o.size) ∧ a.swap.toNat < 2 ^ (8 * o.size)) →
      o.space ≠ 2 → o.size ≤ 16 → (o.lanes.map (·.lane)).Nodup →
      ((∀ a ∈ o.lanes, keepsToL1 o a) ∨ ∀ a ∈ o.lanes, ¬keepsToL1 o a) →
      (∀ t, o.owner = .team t → (tgetD s.teams t {}).held = []) → (∀ a ∈ o.lanes, RuleLane s o a (st a.lane)) →
      let good := o.lanes.filter fun a => st a.lane == 0
      Takes (.coachAccessDone id) s fun t => SameWork s t ∧ HeadsHome t id s.nextId c.anchor ∧
        t.mem = (if o.kind = .atomic then (ruleAtomics o.op o.size good s.mem).1 else s.mem) ∧
        (∀ k, k ≠ id → (tget t.outs k).map noEarly = (tget s.outs k).map noEarly) ∧
        { noTrains (noCores t) with outs := [], nextId := 0, freeNo := 0, mem := [], poison := [], mgmt := [] } =
          { noTrains (noCores s) with outs := [], nextId := 0, freeNo := 0, mem := [], poison := [], mgmt := [] } ∧
        ∃ p d, tget t.outs id = some p ∧ p.coach = some d ∧ d.phase = .homeward ∧ d.payload = c.payload ∧ d.tag = c.tag ∧
          p.lanes.map (·.lane) = o.lanes.map (·.lane) ∧
          (∀ a, o.lanes.find? (fun a => st a.lane != 0) = some a →
            d.status = st a.lane ∧ d.lane = a.lane ∧ d.addr = a.va ∧
            t.mgmt = if st a.lane = 0x10 then s.mgmt ++ [{ kind := 3, nums := [o.core, c.tag, a.va.toNat] }] else s.mgmt) ∧
          ((∀ a ∈ o.lanes, st a.lane = 0) →
            ((∀ b ∈ p.lanes, b.resPoison = 0#4) → d.status = 0) ∧
            (∀ b, p.lanes.find? (fun b => b.resPoison != 0#4) = some b → d.status = 0x18 ∧ d.lane = b.lane)) ∧
          (o.kind = .load → (∀ b ∈ o.lanes, ¬keepsToL1 o b ∨ inL1Whole s o b) ∨ o.lanes.length ≤ 1 →
            ∀ a ∈ good, ∃ b ∈ p.lanes, b.lane = a.lane ∧ b.res = BitVec.ofNat 128 (seenNat s o a)) ∧
          (o.kind = .load → ∀ a ∈ good, keepsToL1 o a → ∃ b ∈ p.lanes, b.lane = a.lane ∧
            ∀ j, j < o.size → maySee s o (a.pa + j) (b.res.extractLsb' (8 * j) 8)) ∧
          (o.kind = .atomic → ∀ f : Nat → Nat,
            (good.zip (ruleAtomics o.op o.size good s.mem).2).all (fun x => f x.1.lane == x.2) = true →
            ∀ a ∈ good, ∃ b ∈ p.lanes, b.lane = a.lane ∧ b.res = BitVec.ofNat 128 (f a.lane)))

/-- COACH_LANDING, COACH_BOUNCE_LANDING and COACH_FAULT_RETURN (R41, R44, R46, R99, R100, R104, R383, R395): a
returned coach of its tag's generation lands: its escort registers are back and its tag is free, and poison that its
payload met abroad is consumed (R407). With a good status the destination takes what the lanes found; bounced, the
access goes out again as a plain one and the refusal is counted; with a fault the destination is as it was and full,
and the trap is pending at the escorted instruction. A coach of another generation is discarded and reported.

LANDING_AREA_RESEAT and RESEAT_WAIT_EXPIRY (R100, R101): once enough rows are free the image with the lowest thread
identifier is reseated; after 4,096 cycles of waiting groups are evicted into the landing area, in the order of R101,
until the waiting one's rows are free or none is left.

Choices of the model in it: log 35, 45. -/
def Obligations.CoachesLand : Prop :=
  (
    ∀ (s : State) (id : Nat) (o : Out) (c : Coach) (g : Group), HasCoach s id o c → c.phase = .returned →
      tget s.groups o.gid = some g → g.ended = false → o.scalar = false → o.done = false → (∀ f ∈ g.folds, f.1 ≠ id) →
      (∀ a ∈ o.lanes, a.lane < 64) → (o.lanes.map (·.lane)).Nodup → o.reg + o.nreg ≤ 256 →
      (∀ r, o.reg ≤ r → r < o.reg + o.nreg → ¬(c.base ≤ r ∧ r < c.base + c.count)) →
      let fills := (List.range o.nreg).map (o.reg + ·)
      let i : Instr := if c.status = 0 then .coachLanding id else if c.status = 1 then .coachBounceLanding id
        else .coachFaultReturn id
      (tgetD (coreAt s o.core).tagGens c.tag 0 ≠ c.gen →
        Takes i s fun t => t.groups = s.groups ∧ (∀ k, noDirty (coreAt t k) = noDirty (coreAt s k)) ∧ t.mem = s.mem ∧
          tget t.outs id = none ∧ t.mgmt = s.mgmt ++ [{ kind := 3, nums := [o.core, c.tag] }]) ∧
      (tgetD (coreAt s o.core).tagGens c.tag 0 = c.gen → (o.ord = 0 ∨ c.status ≠ 0) →
        Takes i s fun t => TagFreed s t o c ∧ t.mem = s.mem ∧ (∀ k, k ≠ o.gid → tget t.groups k = tget s.groups k) ∧
          (c.hurt = true → ∀ k x, g.owner = .team k → tget t.teams k = some x → x.chk.pc = true) ∧
          ∃ h, tget t.groups o.gid = some h ∧ Reseated s o c fills g h ∧
            (c.status = 0 → Completed s t id ∧ h.stack = g.stack ∧
              (∀ k a, k < o.nreg → a ∈ o.lanes → getV h (o.reg + k) a.lane = (a.res.extractLsb' (32 * k) 32 : Lane)) ∧
              (∀ r ∈ fills, fullV h r = true)) ∧
            (c.status = 1 → tget t.outs id = some { o with coach := none } ∧
              (∀ k, k ≠ id → tget t.outs k = tget s.outs k) ∧ h.ref = true ∧ h.stack = g.stack ∧
              (∀ r ∈ fills, fullV h r = fullV g r) ∧
              (∀ k, g.owner = .team k → h.refusals = g.refusals ∧
                (tget t.teams k).map (·.refusals) = (tget s.teams k).map (·.refusals + 1)) ∧
              (∀ k, g.owner = .spawned k → h.refusals = g.refusals + 1)) ∧
            (2 ≤ c.status → Completed s t id ∧
              (∀ r ∈ fills, fullV h r = true) ∧
              ((c.park = true → g.parked = true → g.width < 16) → ∀ r ∈ fills, ∀ l, l < 64 → getV h r l = getV g r l) ∧
              h.stack.map (fun e => { e with pend := [], stall := 0 }) = g.stack.map (fun e => { e with pend := [], stall := 0 }) ∧
              ((g.stack.map (·.id)).Nodup → ∀ e ∈ g.stack, e.id = o.entry → ∃ f ∈ h.stack, f.id = e.id ∧
                f.pend = e.pend ++
                  [{ code := BitVec.ofNat 8 c.status, lane := c.lane, addr := c.addr, tpc := some o.pc }])))) ∧
  (
    ∀ (s : State),
      (∀ core k g, (k, g) ∈ images s core → tget s.groups k = some g → s.groups.Pairwise (fun a b => a.1 < b.1) →
        (∀ x ∈ images s core, x.1 = k ∨ groupThread s g < groupThread s x.2) →
        (g.rowsOut ≤ freeRows s core → Takes (.landingAreaReseat core) s fun t =>
          t.groups = tset s.groups k { g with image := false, rowsOut := 0, rowWait := 0 } ∧ t.teams = s.teams ∧
          aside t = aside s) ∧
        (freeRows s core < g.rowsOut → exec (.landingAreaReseat core) s = .next s)) ∧
      (∀ gid g, tget s.groups gid = some g → g.image = true → isSaved s g = false →
        s.groups.Pairwise (fun a b => a.1 < b.1) →
        (g.rowWait + 4096 ≤ (coreAt s g.core).cycle → Takes (.reseatWaitExpiry gid) s fun t =>
          t.teams = s.teams ∧ aside t = aside s ∧ tget t.groups gid = some g ∧
          ∃ k, k ≤ (evictable s gid g).length ∧
            (∀ x, (x ∈ (evictable s gid g).take k → tget t.groups x.1 =
                some { x.2 with image := true, rowsOut := groupRows s x.2 - rowsAway s x.1 x.2, rowWait := (coreAt s g.core).cycle })) ∧
            (∀ j, (∀ x ∈ (evictable s gid g).take k, x.1 ≠ j) → tget t.groups j = tget s.groups j) ∧
            (g.rowsOut ≤ freeRows t g.core ∨ k = (evictable s gid g).length)) ∧
        ((coreAt s g.core).cycle < g.rowWait + 4096 → exec (.reseatWaitExpiry gid) s = .next s)))

/-- Owner notices, write-backs and promotions (R78, R80, R96, R118, R119), each of which travels on a train, is
handled once that has arrived, and in the order in which its core sent it: a notice enters its pair in the home
slice's table, or, the table full, has the owner of the oldest entry asked for a write-back; a write-back's dirty
bytes are performed at the slice, its bytes in the L1 are then clean, its acknowledgement leaves, and its pair is
cleared once nothing of the line is left; a core sends its oldest dirty sector when one is asked for and the one
before is acknowledged; an acquire asks the owner cores of its lines for a promotion; a promotion has every dirty
sector of the owner written back, and its acknowledgement leaves when the last of them is acknowledged.

Choices of the model in it: log 38. -/
def Obligations.HomeSlices : Prop :=
  ∀ (s : State),
    (∀ id x, tget s.trains id = some x → x.cargo ≠ .coach →
      (∀ rest, (sourceAt s x.src).inject = id :: rest → (sourceAt s x.src).flight.length < 4 → NoneLeaves s x.src →
        Takes (.odnTrainInject x.src) s fun t => SameWork s t ∧
          { aside t with sources := [] } = { aside s with sources := [] } ∧ (∀ k, k ≠ x.src → sourceAt t k = sourceAt s k) ∧
          sourceAt t x.src = { inject := rest, flight := (sourceAt s x.src).flight ++ [id] }) ∧
      (id ∈ (sourceAt s x.src).flight → Takes (.odnTrainDelivered id) s fun t => SameWork s t ∧ TrainGone s t id x ∧
        Unloaded s t x ∧ t.cores = s.cores ∧ t.owners = s.owners ∧
        { noOwners t with outs := [] } = { noOwners s with outs := [] })) ∧
    (∀ id n, tget s.notices id = some n → n.away = true → exec (.ownerNotice id) s = .next s) ∧
    (∀ id n, tget s.notices id = some n → n.away = false → Foremost s n.core n.line id →
      let l := ownersOf s n.line
      ((n.line, n.core) ∈ l ∨ l.length < 4096 → Takes (.ownerNotice id) s fun t => SameWork s t ∧ t.cores = s.cores ∧
        noOwners t = noOwners s ∧ t.writeBacks = s.writeBacks ∧ t.promotions = s.promotions ∧
        t.notices = terase s.notices id ∧
        ownersOf t n.line = (if l.contains (n.line, n.core) then l else l ++ [(n.line, n.core)]) ∧
        ∀ k, homeSlice (128 * k) ≠ homeSlice (128 * n.line) → ownersOf t k = ownersOf s k) ∧
      (∀ line c r, (n.line, n.core) ∉ l → 4096 ≤ l.length → l = (line, c) :: r →
        Takes (.ownerNotice id) s fun t => SameWork s t ∧ noOwners t = noOwners s ∧ t.notices = s.notices ∧
          t.owners = s.owners ∧ t.promotions = s.promotions ∧
          SendsOldest s t c (marked (fun x => x / 4 == line) (coreAt s c).dirty))) ∧
    (∀ core line, Takes (.writebackRequest core line) s fun t => SameWork s t ∧ noOwners t = noOwners s ∧
      t.notices = s.notices ∧ t.owners = s.owners ∧ t.promotions = s.promotions ∧
      SendsOldest s t core (marked (fun x => x / 4 == line) (coreAt s core).dirty)) ∧
    (∀ id w, tget s.writeBacks id = some w → w.away = false → w.performed = false → (∀ n ∈ s.notices, n.2.core = w.core →
        n.2.line = w.sector / 4 → w.order ≤ n.1) → s.writeBacks.Pairwise (fun a b => a.1 < b.1) →
      let line := w.sector / 4
      let more := (∃ d ∈ (coreAt s w.core).dirty, d.sector / 4 = line) ∨
        ∃ v ∈ s.writeBacks, v.1 ≠ id ∧ v.2.core = w.core ∧ v.2.sector / 4 = line ∧ v.2.performed = false
      Takes (.writebackAtSlice id) s fun t => SameWork s t ∧ SectorClean s t w.core w.sector ∧ t.notices = s.notices ∧
        t.promotions = s.promotions ∧ { noOwners t with mem := [], poison := [] } = { noOwners s with mem := [], poison := [] } ∧
        t.writeBacks = tset s.writeBacks id { w with performed := true, away := true } ∧
        TrainWaits s t (196 + homeSlice (128 * line)) .writeBack id true ∧
        (memWf s.mem = true → ∀ x, mget t.mem x =
          if x / 32 = w.sector ∧ w.mask.getLsbD (x % 32) = true then w.data.extractLsb' (8 * (x % 32)) 8 else mget s.mem x) ∧
        (more → t.owners = s.owners) ∧
        (¬more → ownersOf t line = (ownersOf s line).filter (· ≠ (line, w.core)) ∧
          ∀ k, homeSlice (128 * k) ≠ homeSlice (128 * line) → ownersOf t k = ownersOf s k)) ∧
    (∀ id w, tget s.writeBacks id = some w → w.performed = true → w.away = false → Takes (.writebackAck id) s fun t =>
      t.groups = s.groups ∧ t.notices = s.notices ∧ t.owners = s.owners ∧
      { noOwners t with outs := [] } = { noOwners s with outs := [] } ∧
      SendsOldest (modCore { s with writeBacks := terase s.writeBacks id } w.core fun c => { c with sending := none }) t w.core
        (coreAt s w.core).dirty ∧
      (∀ k, tget t.outs k = (tget s.outs k).map fun o => { o with afterWb := o.afterWb.filter (· ≠ id) }) ∧
      (∀ k, tget t.promotions k = (tget s.promotions k).map fun p => { p with awaits := p.awaits.filter (· ≠ id) }) ∧
      ∀ k, tget t.teams k = (tget s.teams k).map fun x => { x with
        arrivals := x.arrivals.map fun a => (a.1, { a.2 with afterWb := a.2.afterWb.filter (· ≠ id) }) }) ∧
    (∀ id o, Due s id o → fillsRegister o = true → (o.sent = true ∨ Local s o) → (∃ a ∈ o.lanes, a.did = false) →
      promotes s o ≠ [] → Takes (.loadReply id false) s fun t => SameWork s t ∧ t.mem = s.mem ∧ t.cores = s.cores ∧
        (∀ k, k ≠ id → tget t.outs k = tget s.outs k) ∧
        ∃ p, tget t.outs id = some p ∧ { p with promos := [] } = { o with promos := [] } ∧
          ∀ x ∈ promotes s o, ∃ k q, k ∈ p.promos ∧ tget t.promotions k = some q ∧ q.out = id ∧ q.slice = x.1 ∧
            q.core = x.2 ∧ q.received = false ∧ q.away = true) ∧
    (∀ id p, tget s.promotions id = some p → p.received = false → p.away = false → Takes (.promotionRequest id) s fun t =>
      SameWork s t ∧ noOwners t = noOwners s ∧ t.notices = s.notices ∧ t.owners = s.owners ∧
      (∀ k, k ≠ id → tget t.promotions k = tget s.promotions k) ∧
      tget t.promotions id = some { p with
        received := true
        awaits := (coreAt s p.core).dirty.map (·.id) ++ (s.writeBacks.filter fun w => w.2.core == p.core).map (·.1) } ∧
      SendsOldest s t p.core (marked (fun _ => true) (coreAt s p.core).dirty)) ∧
    (∀ id p, tget s.promotions id = some p → p.received = true → p.awaits = [] → p.away = false →
      (p.acked = false → Takes (.promotionAck id) s fun t => SameWork s t ∧ noOwners t = noOwners s ∧ t.cores = s.cores ∧
        t.promotions = tset s.promotions id { p with acked := true, away := true } ∧
        TrainWaits s t p.core .promotion id true) ∧
      (p.acked = true → Takes (.promotionAck id) s fun t =>
        SameWork s t ∧ t.promotions = terase s.promotions id ∧
        { aside t with promotions := [], outs := [] } = { aside s with promotions := [], outs := [] } ∧
        (∀ k, k ≠ p.out → tget t.outs k = tget s.outs k) ∧
        tget t.outs p.out = (tget s.outs p.out).map fun o => { o with promos := o.promos.filter (· ≠ id) }))

/-- TRANSLATION_WALK_DONE (R82 to R85, R87, R408): a walk that a page's leaf ends, with the use the walk asks for
allowed, enters the page into its core's and its cluster's TLB; else the fault it ends in waits for its asker, and
poison in a table is reported; a walk whose result an invalidation discards, such as a page that it covers, leaves
nothing; and no invalidation awaits the walk any more.

Choices of the model in it: log 12. -/
def Obligations.PageWalks : Prop :=
  ∀ (s : State) (id : Nat) (w : Walk), tget s.walks id = some w → w.va < 2 ^ 45 →
    let root := (tgetD s.contexts w.ctx {}).root.toNat / 2 ^ 12 % 2 ^ 40 * 2 ^ 12
    let end_ := ruleWalk s w.ctx (w.va * 4096) 4 root
    let fault (code : BitVec 8) : WalkFault := { core := w.core, ctx := w.ctx, page := w.va, use := w.use, code := code }
    let lost := w.dead = true ∨ ∃ e, end_ = .page e ∧ PageDiscarded s id e
    Takes (.translationWalkDone id) s fun t => SameWork s t ∧ noWalks t = noWalks s ∧ t.walks = terase s.walks id ∧
      NotAwaited s t id ∧
      (∀ c, { coreAt t c with tlb := [] } = { coreAt s c with tlb := [] }) ∧
      (lost → t.walkFaults = s.walkFaults ∧ t.cores = s.cores ∧ t.tlb2 = s.tlb2 ∧ t.mgmt = s.mgmt) ∧
      (∀ e, ¬lost → end_ = .page e → (w.use = 0 ∨ w.use = 1 ∧ e.w = true ∨ w.use = 2 ∧ e.x = true) →
        t.walkFaults = s.walkFaults ∧ t.mgmt = s.mgmt ∧
        (coreAt t w.core).tlb = (e :: (coreAt s w.core).tlb.filter (· ≠ e)).take 64 ∧
        tgetD t.tlb2 (w.core / 14) [] = (e :: (tgetD s.tlb2 (w.core / 14) []).filter (· ≠ e)).take 4096 ∧
        (∀ c, c ≠ w.core → coreAt t c = coreAt s c) ∧
        ∀ c, c ≠ w.core / 14 → tget t.tlb2 c = tget s.tlb2 c) ∧
      (∀ e, ¬lost → end_ = .page e → ¬(w.use = 0 ∨ w.use = 1 ∧ e.w = true ∨ w.use = 2 ∧ e.x = true) →
        t.walkFaults = s.walkFaults ++ [fault 0x11#8] ∧ t.cores = s.cores ∧ t.tlb2 = s.tlb2 ∧ t.mgmt = s.mgmt) ∧
      (∀ code bad, ¬lost → end_ = .fault code bad →
        t.walkFaults = s.walkFaults ++ [fault (BitVec.ofNat 8 code)] ∧ t.cores = s.cores ∧ t.tlb2 = s.tlb2 ∧
        t.mgmt = if bad then s.mgmt ++ [{ kind := 8, nums := [w.ctx, w.va] }] else s.mgmt)

/-- The registers of a launch queue (R50 to R54): what LQTAIL_WRITE, LQ_ENABLE, LQ_DISABLE, LQ_RESUME, LQ_SKIP and
LQSTAT_CLEAR leave in it, and that they change nothing else.

LAUNCH_ACTIVATION and DEPENDENCE_RECHECK (R47, R48, R53, R55, R119): where a core owns the line of a dependence, its
promotion comes first; else a fault on the record or a dependence halts the queue with code 5; a dependence whose
counter does not read 0 leaves the record waiting; a record that a check rejects halts the queue with the first such
check's code; else the launch is active under the next sequence number, and head advances.

Choices of the model in it: log 14, 48. -/
def Obligations.LaunchActivation : Prop :=
  (
    ∀ (s : State) (n : Nat) (v : Word), n < 64 →
      let q := tgetD s.queues n {}
      Takes (.lqtailWrite n v) s (OnlyQueue s · n (ruleTail v q)) ∧
      (v.getLsbD 0 = true → Takes (.lqEnable n v) s (OnlyQueue s · n (ruleControl v q))) ∧
      (v.getLsbD 0 = false → Takes (.lqDisable n v) s (OnlyQueue s · n (ruleControl v q))) ∧
      Takes (.lqResume n) s (OnlyQueue s · n (ruleResume false q)) ∧
      Takes (.lqSkip n) s (OnlyQueue s · n (ruleResume true q)) ∧
      Takes (.lqstatClear n) s (OnlyQueue s · n { q with code := 0 })) ∧
  (
    ∀ (s : State) (n : Nat) (q : Queue) (i : Instr), HeadDue s n q → (i = .launchActivation n ∨ i = .dependenceRecheck n) →
      let record := numberAt s n (q.base + BitVec.ofNat 64 (128 * (q.head.toNat % 2 ^ q.log2))) 128
      let halted (code : Nat) : Queue := { q with halted := true, code := code, index := q.head }
      (record = none → Takes i s (OnlyQueue s · n (halted 5))) ∧
      ∀ b, record = some b →
        let r := BitVec.ofNat 1024 b
        let free := ∀ slice core, ¬DependenceOwned s n r slice core
        ((∀ p ∈ s.promotions, p.1 < s.nextId) → ¬free → Takes i s fun t => SameWork s t ∧ noOwners t = noOwners s ∧
          t.cores = s.cores ∧ t.owners = s.owners ∧ (∀ p ∈ s.promotions, p ∈ t.promotions) ∧
          ∀ slice core, DependenceOwned s n r slice core →
            ∃ p ∈ t.promotions, p.2.out = 0 ∧ p.2.slice = slice ∧ p.2.core = core) ∧
        (free → (dependenceReads s n r 0 = none ∨ dependenceReads s n r 1 = none) →
          Takes i s (OnlyQueue s · n (halted 5))) ∧
        (∀ x y, free → dependenceReads s n r 0 = some x → dependenceReads s n r 1 = some y → x ≠ 0 ∨ y ≠ 0 →
          exec i s = .next s) ∧
        (free → dependenceReads s n r 0 = some 0 → dependenceReads s n r 1 = some 0 → ∀ code, LaunchStatus s n r code →
          (code ≠ 0 → Takes i s (OnlyQueue s · n (halted code))) ∧
          (code = 0 → Takes i s fun t => SameWork s t ∧ t.launches = tset s.launches s.dist.nextSeq { queue := n, record := r } ∧
            t.dist = { s.dist with nextSeq := s.dist.nextSeq + 1 } ∧
            t.queues = tset s.queues n { q with head := q.head + 1#32 } ∧
            { aside t with launches := [], dist := {}, queues := [] } =
              { aside s with launches := [], dist := {}, queues := [] })))

/-- DISTRIBUTOR_TURN (R49, R57, R62, R63), turns being 32 cycles apart: with one queue's launch, neither gang nor
redundant nor checked, to place and nothing to refill, its deficit grows by its quantum up to twice that; where it is
not negative and a context record is free, the launch's next team is formed on the first core set that fits, as R49
says it starts, and its wait is over; where none fits its wait begins or goes on, and no team is placed.

TEAM_RETIRE (R56, R58, R64, R361, R410): the team, its groups and its rows are gone, its queue's deficit falls by its
resident cycles on each of its cores, its core set is due for a refill while its grid has more teams, and the last
team's retirement completes the launch: its counter falls by one, or, where a team was tainted, rises by 2⁶² − 1 and
the management core is told; a fault on the counter leaves it unwritten and tells the management core.

Choices of the model in it: log 49, 51. -/
def Obligations.PlacementAndRetirement : Prop :=
  (
    ∀ (s : State) (n seq : Nat) (l : Launch),
      let now := clockAt s Config.clockDist
      let q := tgetD s.queues n {}
      let d := min (q.deficit + q.quant) (2 * q.quant)
      let set := (scanSets s seq).find? fun c => (freshFit s l.record c).isSome
      Fresh s → s.teams.all (fun t => decide (t.1 < s.nextId)) = true → s.launches = [(seq, l)] → n < 64 → l.queue = n →
      l.done = false → l.aborted = false → l.placing = false →
      RecordLimits l.record → recField l.record 184 3 = 0 → (∀ t ∈ s.teams, t.2.launch ≠ seq) →
      l.next < recField l.record 128 32 → s.dist.refills = [] → s.queues.Pairwise (fun a b => a.1 < b.1) →
      (∀ t0, s.dist.lastTurn = some t0 → now < t0 + 32 → exec .distributorTurn s = .next s) ∧
      ((∀ t0, s.dist.lastTurn = some t0 → t0 + 32 ≤ now) →
        (∀ cores, set = some cores → 0 ≤ d → Takes .distributorTurn s fun t =>
          TeamFormed s t seq l.next cores ∧ t.dist.lastTurn = some now ∧ t.dist.placements = s.dist.placements + 1 ∧
          tget t.launches seq = some { l with next := l.next + 1, lastCluster := some (cores.headD 0 / 14) } ∧
          (tgetD t.queues n {}).deficit = d ∧ (∀ w ∈ (tgetD t.queues n {}).waits, w.1 = seq → w.2.1 ≠ l.next) ∧
          t.mem = s.mem ∧ t.outs = s.outs) ∧
        (set = none ∨ d < 0 → Takes .distributorTurn s fun t => SameWork s t ∧ t.launches = s.launches ∧
          t.dist.lastTurn = some now ∧ t.dist.placements = s.dist.placements ∧ (tgetD t.queues n {}).deficit = d ∧
          t.mem = s.mem ∧ t.cores = s.cores ∧
          (∀ w ∈ q.waits, w.1 = seq → w.2.1 = l.next → w ∈ (tgetD t.queues n {}).waits) ∧
          (set = none → (∀ w ∈ q.waits, w.1 = seq → w.2.1 ≠ l.next) →
            (seq, l.next, now) ∈ (tgetD t.queues n {}).waits)))) ∧
  (
    ∀ (s : State) (k : Nat) (x : Team) (l : Launch), MayRetire s k x → tget s.launches x.launch = some l →
      s.teams.Pairwise (fun a b => a.1 < b.1) →
      let bad := x.chk.pc || x.chk.pw || x.chk.pb
      let m := { l with retired := l.retired + 1, tainted := l.tainted || bad }
      let others := ∃ t ∈ s.teams, t.1 ≠ k ∧ t.2.launch = x.launch
      let more := l.next < recField l.record 128 32
      let charge := (x.resident + ((coreAt s (x.cores.headD 0)).cycle - x.placedAt)) * x.cores.length
      Takes (.teamRetire k) s fun t =>
        tget t.teams k = none ∧ (∀ j, j ≠ k → tget t.teams j = tget s.teams j) ∧
        (∀ j g, tget s.groups j = some g → g.owner ≠ .team k → tget t.groups j = some g) ∧
        (∀ g ∈ t.groups, g.2.owner ≠ .team k) ∧ (∀ b ∈ t.rowBlocks, ∃ g ∈ t.groups, b.1 ∈ g.2.rowBlocks) ∧
        (tgetD t.queues l.queue {}).deficit = (tgetD s.queues l.queue {}).deficit - charge ∧
        noPlaces t = noPlaces s ∧
        (more → l.done = false → t.dist.refills = s.dist.refills ++ [{ launch := x.launch, cores := x.cores }]) ∧
        (others ∨ more → tget t.launches x.launch = some m ∧ t.mem = s.mem) ∧
        (¬others → ¬more → l.done = false →
          (∀ y, tget t.launches x.launch = some y → y = { m with done := true, placing := false }) ∧
          (∀ pa mtype, translateNow s .bare l.queue (BitVec.ofNat 64 (recField l.record 448 57)) 1 = .ok (pa, mtype) →
            leNat (mread t.mem pa 8) = ruleCounter m (leNat (mread s.mem pa 8)) ∧
            (∀ a, (a < pa ∨ pa + 8 ≤ a) → mget t.mem a = mget s.mem a) ∧
            t.mgmt = if m.tainted then s.mgmt ++ [{ kind := 2, nums := [x.launch] }] else s.mgmt) ∧
          (∀ c, translateNow s .bare l.queue (BitVec.ofNat 64 (recField l.record 448 57)) 1 = .error c → t.mem = s.mem ∧
            { kind := 1, nums := [x.launch, recField l.record 448 57] } ∈ t.mgmt)))

/-- Pre-emption and the in-field test (R29, R59, R71, R263, R294, R364, R365): a request stops a resident team's
strands, at once where none is in a region, and leaves a team that is being saved or is saved; a strand that overruns
its hold has the trap 0x28 pending; the save begins once none holds, and completes once everything of the team has
landed and its requests to other devices are answered: its state stands in its context record, and its rows are free;
a team that has waited 65,536 cycles has one resident team of a lower class pre-empted; a test takes its cluster out
of placement, pre-empting the teams there, until it ends.

Choices of the model in it: log 49, 50. -/
def Obligations.Preemption : Prop :=
  ∀ (s : State) (k : Nat) (x : Team),
    (Preemptible s k x → Takes (.preemptionRequest k) s fun t => Preempted s t k x ∧ noNetwork t = noNetwork s ∧
      (¬FarAsked s k → aside t = aside s)) ∧
    (tget s.teams k = some x → x.mate = none → x.trailing = false → x.phase ≠ .resident →
      Takes (.preemptionRequest k) s fun t => SameWork s t ∧ aside t = aside s) ∧
    (∀ gid g e, tget s.groups gid = some g → g.owner = .team k → tget s.teams k = some x → g.handler = none → e ∈ g.stack →
      (∀ f ∈ g.stack, f.id = e.id → f = e) → e.mode ≠ .parent → Holds e → x.phase = .stopping →
      (x.requestedAt + 2 ^ 20 ≤ (coreAt s (x.cores.headD 0)).cycle →
        Takes (.preemptionHoldOverrun gid e.id) s fun t => t.teams = s.teams ∧ aside t = aside s ∧
          (∀ j, j ≠ gid → tget t.groups j = tget s.groups j) ∧
          ∃ h, tget t.groups gid = some h ∧ { h with stack := g.stack } = g ∧
            h.stack = g.stack.map fun f => if f = e then { e with pend := e.pend ++ [{ code := 0x28#8 }], stall := 0 } else f) ∧
      ((coreAt s (x.cores.headD 0)).cycle < x.requestedAt + 2 ^ 20 → exec (.preemptionHoldOverrun gid e.id) s = .next s)) ∧
    (tget s.teams k = some x → x.mate = none → x.trailing = false → x.force = none → x.phase = .stopping →
      (TeamHolds s k → exec (.saveComplete k) s = .next s) ∧
      (¬TeamHolds s k → Takes (.saveComplete k) s fun t => aside t = aside s ∧
        t.teams = tset s.teams k { x with phase := .saving } ∧
        ∀ j g, tget s.groups j = some g → ∃ h, tget t.groups j = some h ∧
          { h with fuse := none, fuseCode := none } = { g with fuse := none, fuseCode := none })) ∧
    (tget s.teams k = some x → x.mate = none → x.trailing = false → x.force = none → x.phase = .saving → x.arrivals = [] →
      (∃ g ∈ s.groups, g.2.owner = .team k ∧ g.2.ended = false) → (∀ o ∈ s.outs, o.2.owner ≠ .team k) →
      (∀ w ∈ s.writeBacks, .team k ∉ w.2.owners) → (∀ b ∈ s.btes, b.2.requests = []) →
      (∀ c ∈ s.cores, (∀ d ∈ c.2.dirty, .team k ∉ d.owners) ∧ ∀ m ∈ c.2.mxQueue, ∀ g ∈ s.groups,
        g.1 = m.2.gid → g.2.owner ≠ .team k) →
      (FarAsked s k → exec (.saveComplete k) s = .next s) ∧
      (¬FarAsked s k → Takes (.saveComplete k) s fun t => t.groups = s.groups ∧
        (∀ j, j ≠ k → tget t.teams j = tget s.teams j) ∧ (∃ y, tget t.teams k = some y ∧ OnlySaved s x y ∧
          ((∀ c ∈ s.copies, c.2.team ≠ k) → y.share = x.share ∧ y.sharePoison = x.sharePoison)) ∧
        (∀ g ∈ t.groups, g.2.owner = .team k → ∀ b ∈ g.2.rowBlocks, ∀ y, tget t.rowBlocks b = some y → 196 ≤ y.core) ∧
        noSave t = noSave s ∧
        ((∀ c ∈ s.copies, c.2.team ≠ k) → t.copies = s.copies ∧ t.mem = (saveMatrix (saveRecord s k) k).mem ∧
          (recordOk s k = false → t.mem = s.mem ∧ t.poison = s.poison)))) ∧
    (∀ n since seq l, n < 64 → oldestUnplaced s n = some (seq, l) → tryNext s seq = none →
      (seq, nextNum s seq, since) ∈ (tgetD s.queues n {}).waits →
      (∀ w ∈ (tgetD s.queues n {}).waits, w.1 = seq → w.2.1 = nextNum s seq → w.2.2 = since) →
      (clockAt s Config.clockDist < since + 65536 → exec (.preemptionWaitExpiry n) s = .next s) ∧
      (since + 65536 ≤ clockAt s Config.clockDist →
        let may (j : Nat) (y : Team) : Prop := y.phase = .resident ∧ y.trailing = false ∧
          let m := tgetD s.launches y.launch {}
          recField l.record 180 2 < recField m.record 180 2 ∧ (tgetD s.queues m.queue {}).preok = true ∧
          m.record.getLsbD 184 = false ∧ (∀ c ∈ y.cores, l.record.getLsbD (768 + c) = true) ∧
          tryNext (vacated s j) seq ≠ none
        (∀ t ∈ s.teams, t.2.mate = none) → s.teams.Pairwise (fun a b => a.1 < b.1) →
        tget s.launches seq = some l →
        ((∀ t ∈ s.teams, ¬may t.1 t.2) → exec (.preemptionWaitExpiry n) s = .next s) ∧
        (Preemptible s k x → may k x →
          (∀ t ∈ s.teams, t.1 ≠ k → may t.1 t.2 →
            let c := recField (tgetD s.launches x.launch {}).record 180 2
            let c' := recField (tgetD s.launches t.2.launch {}).record 180 2
            c' < c ∨ c' = c ∧ t.2.placed < x.placed) →
          Takes (.preemptionWaitExpiry n) s fun t => Preempted s t k x ∧
            (seq, nextNum s seq, clockAt s Config.clockDist) ∈ (tgetD t.queues n {}).waits ∧
            ∀ w ∈ (tgetD t.queues n {}).waits, w.1 = seq → w.2.1 = nextNum s seq →
              w.2.2 = clockAt s Config.clockDist))) ∧
    (∀ g, g < 14 → s.testing = none → (∀ t ∈ s.teams, t.2.phase ≠ .saved → ∀ c ∈ t.2.cores, c / 14 ≠ g) →
      Takes (.inFieldTest g) s fun t => SameWork s t ∧ aside t = aside { s with testing := some g }) ∧
    (∀ g, g < 14 → s.testing = none → Preemptible s k x → (∃ c ∈ x.cores, c / 14 = g) →
      (∀ t ∈ s.teams, t.1 ≠ k → t.2.phase ≠ .saved → ∀ c ∈ t.2.cores, c / 14 ≠ g) →
      s.teams.Pairwise (fun a b => a.1 < b.1) →
      Takes (.inFieldTest g) s fun t => t.testing = some g ∧ Preempted s t k x) ∧
    (∀ g, s.testing = some g →
      ((∃ t ∈ s.teams, t.2.phase ≠ .saved ∧ ∃ c ∈ t.2.cores, c / 14 = g) → exec (.inFieldTestEnd g) s = .next s) ∧
      ((∀ t ∈ s.teams, t.2.phase ≠ .saved → ∀ c ∈ t.2.cores, c / 14 ≠ g) →
        Takes (.inFieldTestEnd g) s fun t => SameWork s t ∧ aside t = aside { s with testing := none }))

/-- TCINV_WRITE and TCINV_COMPLETE (R86, R87, R401). A write to TCINV starts an invalidation, or waits behind the one
in progress; the invalidation completes once what it awaits is done, and not before; then the next one queued starts,
and the paused posts of the context are retried.

Choices of the model in it: log 36. -/
def Obligations.Invalidations : Prop :=
  ∀ (s : State) (n : Nat), let c := tgetD s.contexts n {}
    (∀ v, n < 64 → c.running.isSome = true → Takes (.tcinvWrite n v) s fun t => SameWork s t ∧
      { aside t with contexts := [] } = { aside s with contexts := [] } ∧
      tget t.contexts n = some { c with queued := c.queued ++ [v] } ∧
      ∀ k, k ≠ n → tget t.contexts k = tget s.contexts k) ∧
    (∀ v, n < 64 → c.running = none → Takes (.tcinvWrite n v) s fun t => SameWork s t ∧ noContexts t = noContexts s ∧
      t.posts = s.posts ∧ InvalidationStarted s t n v c.queued) ∧
    (∀ r, c.running = some r → (r.walks ≠ [] ∨ r.outs ≠ [] ∨
      ∃ b ∈ s.btes, ∃ q ∈ b.2.requests, q.2.live = true ∧ (q.2.kind = 1 ∨ q.2.kind = 2) ∧
        (tgetD s.posts q.2.post {}).ctx = n) → Takes (.tcinvComplete n) s fun t => SameWork s t ∧ aside t = aside s) ∧
    ∀ r, c.running = some r → r.walks = [] → r.outs = [] →
      (∀ b ∈ s.btes, ∀ q ∈ b.2.requests, q.2.live = true → q.2.kind = 1 ∨ q.2.kind = 2 →
        (tgetD s.posts q.2.post {}).ctx ≠ n) →
      Takes (.tcinvComplete n) s fun t => SameWork s t ∧ noContexts t = noContexts s ∧
        (∀ k, tget t.posts k = (tget s.posts k).map fun p =>
          if p.ctx = n ∧ p.phase = .paused ∧ p.far = false then { p with phase := .queued } else p) ∧
        (c.queued = [] → t.cores = s.cores ∧ t.tlb2 = s.tlb2 ∧ t.walks = s.walks ∧
          tget t.contexts n = some { c with running := none } ∧ ∀ k, k ≠ n → tget t.contexts k = tget s.contexts k) ∧
        ∀ v rest, c.queued = v :: rest → InvalidationStarted s t n v rest

/-- COLLECTIVE_PACKET and REFUSED_COLLECTIVE_PACKET (R312, R321, R429), at a port in RUN. A packet of a newer view is
held, up to 64 per port, and goes back beyond that; one of an older view, or of a device that is no member, is
discarded; a payload enters its instance, but for one that has completed, once the last of its packets has come, in
whatever order. A packet that came back is sent again unless this device has accepted a proposal.

COLLECTIVE_INSTANCE_COMPLETE (R320, R323 to R325, R430). Where the members' posts differ, also in the view each named,
this member's finishes with status 3 and writes nothing. Where every member's rows are there, the destination rows of
R324 are written with the result of the fixed tree, and the post finishes with status 0, or with 1 after a restart
that is not re-weighted; where rank 0 of the old view passed the final result on, that is written, with status 0. A
destination that does not translate pauses the post.

Choices of the model in it: log 42. -/
def Obligations.Collectives : Prop :=
  (
    ∀ (s : State) (port : Nat) (m : CollMsg),
      let q := tgetD s.ports port {}
      let ahead := (m.view + 2 ^ 16 - curView s % 2 ^ 16) % 2 ^ 16
      let newer := 0 < ahead ∧ ahead < 2 ^ 15
      let mine := m.view = curView s ∧ m.dev ∈ members s ∧ m.dev ≠ devNo s
      let key := m.ctx * 2 ^ 40 + m.inst
      let c := tgetD s.collectives key {}
      (q.state ≠ 3 → exec (.collectivePacket port m) s = .next s) ∧
      (q.state = 3 → newer → q.heldPackets.length < 64 → Takes (.collectivePacket port m) s fun t => SameWork s t ∧
        { aside t with ports := [] } = { aside s with ports := [] } ∧
        tget t.ports port = some { q with heldPackets := q.heldPackets ++ [m] } ∧
        ∀ k, k ≠ port → tget t.ports k = tget s.ports k) ∧
      (q.state = 3 → newer → 64 ≤ q.heldPackets.length → Takes (.collectivePacket port m) s fun t => SameWork s t ∧
        noNetwork t = noNetwork s ∧
        t.outbox = s.outbox ++ [{ kind := .refused, dev := m.dev, nums := [m.ctx, m.inst, m.view] }]) ∧
      (q.state = 3 → ¬newer → (¬mine ∨ c.done = true) → Takes (.collectivePacket port m) s fun t =>
        SameWork s t ∧ aside t = aside s) ∧
      (q.state = 3 → ¬newer → mine → c.done = false →
        let same (x : CollMsg) : Bool := m.dev == x.dev && m.result == x.result
        let got := c.pieces.filter same ++ [m]
        let bytes := (got.map fun x => x.data.length).sum
        Takes (.collectivePacket port m) s fun t => SameWork s t ∧
          { aside t with collectives := [] } = { aside s with collectives := [] } ∧
          (∀ k, k ≠ key → tget t.collectives k = tget s.collectives k) ∧
          (∀ l, m.size = l.length → bytes = l.length → (got = [m] ∨ ∀ x ∈ got, x.data ≠ []) →
            (∀ x ∈ got, x.data = (l.drop x.off).take x.data.length) →
            got.Pairwise (fun x y => x.off + x.data.length ≤ y.off ∨ y.off + y.data.length ≤ x.off) →
            let d := { c with pieces := c.pieces.filter fun x => !same x }
            tget t.collectives key = some (if m.result then { d with result := some l }
              else { d with parts := tset d.parts m.dev { m with off := 0, data := l } })) ∧
          (bytes < m.size → got.Pairwise (fun x y => x.off ≠ y.off) →
            ∃ y, tget t.collectives key = some { c with pieces := y } ∧ ∀ x, x ∈ y ↔ x ∈ c.pieces ∨ x = m)) ∧
      ∀ (g k : Nat) (p : Packet), Linked s → s.outbox[k]? = some p → p.kind = .collective →
        ¬(s.fabric.agreement.answered = true ∧ s.fabric.agreement.proposal ≠ none) →
        Takes (.refusedCollectivePacket g k) s fun t => SameWork s t ∧ noNetwork t = noNetwork s ∧ t.outbox = s.outbox ++ [p]) ∧
  (
    ∀ (s : State) (ctx k : Nat) (c : Collective) (p : Post),
      let key := ctx * 2 ^ 40 + k
      let u := tRowb p.bits
      let e := max 1 (fmtBits (tFmt p.bits) / 8)
      let ms := members s
      let differs (m : CollMsg) : Prop := m.kind ≠ tKind p.bits ∨ m.op ≠ tOp p.bits ∨ m.fmt ≠ tFmt p.bits ∨
        m.rowBytes ≠ u ∨ m.rows ≠ p.count ∨ m.named ≠ p.named
      let first := if tKind p.bits = 6 ∨ tKind p.bits = 9 then p.first else 0
      let dst (l : List Byte) := unitPieces u (fun r => tDst p.bits + (first + r) * tDstride p.bits) 0 l.length
      let whole := p.sent = u * p.count ∧ ∀ d ∈ ms, ∃ m, tget c.parts d = some m ∧ ¬differs m ∧
        (tKind p.bits = 6 ∨ tKind p.bits = 7 → m.data.length = u * p.count)
      let rows := ms.map fun d => (tgetD c.parts d {}).data
      let made := ruleCollective (tKind p.bits) (tOp p.bits) (tFmt p.bits) u p.count (rankOf ms (tDev p.bits)) rows
        (rankOf ms (devNo s))
      let done (l : List Byte) (st : Nat) : Prop :=
        (∀ ds, transPieces s (.hub p.cluster) p.ctx 1 (dst l) = .ok ds → Takes (.collectiveInstanceComplete ctx k) s fun t =>
          t.mem = ruleSegs ds l s.mem ∧
          { noPosts t with mem := [], poison := [], collectives := [], tlb2 := [] } =
            { noPosts s with mem := [], poison := [], collectives := [], tlb2 := [] } ∧
          t.collectives = tset s.collectives key { c with done := true } ∧
          (tget t.posts c.post).map (fun q => (q.delivered, q.status, q.phase)) = some (l.length, some st, .finished) ∧
          (∀ j, j ≠ c.post → tget t.posts j = tget s.posts j) ∧
          (tgtV (tTsr p.bits) = false → t.groups = s.groups ∧ (PostsSeated s → t.teams = s.teams))) ∧
        ∀ va code, transPieces s (.hub p.cluster) p.ctx 1 (dst l) = .error (va, code) → Takes (.collectiveInstanceComplete ctx k) s fun t =>
          t.groups = s.groups ∧ t.collectives = s.collectives ∧
          (tget t.posts c.post).map (fun q => (q.delivered, q.status, q.phase)) = some (p.delivered, none, .paused)
      tget s.collectives key = some c → tget s.posts c.post = some p → p.phase = .queued → p.status = none →
      c.done = false → p.view = curView s → 6 ≤ tKind p.bits → tKind p.bits ≤ 9 →
      (tKind p.bits = 6 ∨ tKind p.bits = 7 → ruleCombines (tOp p.bits) (tFmt p.bits)) →
      ((∃ m ∈ c.parts, differs m.2) → Takes (.collectiveInstanceComplete ctx k) s fun t => t.groups = s.groups ∧
        (PostsSeated s → t.teams = s.teams) ∧
        noPosts t = noPosts s ∧
        (tget t.posts c.post).map (fun q => (q.delivered, q.status, q.phase)) = some (p.delivered, some 3, .finished)) ∧
      ((∀ m ∈ c.parts, ¬differs m.2) →
        (∀ l, c.result = some l → done l 0) ∧
        (c.result = none → whole → e ∣ u → (c.restarted = false ∨ tRwt p.bits = false) →
          done made (if c.restarted = true then 1 else 0)) ∧
        (c.result = none → whole → e ∣ u → c.restarted = true → tRwt p.bits = true →
          done ((List.range (made.length / e)).flatMap fun i =>
            leBytes (reweigh (tFmt p.bits) c.pFirst ms.length (leNat ((made.drop (e * i)).take e))) e) 0)))

/-- Links (R422 to R424). A good block is acknowledged, and the packets that end in it are tentative until a marker
comes for each; a bad one is refused, and the eighth in a row takes the link down. An acknowledged block is done and
full ones are closed; a refused one and every later block of the channel are sent again, and the eighth refusal in a
row takes the link down. An open block closes after 128 cycles; a silent port in RUN sends an idle flit; a confirmed
or cancelled packet is tentative no more; and 65,536 cycles without a flit take the link down. A packet on its way
through this device goes out on the port that its route takes next, or its source is told that it was discarded (R311,
R424).

Choices of the model in it: log 52. -/
def Obligations.LinkBlocks : Prop :=
  ∀ (s : State) (port vc : Nat),
    let p := tgetD s.ports port {}
    let c := tgetD p.channels vc {}
    let now := tgetD s.clocks (Config.clockPort port) 0
    let with_ (q : Port) (c : Channel) : Port := { q with channels := tset p.channels vc c }
    port < 32 → vc < 3 → p.state ≠ 4 →
    (∀ flits pkts, 0 < flits → flits ≤ 16 →
      let ids := (List.range pkts).map (s.nextId + ·)
      Takes (.flitBlockReceive port vc flits pkts true) s (fun t =>
        OnlyPort s t port (with_ { p with lastRx := now } { c with rxFails := 0, rxTentative := c.rxTentative ++ ids }) ∧
        t.nextId = s.nextId + pkts ∧
        t.outbox = s.outbox ++ { kind := .blockAck, dev := port, nums := [vc] } ::
          ids.map fun k => { kind := .marker, dev := port, nums := [1, k] }) ∧
      let q := with_ { p with lastRx := now, retries := p.retries + 1 } { c with rxFails := c.rxFails + 1 }
      let nak : List Packet := [{ kind := .blockNak, dev := port, nums := [vc] }]
      (c.rxFails < 7 → Takes (.flitBlockReceive port vc flits pkts false) s fun t =>
        OnlyPort s t port q ∧ t.nextId = s.nextId ∧ t.outbox = s.outbox ++ nak) ∧
      (7 ≤ c.rxFails → Takes (.flitBlockReceive port vc flits pkts false) s fun t => LinkFails s t port 2 q nak)) ∧
    (∀ b rest, c.blocks = b :: rest →
      (Takes (.blockAck port vc) s fun t => t.outbox = s.outbox ∧ t.nextId = s.nextId ∧
        OnlyPort s t port (with_ p
          (closeFull c.flits.length (33 - openBlocks p) { c with blocks := rest, fails := 0 }))) ∧
      let q := with_ { p with retries := p.retries + 1, lastTx := now } { c with fails := c.fails + 1 }
      (c.fails < 7 → Takes (.blockNak port vc) s fun t => OnlyPort s t port q ∧ t.nextId = s.nextId ∧
        t.outbox = s.outbox ++ (List.range c.blocks.length).map fun k => { kind := .block, dev := port, nums := [vc, k] }) ∧
      (7 ≤ c.fails → Takes (.blockNak port vc) s fun t => LinkFails s t port 2 q [])) ∧
    (c.flits ≠ [] → openBlocks p < 32 → c.lastFlit + 128 ≤ now → Takes (.blockCloseTimer port vc) s fun t =>
      t.outbox = s.outbox ∧ t.nextId = s.nextId ∧
      OnlyPort s t port (with_ { p with lastTx := now }
        { c with flits := c.flits.drop 16, blocks := c.blocks ++ [c.flits.take 16] })) ∧
    (p.state = 3 → p.lastTx + 4096 ≤ now → (∀ c ∈ p.channels, c.2.flits = []) →
      Takes (.idleFlitTimer port) s fun t => OnlyPort s t port { p with lastTx := now } ∧ t.nextId = s.nextId ∧
        t.outbox = s.outbox ++ [{ kind := .idle, dev := port }]) ∧
    (∀ pkt, (∃ c ∈ p.channels, pkt ∈ c.2.rxTentative) →
      let cs := p.channels.map fun c => (c.1, { c.2 with rxTentative := c.2.rxTentative.filter (· ≠ pkt) })
      (Takes (.confirmMarker port pkt) s fun t => OnlyPort s t port { p with channels := cs } ∧ t.nextId = s.nextId ∧
        t.outbox = s.outbox) ∧
      Takes (.cancelMarker port pkt) s fun t => t.nextId = s.nextId ∧
        OnlyPort s t port { p with channels := cs, retries := p.retries + 1 } ∧
        t.outbox = s.outbox ++ [{ kind := .marker, dev := port, nums := [0, pkt] }]) ∧
    (p.state = 3 → p.lastRx + 65536 ≤ now → Takes (.linkSilenceTimeout port) s fun t => LinkFails s t port 6 p []) ∧
    (∀ src dev flits, s.boot.powered = true → port < 31 → vc < 2 → 0 < flits → flits ≤ 33 → devNo s ≠ dev → dev < 256 →
      p.state = 3 →
      let me := devNo s
      let row := (dev % 16 + 16 - me % 16) % 16
      let col := (dev / 16 + 16 - me / 16) % 16
      let k := if port < 15 then (if col ≠ 0 then 15 + col else row - 1) else if row ≠ 0 then row - 1 else 15 + col
      let x : Packet := { kind := .forwarded, dev := dev, nums := [src, vc] }
      ∃ t, runTurn (.forward port src dev vc flits) s = .next t ∧ SameWork s t ∧ noNetwork t = noNetwork s ∧
        ((tgetD s.ports k {}).state = 3 → t.outbox = s.outbox ++ [x]) ∧
        ((tgetD s.ports k {}).state ≠ 3 →
          t.outbox = s.outbox ++ [{ kind := .discardNotice, dev := src, nums := [dev] }]))

/-- Lost devices and joins (R427, R428, R434, R435): a fatal report, a REJECT and an answer that is late lose a
device, and so do the reports of every member of its row and column that their links to it are down; a member that
waits in a join is asked again; and a device that asks to join is proposed once no proposal is open.

The rounds of a proposal, and the registers that install a view (R309, R428, R429, R435). A member answers the next
view's proposal: REJECT where it knows a device of it to be lost, WAIT to a join while it has unfinished collective
posts, else ACCEPT; the last ACCEPT commits the view where it is a majority; COMMIT installs it. A write to VIEWNUM
installs the staged map but in the three cases of R309; a write to FRPOS is ignored while a port is LOCKED or RUN.
With no port in RUN no packet of another device arrives (R312), and with no firmware running no register is written
(R331).

Choices of the model in it: log 53. -/
def Obligations.DevicesLostAndViews : Prop :=
  (
    ∀ (s : State) (d : Nat),
      let a := s.fabric.agreement
      let me := devNo s
      let now := tgetD s.clocks Config.clockView 0
      (¬Linked s → ∀ x m, exec (.fatalReport d) s = .next s ∧ exec (.linkDownReport d x) s = .next s ∧
        exec (.reject d x) s = .next s ∧ exec (.wait d) s = .next s ∧ exec (.join d) s = .next s ∧
        exec (.accept d) s = .next s ∧ exec (.propose m) s = .next s ∧ exec (.commit m) s = .next s) ∧
      (Linked s → Takes (.fatalReport d) s fun t => DeviceLost s t d) ∧
      (∀ peer, Linked s → s.fabric.viewSet = true → d ∈ members s →
        let downs := if (d, peer) ∈ a.downs then a.downs else a.downs ++ [(d, peer)]
        let near := (survivors s).filter fun x => x ≠ peer ∧ (x / 16 = peer / 16 ∨ x % 16 = peer % 16)
        let s1 := { s with fabric := { s.fabric with agreement := { a with downs := downs } } }
        (near ≠ [] ∧ (∀ x ∈ near, (x, peer) ∈ downs) → Takes (.linkDownReport d peer) s fun t => DeviceLost s1 t peer) ∧
        (¬(near ≠ [] ∧ ∀ x ∈ near, (x, peer) ∈ downs) → Takes (.linkDownReport d peer) s fun t =>
          Answers s t [] { a with downs := downs })) ∧
      (∀ m, a.proposal = some m → a.mine = true → m.map.getLsbD d = true →
        (∀ lost, Linked s → Takes (.reject d lost) s fun t => DeviceLost s t lost) ∧
        (m.joining = true → Linked s → Takes (.wait d) s fun t => Answers s t [] { a with waiting := sadd1 a.waiting d }) ∧
        (d ∉ a.accepted → a.since + 2 ^ 20 ≤ now →
          (m.joining = false → Takes (.proposeAnswerTimeout d) s fun t => DeviceLost s t d) ∧
          (m.joining = true → d ∈ a.waiting → Takes (.proposeAnswerTimeout d) s fun t =>
            Answers s t [viewPacket .propose m d] { a with since := now }))) ∧
      (Linked s → s.fabric.viewSet = true → a.outside = false → (survivors s).head? = some me → d ∉ members s → d < 256 →
        (a.proposal ≠ none → Takes (.join d) s fun t => Answers s t [] { a with joiners := sadd1 a.joiners d }) ∧
        (a.proposal = none → (∀ x ∈ members s, x ∉ a.lost) → a.joiners = [] →
          let m : ViewMsg := { dev := me, num := ruleNext s, map := mapOf (members s ++ [d]), joining := true }
          Takes (.join d) s fun t => Answers s t (((mapList m.map).filter (· ≠ me)).map (viewPacket .propose m))
            { a with joiners := [d], proposal := some m, mine := true, waiting := [], since := now
                     accepted := if collUnfinished s then [] else [me]
                     answered := !collUnfinished s, owesAccept := collUnfinished s }))) ∧
  (
    ∀ (s : State),
      let a := s.fabric.agreement
      let me := devNo s
      let inside := s.fabric.viewSet = true ∧ a.outside = false
      (∀ m, Linked s → m.dev ≠ me → m.map.getLsbD me = true →
        (inside → m.dev ∈ members s ∧ m.num = ruleNext s ∧ ∀ d ∈ members s, d < m.dev → m.map.getLsbD d = false) →
        (¬inside → m.joining = true) →
        let known := a.lost.filter fun d => m.map.getLsbD d ∧ d ∈ members s
        let taken := { a with proposal := some m, mine := false }
        (∀ d r, known = d :: r →
          Takes (.propose m) s fun t => Answers s t [{ viewPacket .reject m m.dev with nums := [d] }] a) ∧
        (known = [] → inside → ¬Majority s m.map → Takes (.propose m) s fun t => SameButHeld s t ∧ noFabric t = noFabric s ∧
          t.outbox = s.outbox ++ [viewPacket .accept m m.dev] ∧ t.fabric.agreement.outside = true ∧
          t.fabric.agreement.proposal = none ∧ ∀ k p, tget t.posts k = some p → 6 ≤ tKind p.bits →
            tKind p.bits ≤ 9 → p.phase ≠ .waiting → p.status ≠ none) ∧
        (known = [] → (inside → Majority s m.map) →
          (m.joining = true ∧ collUnfinished s = true → Takes (.propose m) s fun t =>
            Answers s t [viewPacket .wait m m.dev] { taken with answered := false, owesAccept := true }) ∧
          (¬(m.joining = true ∧ collUnfinished s = true) → Takes (.propose m) s fun t =>
            Answers s t [viewPacket .accept m m.dev] { taken with answered := true, owesAccept := false }))) ∧
      (∀ d m, Linked s → a.proposal = some m → a.mine = true → m.map.getLsbD d = true →
        let all := (∀ x < 256, m.map.getLsbD x = true → x = d ∨ x ∈ a.accepted) ∧ Majority s m.map
        (¬all → Takes (.accept d) s fun t => Answers s t []
          { a with accepted := sadd1 a.accepted d, waiting := a.waiting.filter (· ≠ d) }) ∧
        (all → (∀ x ∈ a.lost, m.map.getLsbD x = false) → (∀ x ∈ a.joiners, x < 256) → Takes (.accept d) s fun t =>
          SameButHeld s t ∧ noFabric t = noFabric s ∧ Installed s t m ∧
          ∃ more, t.outbox = s.outbox ++ ((mapList m.map).filter (· ≠ me)).map (viewPacket .commit m) ++ more)) ∧
      (∀ p m, Linked s → a.proposal = some p → a.mine = false → a.answered = true → p.num = m.num → p.map = m.map → p.dev = m.dev →
        (∀ x ∈ a.lost, m.map.getLsbD x = false) → (∀ x ∈ a.joiners, x < 256) →
        Takes (.commit m) s fun t => SameButHeld s t ∧ noFabric t = noFabric s ∧ Installed s t m) ∧
      (∀ v : Word, s.boot.stage ≠ 3 → exec (.viewnumWrite v) s = .next s ∧ exec (.frposWrite v) s = .next s) ∧
      (∀ v : Word, s.boot.stage = 3 →
        let num := v.toNat % 2 ^ 16
        let word (k : Nat) : Word := tgetD s.fabric.staged (k / 64) 0#64
        let stands := (word me).getLsbD (me % 64) = false ∨ num = 0xFFFF ∨ ∃ p ∈ s.posts, 6 ≤ tKind p.2.bits ∧
          tKind p.2.bits ≤ 9 ∧ p.2.phase ≠ .waiting ∧ p.2.status = none
        (stands → Takes (.viewnumWrite v) s fun t => SameWork s t ∧ aside t = aside s) ∧
        (¬stands → Takes (.viewnumWrite v) s fun t => SameWork s t ∧ noFabric t = noFabric s ∧
          t.fabric.viewSet = true ∧ t.fabric.viewNum = num ∧
          (∀ k, k < 256 → t.fabric.viewMap.getLsbD k = (word k).getLsbD (k % 64)) ∧ t.fabric.staged = s.fabric.staged ∧
          t.fabric.agreement.outside = false ∧ t.fabric.agreement.proposal = none) ∧
        ((∃ p ∈ s.ports, p.2.state = 2 ∨ p.2.state = 3) →
          Takes (.frposWrite v) s fun t => SameWork s t ∧ aside t = aside s) ∧
        ((∀ p ∈ s.ports, p.2.state ≠ 2 ∧ p.2.state ≠ 3) → Takes (.frposWrite v) s fun t => SameWork s t ∧
          aside t = aside { s with fabric := { s.fabric with frpos := v &&& 0xFF#64 } })))

/-- HOST_CONTROL_ACCESS (R332 to R336, R345): a refused access changes nothing and is answered with error status, a
read with all ones; a granted DRAM access reads or writes the eight bytes; a granted read of the control window
answers the register; a granted write does what the management core's does; an UNLOCKED port's writes claim the boot,
start it, and fill the staging block, and those of another port than the owner are refused; and a granted control
access to another device goes out over the fabric, is performed there, and its answer comes back.

REGISTER_WRITE (R12, R50 to R53, R86, R309, R333, R335, R343, R344, R367): the management core writes the registers of
a launch queue, a translation context, the fabric and a port, each as the step of that register's own event does,
BOOTLEN and the staging block, and the debug registers of a core; a reserved offset takes no write.

Choices of the model in it: log 57, 69, 70. -/
def Obligations.RegistersAndHost : Prop :=
  (
    ∀ (s : State) (port addr size : Nat) (v : Word), port < 32 → s.boot.stage ≠ 0 →
      let p := tgetD s.ports port {}
      let answer (status r : Nat) : Packet := { kind := .hostAnswer, dev := port, nums := [status, addr, r] }
      let replies (s1 t : State) (status r : Nat) : Prop := t.groups = s1.groups ∧ t.teams = s1.teams ∧
        t.outbox = s.outbox ++ [answer status r] ∧ { aside t with outbox := [] } = { aside s1 with outbox := [] }
      let access (dram write : Bool) : Instr :=
        .hostControlAccess { port := port, dev := devNo s, size := size } dram write addr v
      (∀ dram write, HostRefused s port dram write size addr → Takes (access dram write) s fun t =>
        replies s t 1 (if write then 0 else 2 ^ 64 - 1)) ∧
      (¬HostRefused s port true false size addr → Takes (access true false) s fun t =>
        replies s t 0 (leNat (mread s.mem addr 8))) ∧
      (¬HostRefused s port true true size addr → Takes (access true true) s fun t =>
        replies { s with mem := t.mem, poison := t.poison } t 0 0 ∧ t.mem = mwrite s.mem addr (leBytes v.toNat 8)) ∧
      (∀ off, WindowSound s → addr = off → ¬HostRefused s port false false size addr →
        (off < 0x20 ∨ 0x10000 ≤ off ∧ off < 0x11000 ∨ 0x20000 ≤ off ∧ off < 0x20800 ∨ 0x30000 ≤ off ∧ off < 0x30040 ∨
          0x50000 ≤ off ∧ off < 0x50100 ∨ 0x1000000 ≤ off ∧ off < 0x2000000) → Takes (access false false) s fun t =>
        replies s t 0 (ruleWindow s off)) ∧
      (p.state = 3 → s.boot.stage = 3 → ¬HostRefused s port false true size addr →
        (0x10000 ≤ addr ∧ addr < 0x11000 ∨ 0x20000 ≤ addr ∧ addr < 0x20800 ∨ 0x30000 ≤ addr ∧ addr < 0x30040) →
        ∃ t1, exec (.registerWrite addr v) s = .next t1 ∧
          Takes (access false true) s fun t => { t with outbox := t1.outbox } = t1 ∧
            t.outbox = t1.outbox ++ [answer 0 0]) ∧
      (p.state = 0 → size = 8 →
        let boots (b : Boot) (t : State) : Prop := replies { s with boot := b } t 0 0
        let free := ∀ w, s.boot.owner = some w → w = port
        (s.boot.stage = 1 → s.boot.owner = none → addr = 0x10 → v = 1#64 → Takes (access false true) s
          (boots { s.boot with owner := some port })) ∧
        (s.boot.stage = 1 → s.boot.owner = some port → addr = 0x10 → v = 2#64 → Takes (access false true) s
          (boots { s.boot with stage := 2 })) ∧
        (∀ w, s.boot.owner = some w → w ≠ port → addr = 0x10 →
          (v = 1#64 → Takes (access false true) s fun t => replies s t 0 0) ∧
          (v = 2#64 → Takes (access false true) s fun t => replies s t 1 0)) ∧
        (free → addr = 0x18 → Takes (access false true) s (boots { s.boot with length := v.toNat % 2 ^ 24 })) ∧
        (free → addr % 8 = 0 → 0x1000000 ≤ addr → addr < 0x2000000 →
          Takes (access false true) s
            (boots { s.boot with staging := mwrite s.boot.staging (addr - 0x1000000) (leBytes v.toNat 8) })))) ∧
  (
    ∀ (s : State) (port dev addr : Nat) (write : Bool) (v : Word), port < 32 → s.boot.stage ≠ 0 →
      (tgetD s.ports port {}).state = 3 →
      let out (m : HostMove) : Instr := .hostControlAccess { port := port, move := m, dev := dev } false write addr v
      let asked : Packet := { kind := .hostRelay, dev := dev, nums := [devNo s, port, if write then 1 else 0, addr, v.toNat] }
      let answered (u t : State) (status r : Nat) : Prop := SameWork u t ∧ noNetwork t = noNetwork u ∧
        t.outbox = u.outbox ++ [{ kind := .hostRelayAnswer, dev := dev, nums := [7, status, addr, r] }]
      let window := 0x10000 ≤ addr ∧ addr < 0x11000 ∨ 0x20000 ≤ addr ∧ addr < 0x20800 ∨ 0x30000 ≤ addr ∧ addr < 0x30040
      (dev ≠ devNo s → ¬HostRefused s port false write 8 addr → window → Takes (out .direct) s fun t =>
        SameWork s t ∧ noNetwork t = noNetwork s ∧ t.outbox = s.outbox ++ [asked]) ∧
      (dev ≠ devNo s → HostRefused s port false write 8 addr → Takes (out .direct) s fun t =>
        SameWork s t ∧ noNetwork t = noNetwork s ∧ t.outbox = s.outbox ++
          [{ kind := .hostAnswer, dev := port, nums := [1, addr, if write then 0 else 2 ^ 64 - 1] }]) ∧
      (addr % 8 = 0 → window → write = false → WindowSound s →
        Takes (out (.relayed dev 7)) s (answered s · 0 (ruleWindow s addr))) ∧
      (addr % 8 = 0 → window → write = true → s.boot.stage = 3 → ∃ u, exec (.registerWrite addr v) s = .next u ∧
        Takes (out (.relayed dev 7)) s (answered { u with progress := s.progress } · 0 0)) ∧
      (0x50100 ≤ addr → addr < 0x1000000 → Takes (out (.relayed dev 7)) s
        (answered s · 1 (if write then 0 else 2 ^ 64 - 1))) ∧
      ∀ host status, Takes (out (.answered host status)) s fun t =>
        SameWork s t ∧ noNetwork t = noNetwork s ∧
          t.outbox = s.outbox ++ [{ kind := .hostAnswer, dev := host, nums := [status, addr, v.toNat] }]) ∧
  (
    ∀ (s : State) (n : Nat) (v : Word), s.boot.stage = 3 → n < 64 →
      let queue (o : Nat) : Instr := .registerWrite (0x10000 + 0x40 * n + o) v
      let q := tgetD s.queues n {}
      let context (o : Nat) : Instr := .registerWrite (0x20000 + 0x20 * n + o) v
      let c := tgetD s.contexts n {}
      let only (d : Context) (t : State) : Prop := SameWork s t ∧
        { aside t with contexts := [] } = { aside s with contexts := [] } ∧ tget t.contexts n = some d ∧
        ∀ k, k ≠ n → tget t.contexts k = tget s.contexts k
      let fabric (f : Fabric) (t : State) : Prop := SameWork s t ∧ aside t = aside { s with fabric := f }
      let port (o : Nat) (w : Word) : Instr := .registerWrite (0x40000 + 0x40 * (n % 32) + o) w
      Takes (queue 0x00) s (OnlyQueue s · n (if q.en then q else { q with base := v &&& 0x01FFFFFFFFFFF000#64 })) ∧
      Takes (queue 0x10) s (OnlyQueue s · n (ruleTail v q)) ∧
      Takes (queue 0x18) s (OnlyQueue s · n (ruleControl v q)) ∧
      (v.getLsbD 0 = true → Takes (queue 0x20) s (OnlyQueue s · n { q with code := 0 })) ∧
      Takes (queue 0x28) s (OnlyQueue s · n { q with quant := v.toNat % 2 ^ 32 }) ∧
      Takes (context 0x00) s (only { c with root := v &&& 0x000FFFFFFFFFF000#64 }) ∧
      Takes (context 0x08) s (only { c with vlt := v &&& 0xFFFF#64 }) ∧
      Takes (context 0x10) s (only { c with en := v.getLsbD 0 }) ∧
      SameAs (context 0x18) (.tcinvWrite n v) s ∧
      SameAs (.registerWrite 0x30000 v) (.frposWrite v) s ∧
      SameAs (.registerWrite 0x30010 v) (.viewnumWrite v) s ∧
      Takes (.registerWrite 0x30008 v) s (fabric { s.fabric with frshape := v &&& 0xFF#64 }) ∧
      (∀ k, k < 4 → Takes (.registerWrite (0x30018 + 8 * k) v) s
        (fabric { s.fabric with staged := tset s.fabric.staged k v })) ∧
      SameAs (port 0x08 v) (.portConfigWrite (n % 32) 0 v) s ∧ SameAs (port 0x10 v) (.portConfigWrite (n % 32) 1 v) s ∧
      SameAs (port 0x18 1#64) (.config (n % 32)) s ∧ SameAs (port 0x18 2#64) (.lock (n % 32)) s ∧
      SameAs (port 0x18 3#64) (.start (n % 32)) s ∧ SameAs (port 0x18 4#64) (.stop (n % 32)) s ∧
      SameAs (port 0x18 5#64) (.reset (n % 32)) s ∧
      Takes (.registerWrite 0x18 v) s (OnlyBoot s · { s.boot with length := v.toNat % 2 ^ 24 }) ∧
      Takes (.registerWrite (0x1000000 + 8 * n) v) s
        (OnlyBoot s · { s.boot with staging := mwrite s.boot.staging (8 * n) (leBytes v.toNat 8) }) ∧
      (∀ o, o ∈ [0x30038, 0x40000 + 0x40 * (n % 32), 0x50000 + 8 * (n % 32), 0x60000, 0x10008 + 0x40 * n] →
        Takes (.registerWrite o v) s fun t => SameWork s t ∧ aside t = aside s) ∧
      ∀ core o, core < 196 → o < 0x1000 → o % 8 = 0 →
        let w : Instr := .registerWrite (0x10000000 + 0x1000 * core + o) v
        let stands := ruleDebug o = none ∨ 0x100 ≤ o ∧ o < 0x180 ∧ o % 32 = 8 ∧ 13 ≤ v.toNat / 2 ^ 4 % 2 ^ 4
        (stands → Takes w s fun t => SameWork s t ∧ aside t = aside s) ∧
        (∀ m, ruleDebug o = some m → ¬stands → Takes w s fun t => SameWork s t ∧
          { aside t with cores := [] } = { aside s with cores := [] } ∧ (∀ k, k ≠ core → coreAt t k = coreAt s k) ∧
          coreAt t core = { coreAt s core with debug := tset (coreAt s core).debug o (v &&& BitVec.ofNat 64 m) }))

/-- CONFIG, LOCK, START, STOP, RESET and PORT_CONFIG_WRITE (R343, R344, R346, R436): a port changes its state as the
table of R344 has it, LOCK installs the session's keys and RESET zeroises them, a command that the table does not list
for its state is ignored, and a write to the configuration of a LOCKED or RUN port is not applied and takes it to
ERROR. The management core's accesses to DRAM reach all of it but the ranges of LOCKED and RUN ports. -/
def Obligations.PortLocks : Prop :=
  ∀ (s : State) (port : Nat), port < 32 →
    let p := tgetD s.ports port {}
    let now := tgetD s.clocks (Config.clockPort port) 0
    let stays (i : Instr) : Prop := Takes i s fun t => SameWork s t ∧ aside t = aside s
    let becomes (i : Instr) (q : Port) : Prop := Takes i s (OnlyThisPort s · port q)
    (s.boot.stage = 3 →
      (p.state = 0 → becomes (.config port) { p with state := 1 }) ∧ (p.state ≠ 0 → stays (.config port)) ∧
      (p.state = 1 → p.session.established = true →
        becomes (.lock port) { p with state := 2, keys := some p.session.secret }) ∧
      (p.state ≠ 1 ∨ p.session.established = false → stays (.lock port)) ∧
      (p.state = 2 → Takes (.start port) s fun t =>
        OnlyThisPort s { t with fabric := s.fabric } port { p with state := 3, lastRx := now, lastTx := now } ∧
        t.fabric = { s.fabric with agreement := { s.fabric.agreement with
          downs := s.fabric.agreement.downs.filter (· ≠ (devNo s, p.cfg.toNat / 2 ^ 8 % 2 ^ 8)) } }) ∧
      (p.state ≠ 2 → stays (.start port)) ∧
      (p.state = 2 ∨ p.state = 3 → Takes (.stop port) s (PortStops s · port p 1)) ∧
      (p.state ≠ 2 → p.state ≠ 3 → stays (.stop port)) ∧
      (p.state = 1 → becomes (.reset port) { p with state := 0 }) ∧
      (p.state = 4 → becomes (.reset port) { p with state := 0, errc := 0, session := {}, keys := none }) ∧
      (p.state ≠ 1 → p.state ≠ 4 → stays (.reset port))) ∧
    ∀ (reg : Nat) (v : Word), reg < 2 → s.boot.stage = 3 →
      (p.state = 2 ∨ p.state = 3 → Takes (.portConfigWrite port reg v) s (PortStops s · port p 3)) ∧
      (p.state ≠ 2 → p.state ≠ 3 → becomes (.portConfigWrite port reg v)
        (if reg = 0 then { p with cfg := v &&& 0x000003FF03FFFF03#64 } else { p with qmask := v })) ∧
    ∀ (write : Bool) (addr : Nat) (v : Word), s.boot.powered = true → s.boot.stage = 3 → addr % 8 = 0 →
      addr + 8 ≤ Config.dramSize →
      let locked := ∃ q ∈ s.ports, (q.2.state = 2 ∨ q.2.state = 3) ∧ q.2.cfg.toNat / 2 ^ 16 % 2 ^ 10 * 2 ^ 30 < addr + 8 ∧
        addr < q.2.cfg.toNat / 2 ^ 32 % 2 ^ 10 * 2 ^ 30
      ∃ t, runTurn (.firmware write addr v) s = .next t ∧ SameWork s t ∧
        { aside t with mem := [], poison := [], mgmt := [] } = { aside s with mem := [], poison := [], mgmt := [] } ∧
        (locked → t.mem = s.mem ∧ t.mgmt = s.mgmt ++ [{ kind := 12, nums := [addr] }]) ∧
        (¬locked → write = true → t.mem = mwrite s.mem addr (leBytes v.toNat 8) ∧ t.mgmt = s.mgmt) ∧
        (¬locked → write = false → t.mem = s.mem ∧
          t.mgmt = s.mgmt ++ [{ kind := 11, nums := [addr, leNat (mread s.mem addr 8)] }])

/-- Power and the boot ROM (R331, R335 to R340, R347). At power-up every register takes its reset value, the ROM
extends MR0 and MR3, and, but for a revoked identity or spent counter fuses, which halt it, blows the next counter
fuse and awaits an image; power removed leaves the fuses. The first CLAIM owns the boot, of several in one cycle that
of the lowest-numbered port (R348), its GO starts the verification; an accepted image is measured and runs, another
leaves its code and releases the claim; firmware extends MR4 to MR7.

Choices of the model in it: log 6, 15, 55, 56. -/
def Obligations.BootRom : Prop :=
  ∀ (s : State),
    let fuses : Boot := { powered := true, blown := s.boot.blown, revoked := s.boot.revoked }
    let off : Boot := { fuses with powered := false }
    let count := Config.fusedCount + s.boot.blown
    (∀ seed, s.boot.powered = false ∨ s.boot.stage = 0 → Takes (.powerUp seed) s fun t =>
      ∃ m x, tget m 0 = some (ruleExtend 0#256 (Config.sha256 Config.romText)) ∧ tget m 3 = some x ∧
        (∀ k, k ≠ 0 → k ≠ 3 → tget m k = none) ∧
        (s.boot.revoked = true → PowerGone s t { fuses with stage := 4, code := 6 } m) ∧
        (s.boot.revoked = false → 65536 ≤ count → PowerGone s t { fuses with stage := 4, code := 5 } m) ∧
        (s.boot.revoked = false → count < 65536 → PowerGone s t
          { fuses with stage := 1, bootNum := count, blown := s.boot.blown + 1, tree := true, seed := seed } m)) ∧
    (s.boot.powered = true → Takes .powerOff s (PowerGone s · off []) ∧ Takes .junction110C s (PowerGone s · off [])) ∧
    (Takes .junction100C s fun t => OnlyBoot s t { s.boot with clocksLow := true }) ∧
    (s.boot.stage = 1 → ∀ port, port < 32 →
      (s.boot.owner = none → ∀ others, (∀ k ∈ others, port ≤ k) →
        Takes (.claim (others ++ [port])) s fun t => OnlyBoot s t { s.boot with owner := some port }) ∧
      (s.boot.owner = some port → Takes (.go port) s fun t => OnlyBoot s t { s.boot with stage := 2 }) ∧
      (∀ w, s.boot.owner = some w → w ≠ port → exec (.claim [port]) s = .next s ∧ exec (.go port) s = .next s)) ∧
    (s.boot.stage = 2 →
      let f := imageField s 8 8
      let fw := mread s.boot.staging 2048 f
      let mc := mread s.boot.staging (2048 + f) (imageField s 16 8)
      let mr (k : Nat) := tgetD s.measures k 0#256
      (ImageCode s 0 → Takes .bootVerifyDone s fun t => SameWork s t ∧
        { aside t with measures := [] } = { aside { s with boot := { s.boot with
          stage := 3, code := 0, firmware := fw, microcode := mc, staging := [] } } with measures := [] } ∧
        tget t.measures 1 = some (ruleExtend (mr 1) (Config.sha256 (mread s.boot.staging 0 128 ++ fw))) ∧
        tget t.measures 2 = some (ruleExtend (mr 2) (Config.sha256 mc)) ∧
        ∀ k, k ≠ 1 → k ≠ 2 → tget t.measures k = tget s.measures k) ∧
      ∀ code, code ≠ 0 → ImageCode s code → Takes .bootVerifyDone s fun t =>
        OnlyBoot s t { s.boot with stage := 1, code := code, staging := [], owner := none }) ∧
    ∀ k x, s.boot.stage = 3 → 4 ≤ k → k < 8 → x.length = 32 → Takes (.mrExtend k x) s fun t => SameWork s t ∧
      { aside t with measures := [] } = { aside s with measures := [] } ∧
      tget t.measures k = some (Config.sha256 (leBytes (tgetD s.measures k 0#256).toNat 32 ++ x)) ∧
      ∀ j, j ≠ k → tget t.measures j = tget s.measures j

/-- SECURITY_ALARM (R348, R427, R437): a fatal report on every RUN port and every port in ERROR with code 5; from
level 2 on every launch aborted, the session keys, the seed and the shares gone, and the vaults and the DRAM of every
port that was LOCKED or RUN zero; at level 3 the identity revoked and the device halted; during boot a halt with code
7. A second level-1 condition acts as level 2, and level 3 while not armed too.

Choices of the model in it: log 54. -/
def Obligations.Alarms : Prop :=
  ∀ (s : State) (level : Nat), 1 ≤ level → level ≤ 3 → s.boot.powered = true →
    s.ports.Pairwise (fun a b => a.1 < b.1) → s.launches.Pairwise (fun a b => a.1 < b.1) →
    let asked := if level = 1 ∧ 1 ≤ s.boot.alarm then 2 else level
    let l := if asked = 3 ∧ s.boot.armed = false then 2 else asked
    let zeroed (x : Nat) : Prop := Config.vaultBase ≤ x ∧ x < Config.vaultBase + Config.vaultSize ∨
      ∃ p ∈ s.ports, (p.2.state = 2 ∨ p.2.state = 3) ∧ p.2.cfg.toNat / 2 ^ 16 % 2 ^ 10 * 2 ^ 30 ≤ x ∧
        x < p.2.cfg.toNat / 2 ^ 32 % 2 ^ 10 * 2 ^ 30
    Takes (.securityAlarm level) s fun t => t.groups = s.groups ∧
      t.outbox = s.outbox ++ (s.ports.filter fun p => p.2.state = 3).map (fun p => { kind := .fatal, dev := p.1 }) ∧
      (∀ k, k < 32 → { tgetD t.ports k {} with session := {}, keys := none } =
        { portFailed (tgetD s.ports k {}) 5 with session := {}, keys := none }) ∧
      t.boot.alarm = max s.boot.alarm l ∧
      (s.boot.stage < 3 → t.boot.stage = 4 ∧ t.boot.code = 7 ∧ t.boot.staging = [] ∧ t.boot.owner = none) ∧
      (3 ≤ s.boot.stage → l ≠ 3 → t.boot.stage = s.boot.stage ∧ t.boot.code = s.boot.code) ∧
      (l = 3 → t.boot.revoked = true ∧ t.boot.stage = 4) ∧ (l ≠ 3 → t.boot.revoked = s.boot.revoked) ∧
      (l = 1 → t.teams = s.teams ∧ { aside t with ports := [], outbox := [], boot := {} } =
        { aside s with ports := [], outbox := [], boot := {} } ∧ t.boot.seed = s.boot.seed ∧ t.boot.tree = s.boot.tree) ∧
      (2 ≤ l → allAborted s t ∧ t.boot.seed = 0#64 ∧ t.boot.tree = false ∧
        (∀ k, k < 32 → (tgetD t.ports k {}).session = {} ∧ (tgetD t.ports k {}).keys = none) ∧
        (∀ k, tget t.teams k = (tget s.teams k).map fun x => { x with share := [], sharePoison := [] }) ∧
        (∀ x, zeroed x → mget t.mem x = 0#8) ∧ ∀ x, ¬zeroed x → mget t.mem x = mget s.mem x)

/-- The SPDM responder (R341, R342, R344): its answers and what they leave. Each signature takes one leaf, and after
1,024 of them, or with no tree, the answer is Busy; of an offer of algorithms those of R342 are selected and no
others; a slot other than 0, a measurement index outside 1 to 8 and 255, and a message out of session answer an
invalid request. The response codes are those of SPDM 1.2 (log 33).

VENDOR_DEFINED_REQUEST (R59, R343, R346, R367, R401, R420, R434, R437): what firmware does for a peer in its session,
and that it refuses what it does not serve; CONFIG is taken before there is a session too (log 34).

Choices of the model in it: log 33, 34, 71. -/
def Obligations.PeersAndAttestation : Prop :=
  (
    ∀ (s : State) (port : Nat), port < 32 → s.boot.stage ≠ 0 → s.boot.stage ≠ 4 →
      let p := tgetD s.ports port {}
      let chain := Config.certificate s.boot.bootNum s.boot.seed
      let digest := leBytes (Config.sha256 chain).toNat 32
      let answers (i : Instr) (u : State) (code : Nat) (nums : List Nat) (bytes : List Byte) : Prop :=
        Takes i s (SpdmAnswered s u · port code nums bytes)
      let fails (i : Instr) (code : Nat) : Prop := answers i s 0x7F [code] []
      let signs (i : Instr) (code : Nat) (l : List Byte) : Prop :=
        (s.boot.tree = true → s.boot.signatures < 1024 → answers i (oneSigned s) code [] (ruleSigned s l)) ∧
          (s.boot.tree = false ∨ 1024 ≤ s.boot.signatures → fails i 3)
      let with_ (q : Port) : State := { s with ports := tset s.ports port q }
      answers (.getVersion port) s 0x04 [0x12] [] ∧
      answers (.getCapabilities port) s 0x61 [0x2D6] [] ∧
      (∀ o : SpdmOffer, answers (.negotiateAlgorithms { o with port := port }) s 0x63
        [if o.lms then 1 else 0, o.hash % 2, o.dhe / 2 ^ 4 % 2 * 2 ^ 4, o.aead / 2 % 2 * 2] []) ∧
      answers (.getDigests port) s 0x01 [] digest ∧
      answers (.getCertificate port 0) s 0x02 [] chain ∧
      (∀ slot, slot ≠ 0 → fails (.getCertificate port slot) 1) ∧
      (∀ nonce, signs (.challenge port 0 nonce) 0x03 (digest ++ nonce)) ∧
      (∀ slot nonce, slot ≠ 0 → fails (.challenge port slot nonce) 1) ∧
      (∀ nonce, answers (.getMeasurements port 0 nonce) s 0x60 [8] []) ∧
      (∀ k, k < 8 → answers (.getMeasurements port (k + 1) []) s 0x60 [] (mrBytes s k)) ∧
      answers (.getMeasurements port 255 []) s 0x60 [] ((List.range 8).flatMap (mrBytes s)) ∧
      (∀ k nonce, k < 8 → nonce ≠ [] → signs (.getMeasurements port (k + 1) nonce) 0x60 (mrBytes s k ++ nonce)) ∧
      (∀ nonce, nonce ≠ [] → signs (.getMeasurements port 255 nonce) 0x60 ((List.range 8).flatMap (mrBytes s) ++ nonce)) ∧
      (∀ k nonce, 8 < k → k ≠ 255 → fails (.getMeasurements port k nonce) 1) ∧
      (∀ share, let r := Config.keyShare s.boot.seed share
        (s.boot.tree = true → s.boot.signatures < 1024 → answers (.keyExchange port share)
          { oneSigned s with ports := tset s.ports port { p with session := { started := true, secret := r.2 } } } 0x64 []
          (ruleSigned s (r.1 ++ share))) ∧
        (s.boot.tree = false ∨ 1024 ≤ s.boot.signatures → fails (.keyExchange port share) 3)) ∧
      (p.session.started = false → (∀ good, fails (.finish port good) 1) ∧ fails (.endSession port) 1) ∧
      (p.session.started = true →
        answers (.finish port true) (with_ { p with session := { p.session with established := true } }) 0x65 [] [] ∧
        answers (.finish port false) (with_ (sessionGone p)) 0x7F [6] [] ∧
        answers (.endSession port) (with_ (sessionGone p)) 0x6C [] [])) ∧
  (
    ∀ (s : State) (port : Nat) (r : PeerRequest), port < 32 →
      let p := tgetD s.ports port {}
      let i : Instr := .vendorDefinedRequest port r
      let as (j : Instr) : Prop := ∃ u, exec j s = .next u ∧ Takes i s fun t =>
        { t with outbox := u.outbox } = u ∧ t.outbox = u.outbox ++ [{ kind := .spdm, dev := port, nums := [0x7E] }]
      let armed (r : PeerRequest) : Injection :=
        { core := r.a, slot := r.b, scalar := decide (256 ≤ r.c), reg := r.c % 256, lane := r.d / 64, bit := r.d % 64
          after := r.e / 4, mode := r.e % 4 }
      let refuses : Prop := Takes i s (SpdmAnswered s s · port 0x7F [1] [])
      (s.boot.stage ≠ 0 → s.boot.stage ≠ 3 → s.boot.stage ≠ 4 → refuses) ∧
      (s.boot.stage = 3 → p.session.established = false → ¬(r.kind = 0 ∧ r.a = 1) → refuses) ∧
      (s.boot.stage = 3 → 8 ≤ r.kind → refuses) ∧
      (s.boot.stage = 3 → r.kind = 0 → r.a = 1 → as (.config port)) ∧
      (s.boot.stage = 3 → p.session.established = true →
        (r.kind = 0 → (r.a = 2 → as (.lock port)) ∧ (r.a = 3 → as (.start port)) ∧ (r.a = 4 → as (.stop port)) ∧
          (r.a = 5 → as (.reset port))) ∧
        (r.kind = 5 → r.a < 2 → as (.portConfigWrite port r.a r.v)) ∧
        (r.kind = 1 → r.a < 196 → r.b < 0x1000 → r.b % 8 = 0 → as (.registerWrite (0x10000000 + 0x1000 * r.a + r.b) r.v)) ∧
        (r.kind = 2 → r.e % 4 < 3 → Takes i s fun t => t.groups = s.groups ∧ t.teams = s.teams ∧
          t.outbox = s.outbox ++ [{ kind := .spdm, dev := port, nums := [0x7E] }] ∧
          { aside t with outbox := [], nextId := 0, injections := [] } =
            { aside s with outbox := [], nextId := 0, injections := [] } ∧
          t.injections = tset s.injections s.nextId (armed r)) ∧
        (r.kind = 3 → ∀ l, tget s.launches r.a = some l → Takes i s fun t => SameWork s t ∧
          tget t.launches r.a = some { l with aborted := true } ∧
          { aside t with launches := [], cores := [], mgmt := [], outbox := [] } =
            { aside s with launches := [], cores := [], mgmt := [], outbox := [] } ∧
          (l.aborted = false → t.mgmt = s.mgmt ++ [{ kind := 0, nums := [r.a] }])) ∧
        (r.kind = 3 → tget s.launches r.a = none → refuses) ∧
        (r.kind = 4 → ∀ x, tget s.teams r.a = some x → as (.preemptionRequest r.a)) ∧
        (r.kind = 6 → (∀ q ∈ s.ports, q.2.cfg.toNat % 4 = 1 → q.2.state = 3) → Takes i s fun t => SameWork s t ∧
          noNetwork t = noNetwork s ∧ t.outbox = s.outbox ++ [{ kind := .join, dev := r.a, nums := [devNo s] },
            { kind := .spdm, dev := port, nums := [0x7E] }]) ∧
        (r.kind = 6 → (∃ q ∈ s.ports, q.2.cfg.toNat % 4 = 1 ∧ q.2.state ≠ 3) → refuses) ∧
        (r.kind = 7 → Takes i s (SpdmAnswered s { s with boot := { s.boot with armed := true } } · port 0x7E [] []))))

/-- CHECK_POINT (R411 to R414, R419, R439, R440). One that passes performs the held stores in buffer order; then the
strand that forced it may perform its action or flip, or, there being none, the state is the team's checkpoint and
every signature is 0. One that fails, for a check bit or signatures that differ, puts every copy back to the
checkpoint and performs nothing; a second failure in a row aborts the launch, and so does a snapshot that meets an
uncorrectable error (R413). The check point after the action copies the state. A copy of the state stands in the
team's checkpoint area too.

INJECTION_FIRE (R405, R420, R441): once its count has run out at a boundary of the group in its slot, a silent flip
changes one bit of the register, a correctable one is only counted, and an uncorrectable one flips a second bit, which
is free, and poisons the lane.

Errors of the structures of R405: a corrected one is counted and changes nothing; another poisons the granule or
sector of memory that it hits, the granule of a share, or the lane or register, and leaves what is rewritten from a
protected copy.

Choices of the model in it: log 24. -/
def Obligations.ChecksAndInjections : Prop :=
  (
    ∀ (s : State) (k : Nat) (x : Team) (why : Force) (sn : Snapshot), CheckDue s k x why sn → why ≠ .schedule →
      s.groups.Pairwise (fun a b => a.1 < b.1) →
      let cs := k :: x.mate.toList
      let passes := x.chk.pc = false ∧ x.chk.pw = false ∧ x.chk.pb = false ∧
        (x.mate ≠ none → signaturesMatch (foldLandings s k) k = true)
      let closes (t : State) : Prop := ∀ c ∈ cs, ∃ y z, tget s.teams c = some y ∧ tget t.teams c = some z ∧
        z.force = none ∧ z.forcedBy = none ∧ z.granted = none ∧ z.failed = false ∧ z.values = y.values ∧ z.chk = y.chk ∧
        (∀ g ∈ t.groups, g.2.owner = .team c → g.2.sig = 0#64 ∧ g.2.ended = false) ∧
        ∃ n, z.snap = some n ∧ n.share = z.share ∧ n.tiles = z.tiles ∧ n.points = z.points ∧ n.templates = z.templates ∧
          n.matrix = z.matrix ∧ n.groups = t.groups.filter fun g => g.2.owner == .team c
      let others (t : State) : Prop := (∀ c, c ∉ cs → tget t.teams c = tget s.teams c) ∧
        ∀ j g, tget s.groups j = some g → (∀ c ∈ cs, g.owner ≠ .team c) → tget t.groups j = some g
      (why ≠ .settle → passes → (why = .action ∨ why = .flip) → ∀ f, x.forcedBy = some f →
        Takes (.checkPoint k) s fun t => t.mem = ruleHeld x.held s.mem ∧ others t ∧ t.launches = s.launches ∧
          tget t.teams k = some { x with held := [], granted := some f, failed := false } ∧
          (∀ m, x.mate = some m → tget t.teams m = tget s.teams m) ∧
          ∀ j, (tget t.groups j).map (fun g => { g with sig := 0#64, folds := [] }) =
            (tget s.groups j).map fun g => { g with sig := 0#64, folds := [] }) ∧
      let stored := performAllHeld s k
      (why ≠ .settle → passes → (why = .fullBuffer ∨ why = .poison ∨ why = .last) → Takes (.checkPoint k) s fun t =>
        stored.mem = ruleHeld x.held s.mem ∧ t.mem = (cs.foldl saveSnapshot stored).mem ∧
        ((∀ c ∈ cs, recordOk stored c = false) → t.mem = stored.mem) ∧ others t ∧ closes t ∧ t.launches = s.launches ∧
        (tget t.teams k).map (·.held) = some []) ∧
      (why = .settle → (∀ f, x.forcedBy = some f → ∀ p ∈ s.posts, p.2.gid = f.1 → p.2.entry = f.2 → p.2.phase ≠ .waiting) →
        Takes (.checkPoint k) s fun t => t.mem = (cs.foldl saveSnapshot s).mem ∧
          ((∀ c ∈ cs, recordOk s c = false) → t.mem = s.mem) ∧ others t ∧ closes t ∧ t.launches = s.launches) ∧
      (why ≠ .settle → ¬passes → Takes (.checkPoint k) s fun t => t.mem = s.mem ∧ others t ∧
        (∀ c ∈ cs, RolledBack s t c sn (x.mate.isSome && !signaturesMatch (foldLandings s k) k)) ∧
        (x.mate = none → sn.groups.Pairwise (fun a b => a.1 < b.1 ∧ groupKey a.2 ≠ groupKey b.2) →
          (∀ j g, (j, g) ∈ sn.groups → g.owner = .team k ∧ ∀ h, tget s.groups j = some h → h.owner = .team k) →
          ∀ j g, (tget t.groups j = some g ∧ g.owner = .team k) ↔ (j, g) ∈ sn.groups) ∧
        (x.failed = false → snapshotLost s k = false → t.launches = s.launches ∧ t.mgmt = s.mgmt) ∧
        (x.failed = true ∨ snapshotLost s k = true → (∀ l, tget s.launches x.launch = some l →
            tget t.launches x.launch = some { l with aborted := true }) ∧
          ∃ a b, t.mgmt = s.mgmt ++ [{ kind := 10, nums := a }] ++ b))) ∧
  (
    ∀ (s : State) (k gid : Nat) (i : Injection) (g : Group), tget s.injections k = some i → i.after = 0 →
      groupInSlot s i.core i.slot = some (gid, g) → tget s.groups gid = some g → i.lane < 64 →
      Takes (.injectionFire k) s fun t =>
        let h := tgetD t.groups gid {}
        t.injections = terase s.injections k ∧ t.teams = s.teams ∧ (∀ j, j ≠ gid → tget t.groups j = tget s.groups j) ∧
        { aside t with injections := [], errors := [], freeNo := 0 } =
          { aside s with injections := [], errors := [], freeNo := 0 } ∧
        { h with sregs := [], vregs := [], spoison := [], vpoison := [] } =
          { g with sregs := [], vregs := [], spoison := [], vpoison := [] } ∧
        (i.mode = 1 → h = g ∧ Counted { s with injections := t.injections } t .registers) ∧
        (i.mode ≠ 1 → t.errors = s.errors ∧ ∃ b : Nat, (i.mode = 0 → b = 64) ∧
          (i.mode ≠ 0 → b ≠ i.bit ∧ b < if i.scalar then 64 else 32) ∧
          (i.scalar = true → h.vregs = g.vregs ∧ h.vpoison = g.vpoison ∧
            (∀ r, tgetD h.sregs r 0#64 = if r = i.reg then tgetD g.sregs r 0#64 ^^^ (1#64 <<< i.bit) ^^^ (1#64 <<< b)
              else tgetD g.sregs r 0#64) ∧
            ∀ r, r ∈ h.spoison ↔ r ∈ g.spoison ∨ i.mode ≠ 0 ∧ r = i.reg) ∧
          (i.scalar = false → h.sregs = g.sregs ∧ h.spoison = g.spoison ∧
            (∀ r l, l < 64 → getV h r l = if r = i.reg ∧ l = i.lane then getV g r l ^^^ (1#32 <<< i.bit) ^^^ (1#32 <<< b)
              else getV g r l) ∧
            ∀ r l, l < 64 → poisonedV h r l = (poisonedV g r l || (i.mode ≠ 0 && r == i.reg && l == i.lane))))) ∧
  (
    ∀ (s : State) (st : Structure) (i j k : Nat), s.boot.powered = true →
      let upset (p : State → Prop) : Prop := ∃ t, runTurn (.upset st i j k false) s = .next t ∧ p t
      (∃ t, runTurn (.upset st i j k true) s = .next t ∧ Counted s t st) ∧
      (st ∈ [.vault, .homeSlice, .cart] → upset (Poisons s · [i])) ∧
      (st ∈ [.dram, .record, .checkArea] → upset (Poisons s · [4 * i, 4 * i + 1, 4 * i + 2, 4 * i + 3])) ∧
      (st = .scratchpad → upset fun t => { t with teams := s.teams } = s ∧ ∀ n, tget t.teams n = (tget s.teams n).map fun x =>
        if n = i then { x with sharePoison := sadd1 x.sharePoison j } else x) ∧
      (st ∈ [.registers, .landingArea] → ∀ g, tget s.groups i = some g → upset fun t => { t with groups := s.groups } = s ∧
        (∀ n, n ≠ i → tget t.groups n = tget s.groups n) ∧ ∃ h, tget t.groups i = some h ∧
          { h with vpoison := g.vpoison, spoison := g.spoison } = g ∧
          (256 ≤ j → j < 384 → ∀ r, r ∈ h.spoison ↔ r ∈ g.spoison ∨ r = j - 256) ∧
          (j < 256 → k < g.width → g.width ≤ 64 → ∀ r l, l < 64 →
            poisonedV h r l = (poisonedV g r l || (r == j && l == k)))) ∧
      (st ∈ [.tileTable, .stack, .tagTable] → upset (· = s)))

/-- A step runs the decoded instruction (R70, R133, R150, R169, R175, R176, R331, R357). Where a pipe's cycle comes
and the first strand it tries stands at its word, the word fetched at its PC decides: an instruction, uncovered or in
a block that lets it run, is executed, and, where that leaves the machine changed, what follows an instruction and the
core's cycles are all that the step adds; one that changes nothing lets the next strand try; a covered word that the
block leaves out is stepped past; a word that no instruction has traps. An event's step is its execution. The pipes of
a core take one cycle in increasing number (R230, R350), and one in which nothing issues ends the pipe's greedy run
(R70). Without power nothing happens but power-up, and no clock runs (R331).

Choices of the model in it: log 44. -/
def Obligations.StepRunsDecoded : Prop :=
  ∀ (s : State) (rest : List Turn),
    (∀ core pipe n gid entry others, s.agenda = .issue core pipe n :: rest → s.boot.powered = true → s.boot.stage ≠ 4 →
      let s0 := enterCycle core pipe { s with agenda := rest }
      let s1 := tried { s0 with cur := { gid := gid, entry := entry } }
      let issued (o : Host.Outcome State Fault Refusal) (yields : Bool) : Prop := ∀ t, o = .next t →
        (t.progress ≠ s.progress →
          step s = .next (passCycles core n (afterIssue core pipe gid entry (curGroup s1) yields t))) ∧
        (t.progress = s.progress → ∀ t', tryIssue core pipe others t = .next t' →
          step s = .next (passCycles core n (if t'.progress = s.progress then endRun core pipe t' else t')))
      let trapped (s2 : State) (code : BitVec 8) : Prop :=
        issued (finish_ s2 (.error (.trap { code := code }))) false
      issueOrder s0 core pipe = (gid, entry) :: others → AtWord s1 →
      ∀ w s2, fetchWord s1 = .ok (w, s2) →
        ((curStrand s2).block = none →
          (∀ i, decode w = .ok i → issued (exec i s2) (i = .yield)) ∧
          (decode w = .error .reservedField → trapped s2 0x03#8) ∧
          (∀ p, decode w = .error (.illegalPairing p) → trapped s2 (if pairFits s2 (curGroup s2) p then 0x02#8 else 0x03#8))) ∧
        (∀ b, (curStrand s2).block = some b →
          (∀ i, decode w = .ok i → (∀ x, i ≠ .undefinedInstruction x) → uncoverable w = false →
            (b.pattern.getLsbD 0 = b.sample → issued (exec i s2) (i = .yield)) ∧
            (b.pattern.getLsbD 0 ≠ b.sample → skippedFits s2 (curGroup s2) i = true →
              issued (finish_ s2 (.ok (advance s2))) false) ∧
            (b.pattern.getLsbD 0 ≠ b.sample → skippedFits s2 (curGroup s2) i = false → trapped s2 0x03#8)) ∧
          (uncoverable w = true → trapped s2 0x01#8))) ∧
    (∀ i, s.agenda = .event i :: rest → encode i = none → s.boot.powered = true →
      step s = exec i { s with agenda := rest }) ∧
    (∀ c n, s.agenda = .tick c n :: rest → s.boot.powered = true →
      step s = .next { s with agenda := rest, clocks := tset s.clocks c (tgetD s.clocks c 0 + n) }) ∧
    (s.boot.powered = false → ∀ t, s.agenda = t :: rest → (∀ core pipe n, t ≠ .issue core pipe n) →
      (∀ seed, t ≠ .event (.powerUp seed)) → step s = .next { s with agenda := rest }) ∧
    (s.agenda = [] → step s = runTurn (Config.turn s.turnNo) { s with turnNo := s.turnNo + 1 })

/-- Words written out from the encodings of R150 to R162 and R178 to R290 decode to the instructions they stand for,
and two words that no instruction has do not (R176). -/
def Obligations.DecodeSamples : Prop :=
  decode 0x08050C1C00000000#64 = .ok (.sadd { sd := 5#7, sa := 6#7, sb := 7#7, fa := 0#1, fb := 0#1 }) ∧
  decode 0x4000030409008000#64 =
    .ok (.vadd { gn := 0#1, gp := 0#3, vd := 3#8, va := 4#8, vb := 9#8, vbs := 1#1, fa := 0#1, fb := 0#1 }) ∧
  decode 0x2B890000FFFFFFFA#64 = .ok (.loop { sl := 9#7, fl := 0#1, off := 0xFFFFFFFA#32 }) ∧
  decode 0x300214020940C310#64 = .ok (.ld {
    gn := 0#1, gp := 0#3, size := 2#3, vd := 20#8, va := 2#8, sb := 4#7, scope := 5#3
    ord := 0#2, eb := 12#8, ec := 3#4, pk := 0#1, fea := 0#1, osc := 2#2, hint := 0#3 }) ∧
  decode 0x6300000000000105#64 = .ok (.mwait { sa := 0#7, fa := 0#1, imm := 1#1, n := 5#8 }) ∧
  decode 0x7900000000000007#64 = .ok (.trap { imm := 7#8 }) ∧
  decode 0x7980000000000000#64 = .ok .rett ∧
  decode 0#64 = .ok (.undefinedInstruction 0#64) ∧
  decode (BitVec.allOnes 64) = .ok (.undefinedInstruction (BitVec.allOnes 64)) ∧
  decode 0x08050C1C00000001#64 = .error .reservedField

/-- Decoding and encoding agree (R150 to R163, R172 to R176): every well-formed instruction is read back from its word
with every operand, every word that is read is the word of the well-formed instruction it holds, and the undefined
instructions are those of R175. -/
def Obligations.DecodeEncode : Prop :=
  (∀ i w, i.wf = true → (∀ x, i ≠ .undefinedInstruction x) → encode i = some w → decode w = .ok i) ∧
  (∀ w i, decode w = .ok i → encode i = some w ∧ i.wf = true) ∧
  ∀ w x, decode w = .ok (.undefinedInstruction x) ↔ x = w ∧ undefinedWord w

/-- Right after reset (R50, R86, R309, R331, R335, R339, R343, R367): every register of the control window but DEVID
reads 0, every debug register holds nothing, no group, team, launch or access exists, and every memory is in its
canonical form.

Choices of the model in it: log 2, 16. -/
def Obligations.ResetState : Prop :=
  (∀ off, off % 8 = 0 → off ≠ 0 → ruleWindow State.reset off = 0) ∧ ruleWindow State.reset 0 = 0x337303 ∧
  (∀ c, (coreAt State.reset c).debug = [] ∧ (coreAt State.reset c).cycle = 0) ∧
  (∀ p, tgetD State.reset.ports p {} = {}) ∧ State.reset.groups = [] ∧ State.reset.teams = [] ∧
  State.reset.launches = [] ∧ State.reset.outs = [] ∧ (∀ a, mget State.reset.mem a = unlisted) ∧
  MemoriesWf State.reset ∧ Fresh State.reset

/-- Every step keeps every memory in its canonical form: addresses rise and no entry holds what an unlisted address
reads as (log 2). -/
def Obligations.StepKeepsMemories : Prop :=
  ∀ (s t : State), MemoriesWf s → step s = .next t → MemoriesWf t

/-- Every step keeps identities new: groups stand at rising keys below the next identity, and stack entries below
their group's next entry (R18, R26). -/
def Obligations.StepKeepsFresh : Prop :=
  ∀ (s t : State), Fresh s → step s = .next t → Fresh t

/-- Only a pipe's cycle without power stops the machine (R331): every other step has a next state, whatever the state.
-/
def Obligations.OnlyPowerStops : Prop :=
  ∀ (s : State),
    (s.boot.powered = true → stepsOn s) ∧
    (∀ core pipe n, (takeTurn s).1 = .issue core pipe n → s.boot.powered = false → step s = .fault .noPower) ∧
    ((∀ core pipe n, (takeTurn s).1 ≠ .issue core pipe n) → stepsOn s)

/-- What no step undoes (R331, R339, R340, R346, R437): counter fuses and the identity-revoke fuse only blow, level 3
once armed stays armed while there is power, an alarm level never falls while there is power, and a measurement
register changes only as R339 says: by power, at the end of a boot (MR1 and MR2), or as firmware extends MR4 to MR7.
-/
def Obligations.Latches : Prop :=
  ∀ (s t : State), step s = .next t →
    s.boot.blown ≤ t.boot.blown ∧ (s.boot.revoked = true → t.boot.revoked = true) ∧
    (¬powerTurn (takeTurn s).1 → (s.boot.armed = true → t.boot.armed = true) ∧ s.boot.alarm ≤ t.boot.alarm ∧
      ∀ k, tget t.measures k ≠ tget s.measures k →
        (takeTurn s).1 = .event .bootVerifyDone ∧ (k = 1 ∨ k = 2) ∨
          4 ≤ k ∧ k < 8 ∧ ∃ x, (takeTurn s).1 = .event (.mrExtend k x))
end

