-- ==== Sys2Proof/Laws/State.lean ====
section
/-!
SUPPORT. What each named update of the state changes, field by field.
-/

namespace Sys2Proof.Machine

/-! ### The issuing group -/

@[simp] theorem setGroup_mem (s : State) (g : Group) : (setGroup s g).mem = s.mem := rfl
@[simp] theorem setGroup_poison (s : State) (g : Group) : (setGroup s g).poison = s.poison := rfl
@[simp] theorem setGroup_cores (s : State) (g : Group) : (setGroup s g).cores = s.cores := rfl
@[simp] theorem setGroup_groups (s : State) (g : Group) : (setGroup s g).groups = tset s.groups s.cur.gid g := rfl
@[simp] theorem setGroup_rowBlocks (s : State) (g : Group) : (setGroup s g).rowBlocks = s.rowBlocks := rfl
@[simp] theorem setGroup_teams (s : State) (g : Group) : (setGroup s g).teams = s.teams := rfl
@[simp] theorem setGroup_spawned (s : State) (g : Group) : (setGroup s g).spawned = s.spawned := rfl
@[simp] theorem setGroup_launches (s : State) (g : Group) : (setGroup s g).launches = s.launches := rfl
@[simp] theorem setGroup_queues (s : State) (g : Group) : (setGroup s g).queues = s.queues := rfl
@[simp] theorem setGroup_contexts (s : State) (g : Group) : (setGroup s g).contexts = s.contexts := rfl
@[simp] theorem setGroup_dist (s : State) (g : Group) : (setGroup s g).dist = s.dist := rfl
@[simp] theorem setGroup_tlb2 (s : State) (g : Group) : (setGroup s g).tlb2 = s.tlb2 := rfl
@[simp] theorem setGroup_walks (s : State) (g : Group) : (setGroup s g).walks = s.walks := rfl
@[simp] theorem setGroup_walkFaults (s : State) (g : Group) : (setGroup s g).walkFaults = s.walkFaults := rfl
@[simp] theorem setGroup_cicache (s : State) (g : Group) : (setGroup s g).cicache = s.cicache := rfl
@[simp] theorem setGroup_outs (s : State) (g : Group) : (setGroup s g).outs = s.outs := rfl
@[simp] theorem setGroup_writeBacks (s : State) (g : Group) : (setGroup s g).writeBacks = s.writeBacks := rfl
@[simp] theorem setGroup_notices (s : State) (g : Group) : (setGroup s g).notices = s.notices := rfl
@[simp] theorem setGroup_owners (s : State) (g : Group) : (setGroup s g).owners = s.owners := rfl
@[simp] theorem setGroup_promotions (s : State) (g : Group) : (setGroup s g).promotions = s.promotions := rfl
@[simp] theorem setGroup_trains (s : State) (g : Group) : (setGroup s g).trains = s.trains := rfl
@[simp] theorem setGroup_sources (s : State) (g : Group) : (setGroup s g).sources = s.sources := rfl
@[simp] theorem setGroup_golden (s : State) (g : Group) : (setGroup s g).golden = s.golden := rfl
@[simp] theorem setGroup_goldenTrain (s : State) (g : Group) : (setGroup s g).goldenTrain = s.goldenTrain := rfl
@[simp] theorem setGroup_goldenHold (s : State) (g : Group) : (setGroup s g).goldenHold = s.goldenHold := rfl
@[simp] theorem setGroup_notes (s : State) (g : Group) : (setGroup s g).notes = s.notes := rfl
@[simp] theorem setGroup_copies (s : State) (g : Group) : (setGroup s g).copies = s.copies := rfl
@[simp] theorem setGroup_btes (s : State) (g : Group) : (setGroup s g).btes = s.btes := rfl
@[simp] theorem setGroup_posts (s : State) (g : Group) : (setGroup s g).posts = s.posts := rfl
@[simp] theorem setGroup_collectives (s : State) (g : Group) : (setGroup s g).collectives = s.collectives := rfl
@[simp] theorem setGroup_collCounts (s : State) (g : Group) : (setGroup s g).collCounts = s.collCounts := rfl
@[simp] theorem setGroup_protocols (s : State) (g : Group) : (setGroup s g).protocols = s.protocols := rfl
@[simp] theorem setGroup_convs (s : State) (g : Group) : (setGroup s g).convs = s.convs := rfl
@[simp] theorem setGroup_convRequests (s : State) (g : Group) : (setGroup s g).convRequests = s.convRequests := rfl
@[simp] theorem setGroup_fabric (s : State) (g : Group) : (setGroup s g).fabric = s.fabric := rfl
@[simp] theorem setGroup_ports (s : State) (g : Group) : (setGroup s g).ports = s.ports := rfl
@[simp] theorem setGroup_boot (s : State) (g : Group) : (setGroup s g).boot = s.boot := rfl
@[simp] theorem setGroup_measures (s : State) (g : Group) : (setGroup s g).measures = s.measures := rfl
@[simp] theorem setGroup_injections (s : State) (g : Group) : (setGroup s g).injections = s.injections := rfl
@[simp] theorem setGroup_stops (s : State) (g : Group) : (setGroup s g).stops = s.stops := rfl
@[simp] theorem setGroup_testing (s : State) (g : Group) : (setGroup s g).testing = s.testing := rfl
@[simp] theorem setGroup_mgmt (s : State) (g : Group) : (setGroup s g).mgmt = s.mgmt := rfl
@[simp] theorem setGroup_outbox (s : State) (g : Group) : (setGroup s g).outbox = s.outbox := rfl
@[simp] theorem setGroup_errors (s : State) (g : Group) : (setGroup s g).errors = s.errors := rfl
@[simp] theorem setGroup_clocks (s : State) (g : Group) : (setGroup s g).clocks = s.clocks := rfl
@[simp] theorem setGroup_agenda (s : State) (g : Group) : (setGroup s g).agenda = s.agenda := rfl
@[simp] theorem setGroup_cur (s : State) (g : Group) : (setGroup s g).cur = s.cur := rfl
@[simp] theorem setGroup_obtained (s : State) (g : Group) : (setGroup s g).obtained = s.obtained := rfl
@[simp] theorem setGroup_turnNo (s : State) (g : Group) : (setGroup s g).turnNo = s.turnNo := rfl
@[simp] theorem setGroup_freeNo (s : State) (g : Group) : (setGroup s g).freeNo = s.freeNo := rfl
@[simp] theorem setGroup_progress (s : State) (g : Group) : (setGroup s g).progress = s.progress := rfl
@[simp] theorem setGroup_nextId (s : State) (g : Group) : (setGroup s g).nextId = s.nextId := rfl

/-! ### The issuing strand -/

@[simp] theorem setStrand_mem (s : State) (e : Entry) : (setStrand s e).mem = s.mem := rfl
@[simp] theorem setStrand_poison (s : State) (e : Entry) : (setStrand s e).poison = s.poison := rfl
@[simp] theorem setStrand_cores (s : State) (e : Entry) : (setStrand s e).cores = s.cores := rfl
@[simp] theorem setStrand_groups (s : State) (e : Entry) : (setStrand s e).groups = tset s.groups s.cur.gid (putStrand (curGroup s) e) := rfl
@[simp] theorem setStrand_rowBlocks (s : State) (e : Entry) : (setStrand s e).rowBlocks = s.rowBlocks := rfl
@[simp] theorem setStrand_teams (s : State) (e : Entry) : (setStrand s e).teams = s.teams := rfl
@[simp] theorem setStrand_spawned (s : State) (e : Entry) : (setStrand s e).spawned = s.spawned := rfl
@[simp] theorem setStrand_launches (s : State) (e : Entry) : (setStrand s e).launches = s.launches := rfl
@[simp] theorem setStrand_queues (s : State) (e : Entry) : (setStrand s e).queues = s.queues := rfl
@[simp] theorem setStrand_contexts (s : State) (e : Entry) : (setStrand s e).contexts = s.contexts := rfl
@[simp] theorem setStrand_dist (s : State) (e : Entry) : (setStrand s e).dist = s.dist := rfl
@[simp] theorem setStrand_tlb2 (s : State) (e : Entry) : (setStrand s e).tlb2 = s.tlb2 := rfl
@[simp] theorem setStrand_walks (s : State) (e : Entry) : (setStrand s e).walks = s.walks := rfl
@[simp] theorem setStrand_walkFaults (s : State) (e : Entry) : (setStrand s e).walkFaults = s.walkFaults := rfl
@[simp] theorem setStrand_cicache (s : State) (e : Entry) : (setStrand s e).cicache = s.cicache := rfl
@[simp] theorem setStrand_outs (s : State) (e : Entry) : (setStrand s e).outs = s.outs := rfl
@[simp] theorem setStrand_writeBacks (s : State) (e : Entry) : (setStrand s e).writeBacks = s.writeBacks := rfl
@[simp] theorem setStrand_notices (s : State) (e : Entry) : (setStrand s e).notices = s.notices := rfl
@[simp] theorem setStrand_owners (s : State) (e : Entry) : (setStrand s e).owners = s.owners := rfl
@[simp] theorem setStrand_promotions (s : State) (e : Entry) : (setStrand s e).promotions = s.promotions := rfl
@[simp] theorem setStrand_trains (s : State) (e : Entry) : (setStrand s e).trains = s.trains := rfl
@[simp] theorem setStrand_sources (s : State) (e : Entry) : (setStrand s e).sources = s.sources := rfl
@[simp] theorem setStrand_golden (s : State) (e : Entry) : (setStrand s e).golden = s.golden := rfl
@[simp] theorem setStrand_goldenTrain (s : State) (e : Entry) : (setStrand s e).goldenTrain = s.goldenTrain := rfl
@[simp] theorem setStrand_goldenHold (s : State) (e : Entry) : (setStrand s e).goldenHold = s.goldenHold := rfl
@[simp] theorem setStrand_notes (s : State) (e : Entry) : (setStrand s e).notes = s.notes := rfl
@[simp] theorem setStrand_copies (s : State) (e : Entry) : (setStrand s e).copies = s.copies := rfl
@[simp] theorem setStrand_btes (s : State) (e : Entry) : (setStrand s e).btes = s.btes := rfl
@[simp] theorem setStrand_posts (s : State) (e : Entry) : (setStrand s e).posts = s.posts := rfl
@[simp] theorem setStrand_collectives (s : State) (e : Entry) : (setStrand s e).collectives = s.collectives := rfl
@[simp] theorem setStrand_collCounts (s : State) (e : Entry) : (setStrand s e).collCounts = s.collCounts := rfl
@[simp] theorem setStrand_protocols (s : State) (e : Entry) : (setStrand s e).protocols = s.protocols := rfl
@[simp] theorem setStrand_convs (s : State) (e : Entry) : (setStrand s e).convs = s.convs := rfl
@[simp] theorem setStrand_convRequests (s : State) (e : Entry) : (setStrand s e).convRequests = s.convRequests := rfl
@[simp] theorem setStrand_fabric (s : State) (e : Entry) : (setStrand s e).fabric = s.fabric := rfl
@[simp] theorem setStrand_ports (s : State) (e : Entry) : (setStrand s e).ports = s.ports := rfl
@[simp] theorem setStrand_boot (s : State) (e : Entry) : (setStrand s e).boot = s.boot := rfl
@[simp] theorem setStrand_measures (s : State) (e : Entry) : (setStrand s e).measures = s.measures := rfl
@[simp] theorem setStrand_injections (s : State) (e : Entry) : (setStrand s e).injections = s.injections := rfl
@[simp] theorem setStrand_stops (s : State) (e : Entry) : (setStrand s e).stops = s.stops := rfl
@[simp] theorem setStrand_testing (s : State) (e : Entry) : (setStrand s e).testing = s.testing := rfl
@[simp] theorem setStrand_mgmt (s : State) (e : Entry) : (setStrand s e).mgmt = s.mgmt := rfl
@[simp] theorem setStrand_outbox (s : State) (e : Entry) : (setStrand s e).outbox = s.outbox := rfl
@[simp] theorem setStrand_errors (s : State) (e : Entry) : (setStrand s e).errors = s.errors := rfl
@[simp] theorem setStrand_clocks (s : State) (e : Entry) : (setStrand s e).clocks = s.clocks := rfl
@[simp] theorem setStrand_agenda (s : State) (e : Entry) : (setStrand s e).agenda = s.agenda := rfl
@[simp] theorem setStrand_cur (s : State) (e : Entry) : (setStrand s e).cur = s.cur := rfl
@[simp] theorem setStrand_obtained (s : State) (e : Entry) : (setStrand s e).obtained = s.obtained := rfl
@[simp] theorem setStrand_turnNo (s : State) (e : Entry) : (setStrand s e).turnNo = s.turnNo := rfl
@[simp] theorem setStrand_freeNo (s : State) (e : Entry) : (setStrand s e).freeNo = s.freeNo := rfl
@[simp] theorem setStrand_progress (s : State) (e : Entry) : (setStrand s e).progress = s.progress := rfl
@[simp] theorem setStrand_nextId (s : State) (e : Entry) : (setStrand s e).nextId = s.nextId := rfl

/-! ### A core -/

@[simp] theorem modCore_mem (s : State) (c : Nat) (f : Core → Core) : (modCore s c f).mem = s.mem := rfl
@[simp] theorem modCore_poison (s : State) (c : Nat) (f : Core → Core) : (modCore s c f).poison = s.poison := rfl
@[simp] theorem modCore_cores (s : State) (c : Nat) (f : Core → Core) : (modCore s c f).cores = tset s.cores c (f (coreAt s c)) := rfl
@[simp] theorem modCore_groups (s : State) (c : Nat) (f : Core → Core) : (modCore s c f).groups = s.groups := rfl
@[simp] theorem modCore_rowBlocks (s : State) (c : Nat) (f : Core → Core) : (modCore s c f).rowBlocks = s.rowBlocks := rfl
@[simp] theorem modCore_teams (s : State) (c : Nat) (f : Core → Core) : (modCore s c f).teams = s.teams := rfl
@[simp] theorem modCore_spawned (s : State) (c : Nat) (f : Core → Core) : (modCore s c f).spawned = s.spawned := rfl
@[simp] theorem modCore_launches (s : State) (c : Nat) (f : Core → Core) : (modCore s c f).launches = s.launches := rfl
@[simp] theorem modCore_queues (s : State) (c : Nat) (f : Core → Core) : (modCore s c f).queues = s.queues := rfl
@[simp] theorem modCore_contexts (s : State) (c : Nat) (f : Core → Core) : (modCore s c f).contexts = s.contexts := rfl
@[simp] theorem modCore_dist (s : State) (c : Nat) (f : Core → Core) : (modCore s c f).dist = s.dist := rfl
@[simp] theorem modCore_tlb2 (s : State) (c : Nat) (f : Core → Core) : (modCore s c f).tlb2 = s.tlb2 := rfl
@[simp] theorem modCore_walks (s : State) (c : Nat) (f : Core → Core) : (modCore s c f).walks = s.walks := rfl
@[simp] theorem modCore_walkFaults (s : State) (c : Nat) (f : Core → Core) : (modCore s c f).walkFaults = s.walkFaults := rfl
@[simp] theorem modCore_cicache (s : State) (c : Nat) (f : Core → Core) : (modCore s c f).cicache = s.cicache := rfl
@[simp] theorem modCore_outs (s : State) (c : Nat) (f : Core → Core) : (modCore s c f).outs = s.outs := rfl
@[simp] theorem modCore_writeBacks (s : State) (c : Nat) (f : Core → Core) : (modCore s c f).writeBacks = s.writeBacks := rfl
@[simp] theorem modCore_notices (s : State) (c : Nat) (f : Core → Core) : (modCore s c f).notices = s.notices := rfl
@[simp] theorem modCore_owners (s : State) (c : Nat) (f : Core → Core) : (modCore s c f).owners = s.owners := rfl
@[simp] theorem modCore_promotions (s : State) (c : Nat) (f : Core → Core) : (modCore s c f).promotions = s.promotions := rfl
@[simp] theorem modCore_trains (s : State) (c : Nat) (f : Core → Core) : (modCore s c f).trains = s.trains := rfl
@[simp] theorem modCore_sources (s : State) (c : Nat) (f : Core → Core) : (modCore s c f).sources = s.sources := rfl
@[simp] theorem modCore_golden (s : State) (c : Nat) (f : Core → Core) : (modCore s c f).golden = s.golden := rfl
@[simp] theorem modCore_goldenTrain (s : State) (c : Nat) (f : Core → Core) : (modCore s c f).goldenTrain = s.goldenTrain := rfl
@[simp] theorem modCore_goldenHold (s : State) (c : Nat) (f : Core → Core) : (modCore s c f).goldenHold = s.goldenHold := rfl
@[simp] theorem modCore_notes (s : State) (c : Nat) (f : Core → Core) : (modCore s c f).notes = s.notes := rfl
@[simp] theorem modCore_copies (s : State) (c : Nat) (f : Core → Core) : (modCore s c f).copies = s.copies := rfl
@[simp] theorem modCore_btes (s : State) (c : Nat) (f : Core → Core) : (modCore s c f).btes = s.btes := rfl
@[simp] theorem modCore_posts (s : State) (c : Nat) (f : Core → Core) : (modCore s c f).posts = s.posts := rfl
@[simp] theorem modCore_collectives (s : State) (c : Nat) (f : Core → Core) : (modCore s c f).collectives = s.collectives := rfl
@[simp] theorem modCore_collCounts (s : State) (c : Nat) (f : Core → Core) : (modCore s c f).collCounts = s.collCounts := rfl
@[simp] theorem modCore_protocols (s : State) (c : Nat) (f : Core → Core) : (modCore s c f).protocols = s.protocols := rfl
@[simp] theorem modCore_convs (s : State) (c : Nat) (f : Core → Core) : (modCore s c f).convs = s.convs := rfl
@[simp] theorem modCore_convRequests (s : State) (c : Nat) (f : Core → Core) : (modCore s c f).convRequests = s.convRequests := rfl
@[simp] theorem modCore_fabric (s : State) (c : Nat) (f : Core → Core) : (modCore s c f).fabric = s.fabric := rfl
@[simp] theorem modCore_ports (s : State) (c : Nat) (f : Core → Core) : (modCore s c f).ports = s.ports := rfl
@[simp] theorem modCore_boot (s : State) (c : Nat) (f : Core → Core) : (modCore s c f).boot = s.boot := rfl
@[simp] theorem modCore_measures (s : State) (c : Nat) (f : Core → Core) : (modCore s c f).measures = s.measures := rfl
@[simp] theorem modCore_injections (s : State) (c : Nat) (f : Core → Core) : (modCore s c f).injections = s.injections := rfl
@[simp] theorem modCore_stops (s : State) (c : Nat) (f : Core → Core) : (modCore s c f).stops = s.stops := rfl
@[simp] theorem modCore_testing (s : State) (c : Nat) (f : Core → Core) : (modCore s c f).testing = s.testing := rfl
@[simp] theorem modCore_mgmt (s : State) (c : Nat) (f : Core → Core) : (modCore s c f).mgmt = s.mgmt := rfl
@[simp] theorem modCore_outbox (s : State) (c : Nat) (f : Core → Core) : (modCore s c f).outbox = s.outbox := rfl
@[simp] theorem modCore_errors (s : State) (c : Nat) (f : Core → Core) : (modCore s c f).errors = s.errors := rfl
@[simp] theorem modCore_clocks (s : State) (c : Nat) (f : Core → Core) : (modCore s c f).clocks = s.clocks := rfl
@[simp] theorem modCore_agenda (s : State) (c : Nat) (f : Core → Core) : (modCore s c f).agenda = s.agenda := rfl
@[simp] theorem modCore_cur (s : State) (c : Nat) (f : Core → Core) : (modCore s c f).cur = s.cur := rfl
@[simp] theorem modCore_obtained (s : State) (c : Nat) (f : Core → Core) : (modCore s c f).obtained = s.obtained := rfl
@[simp] theorem modCore_turnNo (s : State) (c : Nat) (f : Core → Core) : (modCore s c f).turnNo = s.turnNo := rfl
@[simp] theorem modCore_freeNo (s : State) (c : Nat) (f : Core → Core) : (modCore s c f).freeNo = s.freeNo := rfl
@[simp] theorem modCore_progress (s : State) (c : Nat) (f : Core → Core) : (modCore s c f).progress = s.progress := rfl
@[simp] theorem modCore_nextId (s : State) (c : Nat) (f : Core → Core) : (modCore s c f).nextId = s.nextId := rfl

/-! ### A new identity -/

@[simp] theorem freshId_mem (s : State) : (freshId s).2.mem = s.mem := rfl
@[simp] theorem freshId_poison (s : State) : (freshId s).2.poison = s.poison := rfl
@[simp] theorem freshId_cores (s : State) : (freshId s).2.cores = s.cores := rfl
@[simp] theorem freshId_groups (s : State) : (freshId s).2.groups = s.groups := rfl
@[simp] theorem freshId_rowBlocks (s : State) : (freshId s).2.rowBlocks = s.rowBlocks := rfl
@[simp] theorem freshId_teams (s : State) : (freshId s).2.teams = s.teams := rfl
@[simp] theorem freshId_spawned (s : State) : (freshId s).2.spawned = s.spawned := rfl
@[simp] theorem freshId_launches (s : State) : (freshId s).2.launches = s.launches := rfl
@[simp] theorem freshId_queues (s : State) : (freshId s).2.queues = s.queues := rfl
@[simp] theorem freshId_contexts (s : State) : (freshId s).2.contexts = s.contexts := rfl
@[simp] theorem freshId_dist (s : State) : (freshId s).2.dist = s.dist := rfl
@[simp] theorem freshId_tlb2 (s : State) : (freshId s).2.tlb2 = s.tlb2 := rfl
@[simp] theorem freshId_walks (s : State) : (freshId s).2.walks = s.walks := rfl
@[simp] theorem freshId_walkFaults (s : State) : (freshId s).2.walkFaults = s.walkFaults := rfl
@[simp] theorem freshId_cicache (s : State) : (freshId s).2.cicache = s.cicache := rfl
@[simp] theorem freshId_outs (s : State) : (freshId s).2.outs = s.outs := rfl
@[simp] theorem freshId_writeBacks (s : State) : (freshId s).2.writeBacks = s.writeBacks := rfl
@[simp] theorem freshId_notices (s : State) : (freshId s).2.notices = s.notices := rfl
@[simp] theorem freshId_owners (s : State) : (freshId s).2.owners = s.owners := rfl
@[simp] theorem freshId_promotions (s : State) : (freshId s).2.promotions = s.promotions := rfl
@[simp] theorem freshId_trains (s : State) : (freshId s).2.trains = s.trains := rfl
@[simp] theorem freshId_sources (s : State) : (freshId s).2.sources = s.sources := rfl
@[simp] theorem freshId_golden (s : State) : (freshId s).2.golden = s.golden := rfl
@[simp] theorem freshId_goldenTrain (s : State) : (freshId s).2.goldenTrain = s.goldenTrain := rfl
@[simp] theorem freshId_goldenHold (s : State) : (freshId s).2.goldenHold = s.goldenHold := rfl
@[simp] theorem freshId_notes (s : State) : (freshId s).2.notes = s.notes := rfl
@[simp] theorem freshId_copies (s : State) : (freshId s).2.copies = s.copies := rfl
@[simp] theorem freshId_btes (s : State) : (freshId s).2.btes = s.btes := rfl
@[simp] theorem freshId_posts (s : State) : (freshId s).2.posts = s.posts := rfl
@[simp] theorem freshId_collectives (s : State) : (freshId s).2.collectives = s.collectives := rfl
@[simp] theorem freshId_collCounts (s : State) : (freshId s).2.collCounts = s.collCounts := rfl
@[simp] theorem freshId_protocols (s : State) : (freshId s).2.protocols = s.protocols := rfl
@[simp] theorem freshId_convs (s : State) : (freshId s).2.convs = s.convs := rfl
@[simp] theorem freshId_convRequests (s : State) : (freshId s).2.convRequests = s.convRequests := rfl
@[simp] theorem freshId_fabric (s : State) : (freshId s).2.fabric = s.fabric := rfl
@[simp] theorem freshId_ports (s : State) : (freshId s).2.ports = s.ports := rfl
@[simp] theorem freshId_boot (s : State) : (freshId s).2.boot = s.boot := rfl
@[simp] theorem freshId_measures (s : State) : (freshId s).2.measures = s.measures := rfl
@[simp] theorem freshId_injections (s : State) : (freshId s).2.injections = s.injections := rfl
@[simp] theorem freshId_stops (s : State) : (freshId s).2.stops = s.stops := rfl
@[simp] theorem freshId_testing (s : State) : (freshId s).2.testing = s.testing := rfl
@[simp] theorem freshId_mgmt (s : State) : (freshId s).2.mgmt = s.mgmt := rfl
@[simp] theorem freshId_outbox (s : State) : (freshId s).2.outbox = s.outbox := rfl
@[simp] theorem freshId_errors (s : State) : (freshId s).2.errors = s.errors := rfl
@[simp] theorem freshId_clocks (s : State) : (freshId s).2.clocks = s.clocks := rfl
@[simp] theorem freshId_agenda (s : State) : (freshId s).2.agenda = s.agenda := rfl
@[simp] theorem freshId_cur (s : State) : (freshId s).2.cur = s.cur := rfl
@[simp] theorem freshId_obtained (s : State) : (freshId s).2.obtained = s.obtained := rfl
@[simp] theorem freshId_turnNo (s : State) : (freshId s).2.turnNo = s.turnNo := rfl
@[simp] theorem freshId_freeNo (s : State) : (freshId s).2.freeNo = s.freeNo := rfl
@[simp] theorem freshId_progress (s : State) : (freshId s).2.progress = s.progress := rfl
@[simp] theorem freshId_nextId (s : State) : (freshId s).2.nextId = s.nextId + 1 := rfl

/-! ### An event for the management core -/

@[simp] theorem tellMgmt_mem (s : State) (k : Nat) (l : List Nat) : (tellMgmt s k l).mem = s.mem := rfl
@[simp] theorem tellMgmt_poison (s : State) (k : Nat) (l : List Nat) : (tellMgmt s k l).poison = s.poison := rfl
@[simp] theorem tellMgmt_cores (s : State) (k : Nat) (l : List Nat) : (tellMgmt s k l).cores = s.cores := rfl
@[simp] theorem tellMgmt_groups (s : State) (k : Nat) (l : List Nat) : (tellMgmt s k l).groups = s.groups := rfl
@[simp] theorem tellMgmt_rowBlocks (s : State) (k : Nat) (l : List Nat) : (tellMgmt s k l).rowBlocks = s.rowBlocks := rfl
@[simp] theorem tellMgmt_teams (s : State) (k : Nat) (l : List Nat) : (tellMgmt s k l).teams = s.teams := rfl
@[simp] theorem tellMgmt_spawned (s : State) (k : Nat) (l : List Nat) : (tellMgmt s k l).spawned = s.spawned := rfl
@[simp] theorem tellMgmt_launches (s : State) (k : Nat) (l : List Nat) : (tellMgmt s k l).launches = s.launches := rfl
@[simp] theorem tellMgmt_queues (s : State) (k : Nat) (l : List Nat) : (tellMgmt s k l).queues = s.queues := rfl
@[simp] theorem tellMgmt_contexts (s : State) (k : Nat) (l : List Nat) : (tellMgmt s k l).contexts = s.contexts := rfl
@[simp] theorem tellMgmt_dist (s : State) (k : Nat) (l : List Nat) : (tellMgmt s k l).dist = s.dist := rfl
@[simp] theorem tellMgmt_tlb2 (s : State) (k : Nat) (l : List Nat) : (tellMgmt s k l).tlb2 = s.tlb2 := rfl
@[simp] theorem tellMgmt_walks (s : State) (k : Nat) (l : List Nat) : (tellMgmt s k l).walks = s.walks := rfl
@[simp] theorem tellMgmt_walkFaults (s : State) (k : Nat) (l : List Nat) : (tellMgmt s k l).walkFaults = s.walkFaults := rfl
@[simp] theorem tellMgmt_cicache (s : State) (k : Nat) (l : List Nat) : (tellMgmt s k l).cicache = s.cicache := rfl
@[simp] theorem tellMgmt_outs (s : State) (k : Nat) (l : List Nat) : (tellMgmt s k l).outs = s.outs := rfl
@[simp] theorem tellMgmt_writeBacks (s : State) (k : Nat) (l : List Nat) : (tellMgmt s k l).writeBacks = s.writeBacks := rfl
@[simp] theorem tellMgmt_notices (s : State) (k : Nat) (l : List Nat) : (tellMgmt s k l).notices = s.notices := rfl
@[simp] theorem tellMgmt_owners (s : State) (k : Nat) (l : List Nat) : (tellMgmt s k l).owners = s.owners := rfl
@[simp] theorem tellMgmt_promotions (s : State) (k : Nat) (l : List Nat) : (tellMgmt s k l).promotions = s.promotions := rfl
@[simp] theorem tellMgmt_trains (s : State) (k : Nat) (l : List Nat) : (tellMgmt s k l).trains = s.trains := rfl
@[simp] theorem tellMgmt_sources (s : State) (k : Nat) (l : List Nat) : (tellMgmt s k l).sources = s.sources := rfl
@[simp] theorem tellMgmt_golden (s : State) (k : Nat) (l : List Nat) : (tellMgmt s k l).golden = s.golden := rfl
@[simp] theorem tellMgmt_goldenTrain (s : State) (k : Nat) (l : List Nat) : (tellMgmt s k l).goldenTrain = s.goldenTrain := rfl
@[simp] theorem tellMgmt_goldenHold (s : State) (k : Nat) (l : List Nat) : (tellMgmt s k l).goldenHold = s.goldenHold := rfl
@[simp] theorem tellMgmt_notes (s : State) (k : Nat) (l : List Nat) : (tellMgmt s k l).notes = s.notes := rfl
@[simp] theorem tellMgmt_copies (s : State) (k : Nat) (l : List Nat) : (tellMgmt s k l).copies = s.copies := rfl
@[simp] theorem tellMgmt_btes (s : State) (k : Nat) (l : List Nat) : (tellMgmt s k l).btes = s.btes := rfl
@[simp] theorem tellMgmt_posts (s : State) (k : Nat) (l : List Nat) : (tellMgmt s k l).posts = s.posts := rfl
@[simp] theorem tellMgmt_collectives (s : State) (k : Nat) (l : List Nat) : (tellMgmt s k l).collectives = s.collectives := rfl
@[simp] theorem tellMgmt_collCounts (s : State) (k : Nat) (l : List Nat) : (tellMgmt s k l).collCounts = s.collCounts := rfl
@[simp] theorem tellMgmt_protocols (s : State) (k : Nat) (l : List Nat) : (tellMgmt s k l).protocols = s.protocols := rfl
@[simp] theorem tellMgmt_convs (s : State) (k : Nat) (l : List Nat) : (tellMgmt s k l).convs = s.convs := rfl
@[simp] theorem tellMgmt_convRequests (s : State) (k : Nat) (l : List Nat) : (tellMgmt s k l).convRequests = s.convRequests := rfl
@[simp] theorem tellMgmt_fabric (s : State) (k : Nat) (l : List Nat) : (tellMgmt s k l).fabric = s.fabric := rfl
@[simp] theorem tellMgmt_ports (s : State) (k : Nat) (l : List Nat) : (tellMgmt s k l).ports = s.ports := rfl
@[simp] theorem tellMgmt_boot (s : State) (k : Nat) (l : List Nat) : (tellMgmt s k l).boot = s.boot := rfl
@[simp] theorem tellMgmt_measures (s : State) (k : Nat) (l : List Nat) : (tellMgmt s k l).measures = s.measures := rfl
@[simp] theorem tellMgmt_injections (s : State) (k : Nat) (l : List Nat) : (tellMgmt s k l).injections = s.injections := rfl
@[simp] theorem tellMgmt_stops (s : State) (k : Nat) (l : List Nat) : (tellMgmt s k l).stops = s.stops := rfl
@[simp] theorem tellMgmt_testing (s : State) (k : Nat) (l : List Nat) : (tellMgmt s k l).testing = s.testing := rfl
@[simp] theorem tellMgmt_mgmt (s : State) (k : Nat) (l : List Nat) : (tellMgmt s k l).mgmt = s.mgmt ++ [{ kind := k, nums := l }] := rfl
@[simp] theorem tellMgmt_outbox (s : State) (k : Nat) (l : List Nat) : (tellMgmt s k l).outbox = s.outbox := rfl
@[simp] theorem tellMgmt_errors (s : State) (k : Nat) (l : List Nat) : (tellMgmt s k l).errors = s.errors := rfl
@[simp] theorem tellMgmt_clocks (s : State) (k : Nat) (l : List Nat) : (tellMgmt s k l).clocks = s.clocks := rfl
@[simp] theorem tellMgmt_agenda (s : State) (k : Nat) (l : List Nat) : (tellMgmt s k l).agenda = s.agenda := rfl
@[simp] theorem tellMgmt_cur (s : State) (k : Nat) (l : List Nat) : (tellMgmt s k l).cur = s.cur := rfl
@[simp] theorem tellMgmt_obtained (s : State) (k : Nat) (l : List Nat) : (tellMgmt s k l).obtained = s.obtained := rfl
@[simp] theorem tellMgmt_turnNo (s : State) (k : Nat) (l : List Nat) : (tellMgmt s k l).turnNo = s.turnNo := rfl
@[simp] theorem tellMgmt_freeNo (s : State) (k : Nat) (l : List Nat) : (tellMgmt s k l).freeNo = s.freeNo := rfl
@[simp] theorem tellMgmt_progress (s : State) (k : Nat) (l : List Nat) : (tellMgmt s k l).progress = s.progress := rfl
@[simp] theorem tellMgmt_nextId (s : State) (k : Nat) (l : List Nat) : (tellMgmt s k l).nextId = s.nextId := rfl

/-! ### A message that leaves -/

@[simp] theorem sendRaw_mem (s : State) (p : Packet) : (sendRaw s p).mem = s.mem := rfl
@[simp] theorem sendRaw_poison (s : State) (p : Packet) : (sendRaw s p).poison = s.poison := rfl
@[simp] theorem sendRaw_cores (s : State) (p : Packet) : (sendRaw s p).cores = s.cores := rfl
@[simp] theorem sendRaw_groups (s : State) (p : Packet) : (sendRaw s p).groups = s.groups := rfl
@[simp] theorem sendRaw_rowBlocks (s : State) (p : Packet) : (sendRaw s p).rowBlocks = s.rowBlocks := rfl
@[simp] theorem sendRaw_teams (s : State) (p : Packet) : (sendRaw s p).teams = s.teams := rfl
@[simp] theorem sendRaw_spawned (s : State) (p : Packet) : (sendRaw s p).spawned = s.spawned := rfl
@[simp] theorem sendRaw_launches (s : State) (p : Packet) : (sendRaw s p).launches = s.launches := rfl
@[simp] theorem sendRaw_queues (s : State) (p : Packet) : (sendRaw s p).queues = s.queues := rfl
@[simp] theorem sendRaw_contexts (s : State) (p : Packet) : (sendRaw s p).contexts = s.contexts := rfl
@[simp] theorem sendRaw_dist (s : State) (p : Packet) : (sendRaw s p).dist = s.dist := rfl
@[simp] theorem sendRaw_tlb2 (s : State) (p : Packet) : (sendRaw s p).tlb2 = s.tlb2 := rfl
@[simp] theorem sendRaw_walks (s : State) (p : Packet) : (sendRaw s p).walks = s.walks := rfl
@[simp] theorem sendRaw_walkFaults (s : State) (p : Packet) : (sendRaw s p).walkFaults = s.walkFaults := rfl
@[simp] theorem sendRaw_cicache (s : State) (p : Packet) : (sendRaw s p).cicache = s.cicache := rfl
@[simp] theorem sendRaw_outs (s : State) (p : Packet) : (sendRaw s p).outs = s.outs := rfl
@[simp] theorem sendRaw_writeBacks (s : State) (p : Packet) : (sendRaw s p).writeBacks = s.writeBacks := rfl
@[simp] theorem sendRaw_notices (s : State) (p : Packet) : (sendRaw s p).notices = s.notices := rfl
@[simp] theorem sendRaw_owners (s : State) (p : Packet) : (sendRaw s p).owners = s.owners := rfl
@[simp] theorem sendRaw_promotions (s : State) (p : Packet) : (sendRaw s p).promotions = s.promotions := rfl
@[simp] theorem sendRaw_trains (s : State) (p : Packet) : (sendRaw s p).trains = s.trains := rfl
@[simp] theorem sendRaw_sources (s : State) (p : Packet) : (sendRaw s p).sources = s.sources := rfl
@[simp] theorem sendRaw_golden (s : State) (p : Packet) : (sendRaw s p).golden = s.golden := rfl
@[simp] theorem sendRaw_goldenTrain (s : State) (p : Packet) : (sendRaw s p).goldenTrain = s.goldenTrain := rfl
@[simp] theorem sendRaw_goldenHold (s : State) (p : Packet) : (sendRaw s p).goldenHold = s.goldenHold := rfl
@[simp] theorem sendRaw_notes (s : State) (p : Packet) : (sendRaw s p).notes = s.notes := rfl
@[simp] theorem sendRaw_copies (s : State) (p : Packet) : (sendRaw s p).copies = s.copies := rfl
@[simp] theorem sendRaw_btes (s : State) (p : Packet) : (sendRaw s p).btes = s.btes := rfl
@[simp] theorem sendRaw_posts (s : State) (p : Packet) : (sendRaw s p).posts = s.posts := rfl
@[simp] theorem sendRaw_collectives (s : State) (p : Packet) : (sendRaw s p).collectives = s.collectives := rfl
@[simp] theorem sendRaw_collCounts (s : State) (p : Packet) : (sendRaw s p).collCounts = s.collCounts := rfl
@[simp] theorem sendRaw_protocols (s : State) (p : Packet) : (sendRaw s p).protocols = s.protocols := rfl
@[simp] theorem sendRaw_convs (s : State) (p : Packet) : (sendRaw s p).convs = s.convs := rfl
@[simp] theorem sendRaw_convRequests (s : State) (p : Packet) : (sendRaw s p).convRequests = s.convRequests := rfl
@[simp] theorem sendRaw_fabric (s : State) (p : Packet) : (sendRaw s p).fabric = s.fabric := rfl
@[simp] theorem sendRaw_ports (s : State) (p : Packet) : (sendRaw s p).ports = s.ports := rfl
@[simp] theorem sendRaw_boot (s : State) (p : Packet) : (sendRaw s p).boot = s.boot := rfl
@[simp] theorem sendRaw_measures (s : State) (p : Packet) : (sendRaw s p).measures = s.measures := rfl
@[simp] theorem sendRaw_injections (s : State) (p : Packet) : (sendRaw s p).injections = s.injections := rfl
@[simp] theorem sendRaw_stops (s : State) (p : Packet) : (sendRaw s p).stops = s.stops := rfl
@[simp] theorem sendRaw_testing (s : State) (p : Packet) : (sendRaw s p).testing = s.testing := rfl
@[simp] theorem sendRaw_mgmt (s : State) (p : Packet) : (sendRaw s p).mgmt = s.mgmt := rfl
@[simp] theorem sendRaw_outbox (s : State) (p : Packet) : (sendRaw s p).outbox = s.outbox ++ [p] := rfl
@[simp] theorem sendRaw_errors (s : State) (p : Packet) : (sendRaw s p).errors = s.errors := rfl
@[simp] theorem sendRaw_clocks (s : State) (p : Packet) : (sendRaw s p).clocks = s.clocks := rfl
@[simp] theorem sendRaw_agenda (s : State) (p : Packet) : (sendRaw s p).agenda = s.agenda := rfl
@[simp] theorem sendRaw_cur (s : State) (p : Packet) : (sendRaw s p).cur = s.cur := rfl
@[simp] theorem sendRaw_obtained (s : State) (p : Packet) : (sendRaw s p).obtained = s.obtained := rfl
@[simp] theorem sendRaw_turnNo (s : State) (p : Packet) : (sendRaw s p).turnNo = s.turnNo := rfl
@[simp] theorem sendRaw_freeNo (s : State) (p : Packet) : (sendRaw s p).freeNo = s.freeNo := rfl
@[simp] theorem sendRaw_progress (s : State) (p : Packet) : (sendRaw s p).progress = s.progress := rfl
@[simp] theorem sendRaw_nextId (s : State) (p : Packet) : (sendRaw s p).nextId = s.nextId := rfl

/-! ### A corrected error -/

@[simp] theorem countError_mem (s : State) (st : Structure) : (countError s st).mem = s.mem := rfl
@[simp] theorem countError_poison (s : State) (st : Structure) : (countError s st).poison = s.poison := rfl
@[simp] theorem countError_cores (s : State) (st : Structure) : (countError s st).cores = s.cores := rfl
@[simp] theorem countError_groups (s : State) (st : Structure) : (countError s st).groups = s.groups := rfl
@[simp] theorem countError_rowBlocks (s : State) (st : Structure) : (countError s st).rowBlocks = s.rowBlocks := rfl
@[simp] theorem countError_teams (s : State) (st : Structure) : (countError s st).teams = s.teams := rfl
@[simp] theorem countError_spawned (s : State) (st : Structure) : (countError s st).spawned = s.spawned := rfl
@[simp] theorem countError_launches (s : State) (st : Structure) : (countError s st).launches = s.launches := rfl
@[simp] theorem countError_queues (s : State) (st : Structure) : (countError s st).queues = s.queues := rfl
@[simp] theorem countError_contexts (s : State) (st : Structure) : (countError s st).contexts = s.contexts := rfl
@[simp] theorem countError_dist (s : State) (st : Structure) : (countError s st).dist = s.dist := rfl
@[simp] theorem countError_tlb2 (s : State) (st : Structure) : (countError s st).tlb2 = s.tlb2 := rfl
@[simp] theorem countError_walks (s : State) (st : Structure) : (countError s st).walks = s.walks := rfl
@[simp] theorem countError_walkFaults (s : State) (st : Structure) : (countError s st).walkFaults = s.walkFaults := rfl
@[simp] theorem countError_cicache (s : State) (st : Structure) : (countError s st).cicache = s.cicache := rfl
@[simp] theorem countError_outs (s : State) (st : Structure) : (countError s st).outs = s.outs := rfl
@[simp] theorem countError_writeBacks (s : State) (st : Structure) : (countError s st).writeBacks = s.writeBacks := rfl
@[simp] theorem countError_notices (s : State) (st : Structure) : (countError s st).notices = s.notices := rfl
@[simp] theorem countError_owners (s : State) (st : Structure) : (countError s st).owners = s.owners := rfl
@[simp] theorem countError_promotions (s : State) (st : Structure) : (countError s st).promotions = s.promotions := rfl
@[simp] theorem countError_trains (s : State) (st : Structure) : (countError s st).trains = s.trains := rfl
@[simp] theorem countError_sources (s : State) (st : Structure) : (countError s st).sources = s.sources := rfl
@[simp] theorem countError_golden (s : State) (st : Structure) : (countError s st).golden = s.golden := rfl
@[simp] theorem countError_goldenTrain (s : State) (st : Structure) : (countError s st).goldenTrain = s.goldenTrain := rfl
@[simp] theorem countError_goldenHold (s : State) (st : Structure) : (countError s st).goldenHold = s.goldenHold := rfl
@[simp] theorem countError_notes (s : State) (st : Structure) : (countError s st).notes = s.notes := rfl
@[simp] theorem countError_copies (s : State) (st : Structure) : (countError s st).copies = s.copies := rfl
@[simp] theorem countError_btes (s : State) (st : Structure) : (countError s st).btes = s.btes := rfl
@[simp] theorem countError_posts (s : State) (st : Structure) : (countError s st).posts = s.posts := rfl
@[simp] theorem countError_collectives (s : State) (st : Structure) : (countError s st).collectives = s.collectives := rfl
@[simp] theorem countError_collCounts (s : State) (st : Structure) : (countError s st).collCounts = s.collCounts := rfl
@[simp] theorem countError_protocols (s : State) (st : Structure) : (countError s st).protocols = s.protocols := rfl
@[simp] theorem countError_convs (s : State) (st : Structure) : (countError s st).convs = s.convs := rfl
@[simp] theorem countError_convRequests (s : State) (st : Structure) : (countError s st).convRequests = s.convRequests := rfl
@[simp] theorem countError_fabric (s : State) (st : Structure) : (countError s st).fabric = s.fabric := rfl
@[simp] theorem countError_ports (s : State) (st : Structure) : (countError s st).ports = s.ports := rfl
@[simp] theorem countError_boot (s : State) (st : Structure) : (countError s st).boot = s.boot := rfl
@[simp] theorem countError_measures (s : State) (st : Structure) : (countError s st).measures = s.measures := rfl
@[simp] theorem countError_injections (s : State) (st : Structure) : (countError s st).injections = s.injections := rfl
@[simp] theorem countError_stops (s : State) (st : Structure) : (countError s st).stops = s.stops := rfl
@[simp] theorem countError_testing (s : State) (st : Structure) : (countError s st).testing = s.testing := rfl
@[simp] theorem countError_mgmt (s : State) (st : Structure) : (countError s st).mgmt = s.mgmt := rfl
@[simp] theorem countError_outbox (s : State) (st : Structure) : (countError s st).outbox = s.outbox := rfl
@[simp] theorem countError_errors (s : State) (st : Structure) : (countError s st).errors = bump st s.errors := rfl
@[simp] theorem countError_clocks (s : State) (st : Structure) : (countError s st).clocks = s.clocks := rfl
@[simp] theorem countError_agenda (s : State) (st : Structure) : (countError s st).agenda = s.agenda := rfl
@[simp] theorem countError_cur (s : State) (st : Structure) : (countError s st).cur = s.cur := rfl
@[simp] theorem countError_obtained (s : State) (st : Structure) : (countError s st).obtained = s.obtained := rfl
@[simp] theorem countError_turnNo (s : State) (st : Structure) : (countError s st).turnNo = s.turnNo := rfl
@[simp] theorem countError_freeNo (s : State) (st : Structure) : (countError s st).freeNo = s.freeNo := rfl
@[simp] theorem countError_progress (s : State) (st : Structure) : (countError s st).progress = s.progress := rfl
@[simp] theorem countError_nextId (s : State) (st : Structure) : (countError s st).nextId = s.nextId := rfl

/-! ### Bytes of DRAM -/

@[simp] theorem memPut_mem (s : State) (a : Nat) (b : List Byte) (bad : Bool) : (memPut s a b bad).mem = mwrite s.mem a b := rfl
@[simp] theorem memPut_cores (s : State) (a : Nat) (b : List Byte) (bad : Bool) : (memPut s a b bad).cores = s.cores := rfl
@[simp] theorem memPut_groups (s : State) (a : Nat) (b : List Byte) (bad : Bool) : (memPut s a b bad).groups = s.groups := rfl
@[simp] theorem memPut_rowBlocks (s : State) (a : Nat) (b : List Byte) (bad : Bool) : (memPut s a b bad).rowBlocks = s.rowBlocks := rfl
@[simp] theorem memPut_teams (s : State) (a : Nat) (b : List Byte) (bad : Bool) : (memPut s a b bad).teams = s.teams := rfl
@[simp] theorem memPut_spawned (s : State) (a : Nat) (b : List Byte) (bad : Bool) : (memPut s a b bad).spawned = s.spawned := rfl
@[simp] theorem memPut_launches (s : State) (a : Nat) (b : List Byte) (bad : Bool) : (memPut s a b bad).launches = s.launches := rfl
@[simp] theorem memPut_queues (s : State) (a : Nat) (b : List Byte) (bad : Bool) : (memPut s a b bad).queues = s.queues := rfl
@[simp] theorem memPut_contexts (s : State) (a : Nat) (b : List Byte) (bad : Bool) : (memPut s a b bad).contexts = s.contexts := rfl
@[simp] theorem memPut_dist (s : State) (a : Nat) (b : List Byte) (bad : Bool) : (memPut s a b bad).dist = s.dist := rfl
@[simp] theorem memPut_tlb2 (s : State) (a : Nat) (b : List Byte) (bad : Bool) : (memPut s a b bad).tlb2 = s.tlb2 := rfl
@[simp] theorem memPut_walks (s : State) (a : Nat) (b : List Byte) (bad : Bool) : (memPut s a b bad).walks = s.walks := rfl
@[simp] theorem memPut_walkFaults (s : State) (a : Nat) (b : List Byte) (bad : Bool) : (memPut s a b bad).walkFaults = s.walkFaults := rfl
@[simp] theorem memPut_cicache (s : State) (a : Nat) (b : List Byte) (bad : Bool) : (memPut s a b bad).cicache = s.cicache := rfl
@[simp] theorem memPut_outs (s : State) (a : Nat) (b : List Byte) (bad : Bool) : (memPut s a b bad).outs = s.outs := rfl
@[simp] theorem memPut_writeBacks (s : State) (a : Nat) (b : List Byte) (bad : Bool) : (memPut s a b bad).writeBacks = s.writeBacks := rfl
@[simp] theorem memPut_notices (s : State) (a : Nat) (b : List Byte) (bad : Bool) : (memPut s a b bad).notices = s.notices := rfl
@[simp] theorem memPut_owners (s : State) (a : Nat) (b : List Byte) (bad : Bool) : (memPut s a b bad).owners = s.owners := rfl
@[simp] theorem memPut_promotions (s : State) (a : Nat) (b : List Byte) (bad : Bool) : (memPut s a b bad).promotions = s.promotions := rfl
@[simp] theorem memPut_trains (s : State) (a : Nat) (b : List Byte) (bad : Bool) : (memPut s a b bad).trains = s.trains := rfl
@[simp] theorem memPut_sources (s : State) (a : Nat) (b : List Byte) (bad : Bool) : (memPut s a b bad).sources = s.sources := rfl
@[simp] theorem memPut_golden (s : State) (a : Nat) (b : List Byte) (bad : Bool) : (memPut s a b bad).golden = s.golden := rfl
@[simp] theorem memPut_goldenTrain (s : State) (a : Nat) (b : List Byte) (bad : Bool) : (memPut s a b bad).goldenTrain = s.goldenTrain := rfl
@[simp] theorem memPut_goldenHold (s : State) (a : Nat) (b : List Byte) (bad : Bool) : (memPut s a b bad).goldenHold = s.goldenHold := rfl
@[simp] theorem memPut_copies (s : State) (a : Nat) (b : List Byte) (bad : Bool) : (memPut s a b bad).copies = s.copies := rfl
@[simp] theorem memPut_btes (s : State) (a : Nat) (b : List Byte) (bad : Bool) : (memPut s a b bad).btes = s.btes := rfl
@[simp] theorem memPut_posts (s : State) (a : Nat) (b : List Byte) (bad : Bool) : (memPut s a b bad).posts = s.posts := rfl
@[simp] theorem memPut_collectives (s : State) (a : Nat) (b : List Byte) (bad : Bool) : (memPut s a b bad).collectives = s.collectives := rfl
@[simp] theorem memPut_collCounts (s : State) (a : Nat) (b : List Byte) (bad : Bool) : (memPut s a b bad).collCounts = s.collCounts := rfl
@[simp] theorem memPut_protocols (s : State) (a : Nat) (b : List Byte) (bad : Bool) : (memPut s a b bad).protocols = s.protocols := rfl
@[simp] theorem memPut_convs (s : State) (a : Nat) (b : List Byte) (bad : Bool) : (memPut s a b bad).convs = s.convs := rfl
@[simp] theorem memPut_convRequests (s : State) (a : Nat) (b : List Byte) (bad : Bool) : (memPut s a b bad).convRequests = s.convRequests := rfl
@[simp] theorem memPut_fabric (s : State) (a : Nat) (b : List Byte) (bad : Bool) : (memPut s a b bad).fabric = s.fabric := rfl
@[simp] theorem memPut_ports (s : State) (a : Nat) (b : List Byte) (bad : Bool) : (memPut s a b bad).ports = s.ports := rfl
@[simp] theorem memPut_boot (s : State) (a : Nat) (b : List Byte) (bad : Bool) : (memPut s a b bad).boot = s.boot := rfl
@[simp] theorem memPut_measures (s : State) (a : Nat) (b : List Byte) (bad : Bool) : (memPut s a b bad).measures = s.measures := rfl
@[simp] theorem memPut_injections (s : State) (a : Nat) (b : List Byte) (bad : Bool) : (memPut s a b bad).injections = s.injections := rfl
@[simp] theorem memPut_stops (s : State) (a : Nat) (b : List Byte) (bad : Bool) : (memPut s a b bad).stops = s.stops := rfl
@[simp] theorem memPut_testing (s : State) (a : Nat) (b : List Byte) (bad : Bool) : (memPut s a b bad).testing = s.testing := rfl
@[simp] theorem memPut_mgmt (s : State) (a : Nat) (b : List Byte) (bad : Bool) : (memPut s a b bad).mgmt = s.mgmt := rfl
@[simp] theorem memPut_outbox (s : State) (a : Nat) (b : List Byte) (bad : Bool) : (memPut s a b bad).outbox = s.outbox := rfl
@[simp] theorem memPut_errors (s : State) (a : Nat) (b : List Byte) (bad : Bool) : (memPut s a b bad).errors = s.errors := rfl
@[simp] theorem memPut_clocks (s : State) (a : Nat) (b : List Byte) (bad : Bool) : (memPut s a b bad).clocks = s.clocks := rfl
@[simp] theorem memPut_agenda (s : State) (a : Nat) (b : List Byte) (bad : Bool) : (memPut s a b bad).agenda = s.agenda := rfl
@[simp] theorem memPut_cur (s : State) (a : Nat) (b : List Byte) (bad : Bool) : (memPut s a b bad).cur = s.cur := rfl
@[simp] theorem memPut_obtained (s : State) (a : Nat) (b : List Byte) (bad : Bool) : (memPut s a b bad).obtained = s.obtained := rfl
@[simp] theorem memPut_turnNo (s : State) (a : Nat) (b : List Byte) (bad : Bool) : (memPut s a b bad).turnNo = s.turnNo := rfl
@[simp] theorem memPut_freeNo (s : State) (a : Nat) (b : List Byte) (bad : Bool) : (memPut s a b bad).freeNo = s.freeNo := rfl
@[simp] theorem memPut_progress (s : State) (a : Nat) (b : List Byte) (bad : Bool) : (memPut s a b bad).progress = s.progress := rfl
@[simp] theorem memPut_nextId (s : State) (a : Nat) (b : List Byte) (bad : Bool) : (memPut s a b bad).nextId = s.nextId := rfl

/-! ### The mark of progress -/

@[simp] theorem progressed_mem (s : State) : (progressed s).mem = s.mem := rfl
@[simp] theorem progressed_poison (s : State) : (progressed s).poison = s.poison := rfl
@[simp] theorem progressed_cores (s : State) : (progressed s).cores = s.cores := rfl
@[simp] theorem progressed_groups (s : State) : (progressed s).groups = s.groups := rfl
@[simp] theorem progressed_rowBlocks (s : State) : (progressed s).rowBlocks = s.rowBlocks := rfl
@[simp] theorem progressed_teams (s : State) : (progressed s).teams = s.teams := rfl
@[simp] theorem progressed_spawned (s : State) : (progressed s).spawned = s.spawned := rfl
@[simp] theorem progressed_launches (s : State) : (progressed s).launches = s.launches := rfl
@[simp] theorem progressed_queues (s : State) : (progressed s).queues = s.queues := rfl
@[simp] theorem progressed_contexts (s : State) : (progressed s).contexts = s.contexts := rfl
@[simp] theorem progressed_dist (s : State) : (progressed s).dist = s.dist := rfl
@[simp] theorem progressed_tlb2 (s : State) : (progressed s).tlb2 = s.tlb2 := rfl
@[simp] theorem progressed_walks (s : State) : (progressed s).walks = s.walks := rfl
@[simp] theorem progressed_walkFaults (s : State) : (progressed s).walkFaults = s.walkFaults := rfl
@[simp] theorem progressed_cicache (s : State) : (progressed s).cicache = s.cicache := rfl
@[simp] theorem progressed_outs (s : State) : (progressed s).outs = s.outs := rfl
@[simp] theorem progressed_writeBacks (s : State) : (progressed s).writeBacks = s.writeBacks := rfl
@[simp] theorem progressed_notices (s : State) : (progressed s).notices = s.notices := rfl
@[simp] theorem progressed_owners (s : State) : (progressed s).owners = s.owners := rfl
@[simp] theorem progressed_promotions (s : State) : (progressed s).promotions = s.promotions := rfl
@[simp] theorem progressed_trains (s : State) : (progressed s).trains = s.trains := rfl
@[simp] theorem progressed_sources (s : State) : (progressed s).sources = s.sources := rfl
@[simp] theorem progressed_golden (s : State) : (progressed s).golden = s.golden := rfl
@[simp] theorem progressed_goldenTrain (s : State) : (progressed s).goldenTrain = s.goldenTrain := rfl
@[simp] theorem progressed_goldenHold (s : State) : (progressed s).goldenHold = s.goldenHold := rfl
@[simp] theorem progressed_notes (s : State) : (progressed s).notes = s.notes := rfl
@[simp] theorem progressed_copies (s : State) : (progressed s).copies = s.copies := rfl
@[simp] theorem progressed_btes (s : State) : (progressed s).btes = s.btes := rfl
@[simp] theorem progressed_posts (s : State) : (progressed s).posts = s.posts := rfl
@[simp] theorem progressed_collectives (s : State) : (progressed s).collectives = s.collectives := rfl
@[simp] theorem progressed_collCounts (s : State) : (progressed s).collCounts = s.collCounts := rfl
@[simp] theorem progressed_protocols (s : State) : (progressed s).protocols = s.protocols := rfl
@[simp] theorem progressed_convs (s : State) : (progressed s).convs = s.convs := rfl
@[simp] theorem progressed_convRequests (s : State) : (progressed s).convRequests = s.convRequests := rfl
@[simp] theorem progressed_fabric (s : State) : (progressed s).fabric = s.fabric := rfl
@[simp] theorem progressed_ports (s : State) : (progressed s).ports = s.ports := rfl
@[simp] theorem progressed_boot (s : State) : (progressed s).boot = s.boot := rfl
@[simp] theorem progressed_measures (s : State) : (progressed s).measures = s.measures := rfl
@[simp] theorem progressed_injections (s : State) : (progressed s).injections = s.injections := rfl
@[simp] theorem progressed_stops (s : State) : (progressed s).stops = s.stops := rfl
@[simp] theorem progressed_testing (s : State) : (progressed s).testing = s.testing := rfl
@[simp] theorem progressed_mgmt (s : State) : (progressed s).mgmt = s.mgmt := rfl
@[simp] theorem progressed_outbox (s : State) : (progressed s).outbox = s.outbox := rfl
@[simp] theorem progressed_errors (s : State) : (progressed s).errors = s.errors := rfl
@[simp] theorem progressed_clocks (s : State) : (progressed s).clocks = s.clocks := rfl
@[simp] theorem progressed_agenda (s : State) : (progressed s).agenda = s.agenda := rfl
@[simp] theorem progressed_cur (s : State) : (progressed s).cur = s.cur := rfl
@[simp] theorem progressed_obtained (s : State) : (progressed s).obtained = s.obtained := rfl
@[simp] theorem progressed_turnNo (s : State) : (progressed s).turnNo = s.turnNo := rfl
@[simp] theorem progressed_freeNo (s : State) : (progressed s).freeNo = s.freeNo := rfl
@[simp] theorem progressed_progress (s : State) : (progressed s).progress = s.progress + 1 := rfl
@[simp] theorem progressed_nextId (s : State) : (progressed s).nextId = s.nextId := rfl

end Sys2Proof.Machine
end

