-- ==== Sys2Proof/Laws/Tables.lean ====
section
/-!
SUPPORT. What the table, set and memory operations do: a read after a write, and the canonical form of memory.
-/

namespace Sys2Proof.Machine

theorem tget_tset_same {α : Type} (t : Tab α) (k : Nat) (v : α) : tget (tset t k v) k = some v := by
  induction t with
  | nil => simp [tset, tget]
  | cons x r ih =>
    obtain ⟨i, y⟩ := x
    simp only [tset]
    split
    · simp [tget]
    · split
      · simp [tget]
      · next h => simp [tget, ih, Ne.symm h]

theorem tget_tset_other {α : Type} (t : Tab α) {j k : Nat} (v : α) (h : k ≠ j) :
    tget (tset t j v) k = tget t k := by
  induction t with
  | nil => simp [tset, tget, Ne.symm h]
  | cons x r ih =>
    obtain ⟨i, y⟩ := x
    simp only [tset]
    split
    · simp [tget, Ne.symm h]
    · split
      · next h' => subst h'; simp [tget, Ne.symm h]
      · simp [tget, ih]

theorem tget_tset {α : Type} (t : Tab α) (j k : Nat) (v : α) :
    tget (tset t j v) k = if k = j then some v else tget t k := by
  split
  · next h => subst h; exact tget_tset_same ..
  · next h => exact tget_tset_other _ _ h

@[simp] theorem tgetD_tset_same {α : Type} (t : Tab α) (k : Nat) (v d : α) : tgetD (tset t k v) k d = v := by
  simp [tgetD, tget_tset_same]

theorem tgetD_tset_other {α : Type} (t : Tab α) {j k : Nat} (v d : α) (h : k ≠ j) :
    tgetD (tset t j v) k d = tgetD t k d := by
  simp [tgetD, tget_tset_other _ _ h]

theorem tget_terase_other {α : Type} (t : Tab α) {j k : Nat} (h : k ≠ j) : tget (terase t j) k = tget t k := by
  induction t with
  | nil => rfl
  | cons x r ih =>
    obtain ⟨i, y⟩ := x
    simp only [terase]
    split
    · next h' => subst h'; simp [tget, Ne.symm h]
    · simp [tget, ih]

theorem tget_tmod {α : Type} (t : Tab α) (j k : Nat) (f : α → α) :
    tget (tmod t j f) k = if k = j then (tget t j).map f else tget t k := by
  unfold tmod
  split
  · next v h => simp [tget_tset, h]
  · next h => split
              · next e => subst e; simp [h]
              · rfl

/-! ### Sets -/

theorem contains_sdel1 (l : List Nat) (j k : Nat) : (sdel1 l j).contains k = (l.contains k && decide (k ≠ j)) := by
  rw [Bool.eq_iff_iff]; simp [sdel1]

theorem contains_sadd1 (l : List Nat) (j k : Nat) : (sadd1 l j).contains k = (l.contains k || decide (k = j)) := by
  induction l with
  | nil => simp [sadd1]
  | cons i r ih =>
    simp only [sadd1]
    split
    · rw [Bool.eq_iff_iff]; simp; grind
    · split
      · next h => subst h; rw [Bool.eq_iff_iff]; simp; grind
      · rw [Bool.eq_iff_iff] at *; simp at *; grind

/-! ### Memory -/

theorem mget_mset_same (m : Memory) (a : Nat) (b : Byte) (h : memWf m = true) : mget (mset m a b) a = b := by
  induction m with
  | nil => simp only [mset]; split <;> simp_all [mget]
  | cons x r ih =>
    obtain ⟨i, v⟩ := x
    have hr : memWf r = true := by
      cases r with
      | nil => rfl
      | cons y q => simp [memWf] at h; exact h.2
    simp only [mset]
    split
    · split
      · next hlt hb =>
        subst hb
        have : ∀ (l : Memory) (i : Nat) (v : Byte), memWf ((i, v) :: l) = true → a < i → mget ((i, v) :: l) a = unlisted := by
          intro l
          induction l with
          | nil => intro i v _ hi; simp [mget]; omega
          | cons y q ihq =>
            intro i v hw hi
            obtain ⟨j, w⟩ := y
            simp [memWf] at hw
            have := ihq j w hw.2 (by omega)
            rw [mget]; rw [if_neg (by omega)]; exact this
        exact this r i v h hlt
      · simp [mget]
    · split
      · split
        · next h1 h2 hb =>
          subst h2; subst hb
          have : ∀ (l : Memory) (i : Nat) (v : Byte), memWf ((i, v) :: l) = true → mget l i = unlisted := by
            intro l
            induction l with
            | nil => intros; rfl
            | cons y q ihq =>
              intro i v hw
              obtain ⟨j, w⟩ := y
              simp [memWf] at hw
              rw [mget, if_neg (by omega)]
              refine ihq i v ?_
              cases q with
              | nil => simp [memWf]; exact hw.1.1
              | cons z p => obtain ⟨k, u⟩ := z
                            simp [memWf] at hw ⊢
                            exact ⟨⟨hw.1.1, by omega⟩, hw.2.2⟩
          exact this r a v h
        · simp [mget]
      · next h1 h2 =>
        rw [mget, if_neg (Ne.symm h2)]; exact ih hr

theorem mget_mset_other (m : Memory) {a k : Nat} (b : Byte) (h : k ≠ a) : mget (mset m a b) k = mget m k := by
  induction m with
  | nil => simp only [mset]; split <;> simp [mget, Ne.symm h]
  | cons x r ih =>
    obtain ⟨i, v⟩ := x
    simp only [mset]
    split
    · split
      · rfl
      · simp [mget, Ne.symm h]
    · split
      · next h' => subst h'; split <;> simp [mget, Ne.symm h]
      · simp [mget, ih]

/-- What may stand before an entry at an address. -/
theorem memWf_cons {i : Nat} {v : Byte} {m : Memory} (hv : v ≠ unlisted) (hm : memWf m = true)
    (hi : ∀ x ∈ m.head?, i < x.1) : memWf ((i, v) :: m) = true := by
  cases m with
  | nil => simp [memWf, hv]
  | cons y q => obtain ⟨j, w⟩ := y; simp at hi; simp [memWf, hv, hi, hm]

theorem memWf_tail {x : Host.Cell} {m : Memory} (h : memWf (x :: m) = true) :
    memWf m = true ∧ x.2 ≠ unlisted ∧ ∀ y ∈ m.head?, x.1 < y.1 := by
  obtain ⟨i, v⟩ := x
  cases m with
  | nil => simp [memWf] at h; simp [memWf, h]
  | cons y q => obtain ⟨j, w⟩ := y; simp [memWf] at h; simp [h]

theorem head_mset (m : Memory) (a : Nat) (b : Byte) (i : Nat) (hi : i < a) (hm : memWf m = true)
    (hh : ∀ x ∈ m.head?, i < x.1) : ∀ x ∈ (mset m a b).head?, i < x.1 := by
  cases m with
  | nil => simp only [mset]; split <;> simp_all
  | cons x r =>
    obtain ⟨j, v⟩ := x
    have hr := memWf_tail hm
    simp only [mset]
    simp at hh
    split
    · split <;> simp [hh, hi]
    · split
      · split
        · intro y hy; have := hr.2.2 y hy; simp at this; omega
        · simp [hi]
      · simp [hh]

/-- Writing a byte keeps the canonical form. -/
theorem memWf_mset (m : Memory) (a : Nat) (b : Byte) (h : memWf m = true) : memWf (mset m a b) = true := by
  induction m with
  | nil => simp only [mset]; split <;> simp_all [memWf]
  | cons x r ih =>
    obtain ⟨i, v⟩ := x
    have hr := memWf_tail h
    simp only [mset]
    split
    · split
      · exact h
      · next hb => exact memWf_cons hb h (by simp; omega)
    · split
      · next h2 =>
        subst h2
        split
        · exact hr.1
        · next hb => exact memWf_cons hb hr.1 hr.2.2
      · exact memWf_cons hr.2.1 (ih hr.1) (head_mset r a b i (by omega) hr.1 hr.2.2)

/-- Writing bytes keeps the canonical form. -/
theorem memWf_mwrite (m : Memory) (a : Nat) (l : List Byte) (h : memWf m = true) : memWf (mwrite m a l) = true := by
  induction l generalizing m a with
  | nil => exact h
  | cons b r ih => exact ih _ _ (memWf_mset m a b h)

theorem mget_mwrite_outside (m : Memory) (a k : Nat) (l : List Byte) (h : k < a ∨ a + l.length ≤ k) :
    mget (mwrite m a l) k = mget m k := by
  induction l generalizing m a with
  | nil => rfl
  | cons b r ih =>
    simp at h
    rw [mwrite, ih _ _ (by omega), mget_mset_other _ _ (by omega)]

end Sys2Proof.Machine
end

