-- ==== Sys2Proof/Laws/Registers.lean ====
section
/-!
SUPPORT. What the register operations do: a read after a write, and what a write leaves alone.
-/

namespace Sys2Proof.Machine

@[simp] theorem curGroup_setGroup (s : State) (g : Group) : curGroup (setGroup s g) = g := by
  simp [curGroup, setGroup]

@[simp] theorem aside_setGroup (s : State) (g : Group) : aside (setGroup s g) = aside s := rfl

theorem tget_setGroup (s : State) (g : Group) {k : Nat} (h : k ≠ s.cur.gid) :
    tget (setGroup s g).groups k = tget s.groups k := tget_tset_other _ _ h

@[simp] theorem curGroup_consumed (s : State) (g : Group) : curGroup (consumed s g) = curGroup s := by
  unfold consumed; split
  · dsimp only; split <;> rfl
  · rfl

@[simp] theorem consumed_cur (s : State) (g : Group) : (consumed s g).cur = s.cur := by
  unfold consumed; split
  · dsimp only; split <;> rfl
  · rfl

@[simp] theorem consumed_groups (s : State) (g : Group) : (consumed s g).groups = s.groups := by
  unfold consumed; split
  · dsimp only; split <;> rfl
  · rfl

@[simp] theorem consumed_progress (s : State) (g : Group) : (consumed s g).progress = s.progress := by
  unfold consumed; split
  · dsimp only; split <;> rfl
  · rfl

theorem consumed_setGroup (s : State) (g h : Group) : consumed (setGroup s h) g = setGroup (consumed s g) h := by
  unfold consumed setGroup; split
  · dsimp only; split <;> rfl
  · rfl

/-- Poisoning depends on the group's owner alone. -/
theorem consumed_owner (s : State) {g h : Group} (e : g.owner = h.owner) : consumed s g = consumed s h := by
  unfold consumed; rw [e]

/-! ### Scalar registers -/

theorem getS_putS (g : Group) (r k : Nat) (v : Word) : getS (putS g r v) k = if k = r then v else getS g k := by
  unfold putS getS
  cases hh : g.handler with
  | none => simp [tgetD, tget_tset]; split <;> simp_all
  | some h =>
    simp only
    by_cases hr : r < 8
    · simp only [hr, if_true]
      by_cases hk : k < 8
      · simp [hk, tgetD, tget_tset]; split <;> simp_all
      · have : k ≠ r := by omega
        simp [hk, this]
    · simp only [hr, if_false]
      by_cases hk : k < 8
      · have : k ≠ r := by omega
        simp [hk, this]
      · simp [hk, tgetD, tget_tset]; split <;> simp_all

@[simp] theorem hmode_putS (g : Group) (r : Nat) (v : Word) : hmode (putS g r v) = hmode g := by
  unfold putS hmode
  cases hh : g.handler with
  | none => simp
  | some h => simp only; split <;> simp

@[simp] theorem hmode_poisonS (g : Group) (r : Nat) : hmode (poisonS g r) = hmode g := rfl

theorem sKey_inj {g : Group} {r k : Nat} (hr : r < 128) (hk : k < 128) : sKey g r = sKey g k ↔ r = k := by
  unfold sKey
  by_cases h1 : r < 8 <;> by_cases h2 : k < 8 <;> cases hmode g <;> simp [h1, h2] <;> omega

theorem poisonedS_putS (g : Group) {r k : Nat} (v : Word) (hr : r < 128) (hk : k < 128) :
    poisonedS (putS g r v) k = (poisonedS g k && decide (k ≠ r)) := by
  have e : (putS g r v).spoison = sdel1 g.spoison (sKey g r) := by
    unfold putS sKey hmode
    cases hh : g.handler with
    | none => simp
    | some h => by_cases h8 : r < 8 <;> simp [h8]
  have ek : sKey (putS g r v) k = sKey g k := by unfold sKey; rw [hmode_putS]
  rw [poisonedS, e, ek, contains_sdel1, poisonedS]
  congr 1
  simp [sKey_inj hk hr]

theorem poisonedS_poisonS (g : Group) {r k : Nat} (hr : r < 128) (hk : k < 128) :
    poisonedS (poisonS g r) k = (poisonedS g k || decide (k = r)) := by
  have ek : sKey (poisonS g r) k = sKey g k := rfl
  rw [poisonedS, ek, poisonS]
  simp only
  rw [contains_sadd1, poisonedS]
  congr 1
  simp [sKey_inj hk hr]

@[simp] theorem getS_poisonS (g : Group) (r k : Nat) : getS (poisonS g r) k = getS g k := rfl

@[simp] theorem noScalars_putS (g : Group) (r : Nat) (v : Word) : noScalars (putS g r v) = noScalars g := by
  unfold putS noScalars bareGroup
  cases hh : g.handler with
  | none => simp
  | some h => simp only; split <;> simp

@[simp] theorem noScalars_poisonS (g : Group) (r : Nat) : noScalars (poisonS g r) = noScalars g := rfl

theorem fullS_putS (g : Group) (r k : Nat) (v : Word) : fullS (putS g r v) k = fullS g k := by
  unfold putS fullS
  cases hh : g.handler with
  | none => rfl
  | some h => by_cases hr : r < 8 <;> simp [hr]

@[simp] theorem putS_stack (g : Group) (r : Nat) (v : Word) : (putS g r v).stack = g.stack := by
  unfold putS; split
  · split <;> rfl
  · rfl

@[simp] theorem putS_owner (g : Group) (r : Nat) (v : Word) : (putS g r v).owner = g.owner := by
  unfold putS; split
  · split <;> rfl
  · rfl

@[simp] theorem strandOf_putS (g : Group) (r : Nat) (v : Word) (id : Nat) :
    strandOf (putS g r v) id = strandOf g id := by
  unfold strandOf putS
  cases hh : g.handler with
  | none => simp
  | some h => by_cases hr : r < 8 <;> simp [hr]

/-- In handler mode a write of s0 to s7 leaves the group's own registers, with their poison, alone (R358). -/
theorem own_putS (g : Group) (r k : Nat) (v : Word) (hm : hmode g = true) (hk : k < 8) :
    tgetD (putS g r v).sregs k 0#64 = tgetD g.sregs k 0#64 ∧
    (putS g r v).spoison.contains k = g.spoison.contains k := by
  unfold hmode at hm
  unfold putS
  cases hh : g.handler with
  | none => simp [hh] at hm
  | some h =>
    simp only
    split
    · refine ⟨rfl, ?_⟩
      simp only [contains_sdel1]; simp; omega
    · refine ⟨?_, ?_⟩
      · simp only; exact tgetD_tset_other _ _ _ (by omega)
      · simp only [contains_sdel1]; simp; omega

theorem own_poisonS (g : Group) (r k : Nat) (hm : hmode g = true) (hk : k < 8) :
    (poisonS g r).spoison.contains k = g.spoison.contains k := by
  unfold poisonS sKey
  simp only [contains_sadd1, hm, Bool.true_and]
  simp; split <;> omega

/-! ### Vector registers -/

theorem laneKey_inj {r l q k : Nat} (hl : l < 64) (hk : k < 64) : laneKey r l = laneKey q k ↔ r = q ∧ l = k := by
  unfold laneKey; omega

theorem getV_putV (g : Group) {r l q k : Nat} (v : Lane) (hl : l < 64) (hk : k < 64) :
    getV (putV g r l v) q k = if q = r ∧ k = l then v else getV g q k := by
  unfold getV putV
  simp only [tgetD, tget_tset, laneKey_inj hk hl]
  split <;> simp

theorem poisonedV_putV (g : Group) {r l q k : Nat} (v : Lane) (hl : l < 64) (hk : k < 64) :
    poisonedV (putV g r l v) q k = (poisonedV g q k && !decide (q = r ∧ k = l)) := by
  unfold poisonedV putV
  simp only [contains_sdel1]
  congr 1
  by_cases h : q = r ∧ k = l
  · simp [h]
  · have : laneKey q k ≠ laneKey r l := by rw [Ne, laneKey_inj hk hl]; exact h
    simp [this, h]

theorem poisonedV_poisonV (g : Group) {r l q k : Nat} (hl : l < 64) (hk : k < 64) :
    poisonedV (poisonV g r l) q k = (poisonedV g q k || decide (q = r ∧ k = l)) := by
  unfold poisonedV poisonV
  simp only [contains_sadd1]
  congr 1
  simp [laneKey_inj hk hl]

@[simp] theorem getV_poisonV (g : Group) (r l q k : Nat) : getV (poisonV g r l) q k = getV g q k := rfl
@[simp] theorem noVectors_putV (g : Group) (r l : Nat) (v : Lane) : noVectors (putV g r l v) = noVectors g := rfl
@[simp] theorem noVectors_poisonV (g : Group) (r l : Nat) : noVectors (poisonV g r l) = noVectors g := rfl
@[simp] theorem putV_stack (g : Group) (r l : Nat) (v : Lane) : (putV g r l v).stack = g.stack := rfl
@[simp] theorem putV_handler (g : Group) (r l : Nat) (v : Lane) : (putV g r l v).handler = g.handler := rfl
@[simp] theorem putV_owner (g : Group) (r l : Nat) (v : Lane) : (putV g r l v).owner = g.owner := rfl
@[simp] theorem poisonV_stack (g : Group) (r l : Nat) : (poisonV g r l).stack = g.stack := rfl
@[simp] theorem poisonV_handler (g : Group) (r l : Nat) : (poisonV g r l).handler = g.handler := rfl
@[simp] theorem poisonV_owner (g : Group) (r l : Nat) : (poisonV g r l).owner = g.owner := rfl

/-! ### Predicates -/

theorem getP_putP (g : Group) (p k : Nat) (m : Word) (hp : p ≠ 0) :
    getP (putP g p m) k = if k = p then m else getP g k := by
  unfold getP putP
  rw [if_neg hp]
  by_cases hk : k = 0
  · have : k ≠ p := by omega
    simp [hk, Ne.symm hp]
  · simp [hk, tgetD, tget_tset]; split <;> simp_all

/-- p0 cannot be written (R168). -/
@[simp] theorem putP_zero (g : Group) (m : Word) : putP g 0 m = g := by simp [putP]

theorem getQ_putQ (g : Group) {q k : Nat} (b : Bool) (hq : q ≠ 0) (hk : k < 8) :
    getQ (putQ g q b) k = if k = q then b else getQ g k := by
  unfold getQ putQ
  rw [if_neg hq]
  by_cases h : k = q
  · subst h; cases b <;> simp [hq, hk]
  · cases b <;> by_cases hlt : k < q <;> simp [h, hk, hlt]
    · rw [decide_eq_false (by omega)]; simp
    · rw [decide_eq_false (by omega)]; simp

@[simp] theorem putQ_zero (g : Group) (b : Bool) : putQ g 0 b = g := by simp [putQ]

end Sys2Proof.Machine
end

