-- ==== Sys2Proof/Laws/Strands.lean ====
section
/-!
SUPPORT. What moving a strand, recording an issue and ending an instruction do, said once.
-/

namespace Sys2Proof.Machine

/-! ### What a bare group still shows -/

theorem getS_bare (g : Group) (r : Nat) : getS (bareGroup g) r = getS g r := by
  unfold getS bareGroup; cases g.handler <;> rfl

theorem fullS_bare (g : Group) (r : Nat) : fullS (bareGroup g) r = fullS g r := by
  unfold fullS bareGroup; cases g.handler <;> rfl

theorem hmode_bare (g : Group) : hmode (bareGroup g) = hmode g := by
  unfold hmode bareGroup; cases g.handler <;> rfl

theorem poisonedS_bare (g : Group) (r : Nat) : poisonedS (bareGroup g) r = poisonedS g r := by
  unfold poisonedS sKey; rw [hmode_bare]; rfl

theorem noScalars_bare (g : Group) : noScalars (bareGroup g) = noScalars g := by
  unfold noScalars bareGroup; cases g.handler <;> rfl

theorem noVectors_bare (g : Group) : noVectors (bareGroup g) = noVectors g := by
  unfold noVectors bareGroup; cases g.handler <;> rfl

theorem bare_bare (g : Group) : bareGroup (bareGroup g) = bareGroup g := by
  unfold bareGroup; cases g.handler <;> rfl

theorem getS_of_bare {g h : Group} (e : bareGroup h = bareGroup g) (r : Nat) : getS h r = getS g r := by
  rw [← getS_bare h, e, getS_bare]

theorem fullS_of_bare {g h : Group} (e : bareGroup h = bareGroup g) (r : Nat) : fullS h r = fullS g r := by
  rw [← fullS_bare h, e, fullS_bare]

theorem hmode_of_bare {g h : Group} (e : bareGroup h = bareGroup g) : hmode h = hmode g := by
  rw [← hmode_bare h, e, hmode_bare]

theorem poisonedS_of_bare {g h : Group} (e : bareGroup h = bareGroup g) (r : Nat) :
    poisonedS h r = poisonedS g r := by
  rw [← poisonedS_bare h, e, poisonedS_bare]

theorem noScalars_of_bare {g h : Group} (e : bareGroup h = bareGroup g) : noScalars h = noScalars g := by
  rw [← noScalars_bare h, e, noScalars_bare]

theorem noVectors_of_bare {g h : Group} (e : bareGroup h = bareGroup g) : noVectors h = noVectors g := by
  rw [← noVectors_bare h, e, noVectors_bare]

theorem getV_of_bare {g h : Group} (e : bareGroup h = bareGroup g) (r l : Nat) : getV h r l = getV g r l := by
  have : h.vregs = g.vregs := by simpa [bareGroup] using congrArg Group.vregs e
  unfold getV; rw [this]

theorem poisonedV_of_bare {g h : Group} (e : bareGroup h = bareGroup g) (r l : Nat) :
    poisonedV h r l = poisonedV g r l := by
  have : h.vpoison = g.vpoison := by simpa [bareGroup] using congrArg Group.vpoison e
  unfold poisonedV; rw [this]

theorem getP_of_bare {g h : Group} (e : bareGroup h = bareGroup g) (p : Nat) : getP h p = getP g p := by
  have : h.preds = g.preds := by simpa [bareGroup] using congrArg Group.preds e
  unfold getP; rw [this]

theorem getQ_of_bare {g h : Group} (e : bareGroup h = bareGroup g) (q : Nat) : getQ h q = getQ g q := by
  have : h.unis = g.unis := by simpa [bareGroup] using congrArg Group.unis e
  unfold getQ; rw [this]

theorem sregs_of_bare {g h : Group} (e : bareGroup h = bareGroup g) : h.sregs = g.sregs := by
  simpa [bareGroup] using congrArg Group.sregs e

theorem spoison_of_bare {g h : Group} (e : bareGroup h = bareGroup g) : h.spoison = g.spoison := by
  simpa [bareGroup] using congrArg Group.spoison e

theorem owner_of_bare {g h : Group} (e : bareGroup h = bareGroup g) : h.owner = g.owner := by
  simpa [bareGroup] using congrArg Group.owner e

theorem bare_putStrand (g : Group) (e : Entry) : bareGroup (putStrand g e) = bareGroup g := by
  unfold putStrand bareGroup; cases hh : g.handler <;> simp

theorem bare_settle (m : Nat) (g : Group) : bareGroup (settleGroup m g) = bareGroup g := rfl

/-! ### Replacing a strand -/

theorem find_putEntry (l : List Entry) (e : Entry) (h : (findEntry l e.id).isSome = true) :
    findEntry (putEntry l e) e.id = some e := by
  unfold findEntry putEntry at *
  induction l with
  | nil => simp at h
  | cons x r ih =>
    by_cases hx : (x.id == e.id) = true
    · have : x.id = e.id := by simpa using hx
      simp [this]
    · simp only [Bool.not_eq_true] at hx
      simp only [List.map_cons, List.find?_cons, hx] at h ⊢
      simpa [hx] using ih h

theorem find_id {l : List Entry} {id : Nat} {e : Entry} (h : findEntry l id = some e) : e.id = id := by
  unfold findEntry at h
  have := List.find?_some h
  simpa using this

theorem strandOf_putStrand (g : Group) (id : Nat) (e : Entry) (hid : e.id = (strandOf g id).id)
    (h : hmode g = true ∨ (findEntry g.stack id).isSome = true) : strandOf (putStrand g e) id = e := by
  unfold strandOf putStrand
  cases hh : g.handler with
  | some x => simp
  | none =>
    simp only
    have h2 : (findEntry g.stack id).isSome = true := by
      rcases h with h | h
      · simp [hmode, hh] at h
      · exact h
    obtain ⟨x, hx⟩ := Option.isSome_iff_exists.mp h2
    have hxi := find_id hx
    have : e.id = id := by rw [hid, strandOf, hh]; simp [hx, hxi]
    rw [← this]
    rw [find_putEntry _ _ (by rw [this]; exact h2)]
    rfl

/-! ### Moving -/

/-- Everything that moving a strand does. -/
theorem moveTo_spec (s : State) (pc : Word) (b : Option Block) :
    ∃ g, moveTo s pc b = setGroup s g ∧ bareGroup g = bareGroup (curGroup s) ∧
      (Standing s → (hmode (curGroup s) = true ∨ (curStrand s).reconv ≠ some pc) →
        strandOf g s.cur.entry =
          { curStrand s with
            pc := pc, block := b, waitsOn := none, released := false, stage := 0, request := 0, spawnLane := 0,
            stall := 0 }) := by
  let e : Entry := { strandOf (curGroup s) s.cur.entry with
    pc := pc, block := b, waitsOn := none, released := false, stage := 0, request := 0, spawnLane := 0, stall := 0 }
  unfold moveTo
  by_cases hm : (!hmode (putStrand (curGroup s) e) && e.reconv == some pc) = true
  · refine ⟨settleGroup s.progress (putStrand (curGroup s) e), ?_, ?_, ?_⟩
    · simp only [e] at hm; simp only [hm, if_true, e]
    · rw [bare_settle, bare_putStrand]
    · intro hs h
      exfalso
      have hb := hmode_of_bare (bare_putStrand (curGroup s) e)
      rw [hb] at hm
      simp [e] at hm
      rcases h with h | h
      · simp [h] at hm
      · exact h hm.2
  · refine ⟨putStrand (curGroup s) e, ?_, ?_, ?_⟩
    · simp only [e] at hm; simp only [hm, e]; simp
    · rw [bare_putStrand]
    · intro hs h
      exact strandOf_putStrand _ _ _ rfl hs

/-! ### Recording an issue -/

theorem record_alone {s s' : State} {x : Option TrapInfo} (h : (teamOf s (curGroup s)).mate = none) :
    record s s' x = s' := by
  unfold record; simp only [h]

@[simp] theorem record_groups (s s' : State) (x : Option TrapInfo) : (record s s' x).groups = s'.groups := by
  unfold record; dsimp only; split
  · rfl
  · split <;> rfl

@[simp] theorem record_cur (s s' : State) (x : Option TrapInfo) : (record s s' x).cur = s'.cur := by
  unfold record; dsimp only; split
  · rfl
  · split <;> rfl

@[simp] theorem aside_record (s s' : State) (x : Option TrapInfo) : aside (record s s' x) = aside s' := by
  unfold record; dsimp only; split
  · rfl
  · split <;> rfl

theorem noRecord_tmod (t : Tab Team) (j k : Nat) (f : Team → List LoadValue) :
    (tget (tmod t j fun x => { x with values := f x }) k).map noRecord = (tget t k).map noRecord := by
  rw [tget_tmod]
  split
  · next h => subst h; cases tget t k <;> rfl
  · rfl

theorem record_teams (s s' : State) (x : Option TrapInfo) (k : Nat) :
    (tget (record s s' x).teams k).map noRecord = (tget s'.teams k).map noRecord := by
  unfold record; dsimp only; split
  · rfl
  · split
    · exact noRecord_tmod _ _ _ _
    · exact noRecord_tmod _ _ _ _

theorem curGroup_record (s s' : State) (x : Option TrapInfo) : curGroup (record s s' x) = curGroup s' := by
  unfold curGroup; rw [record_groups, record_cur]

/-! ### The end of an instruction -/

/-- An instruction that completes, where no trap is recorded for it. -/
theorem finish_ok {s s' : State} (h : recordedTrap s = none) :
    finish_ s (.ok s') = .next (progressed (record s s' none)) := by
  unfold finish_; rw [h]

theorem recordedTrap_alone {s : State} (h : Alone s) : recordedTrap s = none := by
  unfold recordedTrap isTrailing; simp [h.2.1]

/-- The same of a group that is alone. -/
theorem finish_alone {s s' : State} (h : Alone s) : finish_ s (.ok s') = .next (progressed s') := by
  rw [finish_ok (recordedTrap_alone h), record_alone h.1]

/-- What a completed instruction leaves that replaces the issuing group and moves its strand. -/
theorem elsewhere_done (s s' : State) (g : Group) (pc : Word) (b : Option Block)
    (hm : (teamOf s (curGroup s)).mate = none ↔ (teamOf s' (curGroup s')).mate = none) :
    Elsewhere s' (progressed (record s (moveTo (setGroup s' g) pc b) none)) := by
  obtain ⟨g', e, -, -⟩ := moveTo_spec (setGroup s' g) pc b
  rw [e]
  refine ⟨?_, ?_, ?_, ?_⟩
  · intro k hk
    show tget (record s _ none).groups k = _
    rw [record_groups]
    rw [tget_setGroup _ _ (by simpa using hk), tget_setGroup _ _ hk]
  · intro k
    show (tget (record s _ none).teams k).map noRecord = _
    rw [record_teams]; rfl
  · intro h
    show (record s _ none).teams = _
    rw [record_alone (hm.mpr h)]; rfl
  · have h1 : ∀ t : State, aside (progressed t) = aside t := fun _ => rfl
    rw [h1, aside_record]; rfl

end Sys2Proof.Machine
end

