-- ==== Sys2Proof/Laws/Operands.lean ====
section
/-!
SUPPORT. What the checks before an instruction and the shared shapes of instruction do, said once: each completes
under conditions on the state and the operands alone.
-/

namespace Sys2Proof.Machine

/-! ### The checks -/

theorem foldDue_none {regs : List Nat} {s : State} (h : NoneDue s regs) : foldDue regs s = .ok s := by
  unfold foldDue
  have : ((curGroup s).folds.filter fun f => f.2.regs.any regs.contains) = [] := by
    rw [List.filter_eq_nil_iff]
    intro f hf
    simp only [List.any_eq_true, not_exists, not_and]
    intro r hr hc
    exact h f hf r hr (by simpa using hc)
  simp [this]

/-- Every check before an instruction passes. -/
theorem begin_ok {p : Plan} {lanes : Option (List Nat)} {s : State}
    (hs : ScalarsReady s (p.sr.map (·.1)) p.sw)
    (hv : VectorsReady s (p.vr.map (·.1)) p.vw)
    (hr : ∀ x ∈ p.vr, fullV (curGroup s) x.1 = true)
    (hm : hmode (curGroup s) = false ∨ p.hcode = 0)
    (hp : planPoison (curGroup s) p (lanes.getD []) = none)
    (hf : NoneDue s (p.vr.map (·.1) ++ p.vw)) (hn : ∀ r ∈ p.ns, r < declS s (curGroup s))
    (hN : ∀ r ∈ p.nv, r < declV s (curGroup s)) : begin_ p lanes s = .ok s := by
  have h1 : planFits s (curGroup s) p = true := by
    unfold planFits
    simp only [Bool.and_eq_true, List.all_eq_true, decide_eq_true_eq]
    refine ⟨⟨⟨⟨⟨?_, ?_⟩, ?_⟩, ?_⟩, hn⟩, hN⟩
    · intro x hx; exact (hs x.1 (List.mem_append_left _ (List.mem_map_of_mem hx))).1
    · intro x hx; exact (hv x.1 (List.mem_append_left _ (List.mem_map_of_mem hx))).1
    · intro r hr; exact (hs r (by simp [hr])).1
    · intro r hr; exact (hv r (by simp [hr])).1
  have h2 : planFull (curGroup s) p = true := by
    unfold planFull
    simp only [Bool.and_eq_true, List.all_eq_true]
    exact ⟨fun x hx => (hs x.1 (List.mem_append_left _ (List.mem_map_of_mem hx))).2, hr⟩
  have h3 : planEmptyTrap (curGroup s) p = false := by
    unfold planFull at h2; unfold planEmptyTrap
    simp only [Bool.and_eq_true, List.all_eq_true] at h2
    simp only [Bool.or_eq_false_iff, List.any_eq_false, Bool.and_eq_true, not_and, Bool.not_eq_true', Bool.not_eq_false]
    exact ⟨fun x hx _ => h2.1 x hx, fun x hx _ => h2.2 x hx⟩
  unfold begin_
  simp only [h1, h2, h3, hp, Bool.not_true, Bool.false_eq_true, if_false, foldDue_none hf]
  have h4 : (hmode (curGroup s) && p.hcode != 0) = false := by
    rcases hm with h | h <;> simp [h]
  simp [h4]

/-- An instruction that goes on part done passes (R378, R387). -/
theorem begin_on {p : Plan} {lanes : Option (List Nat)} {s : State} (h : (curStrand s).stage ≠ 0) :
    begin_ p lanes s = .ok s := by
  unfold begin_; simp [h]

/-- The checks of an instruction that names scalar registers only. -/
theorem begin_scalars {p : Plan} {s : State} (hv : p.vr = []) (hw : p.vw = []) (hV : p.steerV = [])
    (hs : ScalarsReady s (p.sr.map (·.1)) p.sw) (hm : hmode (curGroup s) = false ∨ p.hcode = 0)
    (hp : ∀ r ∈ p.steerS, poisonedS (curGroup s) r = false) (lanes : Option (List Nat)) (hn : p.ns = [] := by rfl)
    (hN : p.nv = [] := by rfl) : begin_ p lanes s = .ok s := by
  refine begin_ok hs ?_ ?_ hm ?_ ?_ (by simp [hn]) (by simp [hN])
  · intro r h; simp [hv, hw] at h
  · intro x h; simp [hv] at h
  · unfold planPoison
    have : p.steerS.any (poisonedS (curGroup s)) = false := by
      rw [List.any_eq_false]; intro r hr; simp [hp r hr]
    simp [this, hV]
  · intro f _ r _; simp [hv, hw]

theorem dstFull_ok {sw vw : List Nat} {s : State} (hs : ∀ r ∈ sw, fullS (curGroup s) r = true)
    (hv : ∀ r ∈ vw, fullV (curGroup s) r = true) : dstFull sw vw s = .ok () := by
  unfold dstFull until_
  have : ((sw.all (fullS (curGroup s))) && (vw.all (fullV (curGroup s)))) = true := by
    simp only [Bool.and_eq_true, List.all_eq_true]; exact ⟨hs, hv⟩
  simp [this]

theorem declS_le (s : State) (g : Group) : declS s g ≤ 128 := by
  unfold declS recField
  have := ((launchOf s g).record.extractLsb' 200 3).isLt
  omega

/-! ### Teams and the mark of consumed poison -/

theorem mate_consumed (s : State) (g : Group) : (teamOf (consumed s g) g).mate = (teamOf s g).mate := by
  unfold consumed teamOf
  cases h : g.owner with
  | spawned k => rfl
  | team t =>
    dsimp only
    cases h2 : (tgetD s.teams t {}).mate with
    | none =>
      simp only [tgetD, tget_tmod, if_true]
      simp only [tgetD] at h2
      cases h3 : tget s.teams t with
      | none => rfl
      | some x => simp [h3] at h2 ⊢; exact h2
    | some m =>
      simp only [tgetD, tget_tmod] at h2 ⊢
      cases h3 : tget s.teams t with
      | none => simp [h3] at h2
      | some x =>
        simp [h3] at h2 ⊢
        by_cases hm : t = m
        · subst hm; simp [h2]
        · simp [hm, h2]

theorem mate_consumed_cur (s : State) :
    (teamOf s (curGroup s)).mate = none ↔
      (teamOf (consumed s (curGroup s)) (curGroup (consumed s (curGroup s)))).mate = none := by
  rw [curGroup_consumed, mate_consumed]

/-! ### Scalar shapes -/

/-- A scalar instruction whose registers are ready. -/
theorem scalarOp_ok {srcs : List (Nat × Bool)} {sd : Nat} {f : Group → Word} {s : State}
    (h : ScalarsReady s (srcs.map (·.1)) [sd]) :
    scalarOp srcs sd f s =
      .ok (advance (writeScalar s sd (f (curGroup s)) (srcs.any fun x => poisonedS (curGroup s) x.1))) := by
  unfold scalarOp
  rw [begin_scalars rfl rfl rfl h (.inr rfl) (by simp)]
  show (do dstFull [sd] [] s; _) = _
  rw [dstFull_ok (by intro r hr; exact (h r (by simp at hr ⊢; simp [hr])).2) (by simp)]
  rfl

/-- What a scalar instruction leaves: its result, its poison, and nothing else. -/
theorem writeScalar_done (s : State) (sd : Nat) (v : Word) (bad : Bool) (h : recordedTrap s = none) (hd : sd < 128)
    (pc : Word) (b : Option Block) :
    ∃ t, finish_ s (.ok (moveTo (writeScalar s sd v bad) pc b)) = .next t ∧
      getS (curGroup t) sd = v ∧ poisonedS (curGroup t) sd = bad ∧ OnlyScalars s t [sd] ∧ GoesTo s t pc b ∧
      Elsewhere (if bad then consumed s (curGroup s) else s) t := by
  let g0 := curGroup s
  let g := if bad then poisonS (putS g0 sd v) sd else putS g0 sd v
  let s' := if bad then consumed s g0 else s
  have hw : writeScalar s sd v bad = setGroup s' g := by
    unfold writeScalar
    simp only [g, s', g0]
    cases bad
    · rfl
    · simp only [if_true]; rw [consumed_setGroup]
      rw [consumed_owner s (g := putS (curGroup s) sd v) (h := curGroup s) (by simp)]
  have hcur : curGroup s' = g0 := by simp only [s', g0]; cases bad <;> simp
  have hscur : s'.cur = s.cur := by simp only [s']; cases bad <;> simp
  have hgr : s'.groups = s.groups := by simp only [s']; cases bad <;> simp
  rw [hw]
  obtain ⟨g', e, hb, hst⟩ := moveTo_spec (setGroup s' g) pc b
  rw [curGroup_setGroup] at hb
  rw [finish_ok h]
  refine ⟨_, rfl, ?_⟩
  have hfin : curGroup (progressed (record s (moveTo (setGroup s' g) pc b) none)) = g' := by
    show curGroup (record s _ none) = g'
    rw [curGroup_record, e, curGroup_setGroup]
  have gS : ∀ r, getS g r = getS (putS g0 sd v) r := by intro r; simp only [g]; cases bad <;> simp
  have hmg : hmode g = hmode g0 := by simp only [g]; cases bad <;> simp
  refine ⟨?_, ?_, ⟨?_, ?_, ?_⟩, ?_, ?_⟩
  · rw [hfin, getS_of_bare hb, gS, getS_putS]; simp
  · rw [hfin, poisonedS_of_bare hb]
    simp only [g]
    cases bad
    · simp [poisonedS_putS _ _ hd hd]
    · simp [poisonedS_poisonS _ hd hd]
  · intro r hr hn
    have hn' : r ≠ sd := by simpa using hn
    rw [hfin]
    refine ⟨?_, ?_⟩
    · rw [getS_of_bare hb, gS, getS_putS, if_neg hn']
    · rw [poisonedS_of_bare hb]
      simp only [g]
      cases bad
      · simp [poisonedS_putS _ _ hd hr, hn', g0]
      · simp [poisonedS_poisonS _ hd hr, poisonedS_putS _ _ hd hr, hn', g0]
  · intro r hr hm
    rw [hfin, sregs_of_bare hb, spoison_of_bare hb]
    have h1 := own_putS g0 sd r v hm hr
    simp only [g]
    cases bad
    · exact h1
    · refine ⟨h1.1, ?_⟩
      simp only [if_true]
      rw [own_poisonS _ _ _ (by simpa using hm) hr]; exact h1.2
  · rw [hfin, noScalars_of_bare hb]
    simp only [g]; cases bad <;> simp [g0]
  · intro hs hr
    have hcs : ∀ id, strandOf g id = strandOf g0 id := by
      intro id; simp only [g]; cases bad
      · simp
      · simp only [if_true]
        show strandOf (putS g0 sd v) id = _
        simp
    have hcurS : curStrand (setGroup s' g) = curStrand s := by
      unfold curStrand; rw [curGroup_setGroup, setGroup_cur, hscur, hcs]
    have hstack : g.stack = g0.stack := by
      simp only [g]; cases bad
      · simp
      · show (putS g0 sd v).stack = _; simp
    have := hst (by unfold Standing at *; rw [curGroup_setGroup, setGroup_cur, hscur, hmg, hstack]; exact hs)
      (by rw [curGroup_setGroup, hmg, hcurS]; exact hr)
    have hcs2 : curStrand (progressed (record s (moveTo (setGroup s' g) pc b) none)) = strandOf g' s.cur.entry := by
      unfold curStrand; rw [hfin]
      show strandOf g' (record s _ none).cur.entry = _
      rw [record_cur, e]; simp [hscur]
    rw [setGroup_cur, hscur] at this
    rw [hcs2, this, hcurS]
    exact ⟨rfl, rfl, rfl, rfl⟩
  · have := elsewhere_done s s' g pc b (by
      simp only [s']; cases bad
      · exact Iff.rfl
      · exact mate_consumed_cur s)
    simpa only [s', g0] using this

end Sys2Proof.Machine
end

