-- ==== Sys2Proof/Tests/Slice0.lean ====
section
/-!
SUPPORT. Tests: words decode as the spec's encodings say, ill-formed instructions are refused, and every statement's
hypotheses are met by a concrete state (the theorems named witness_ and the statement's name).
-/

namespace Sys2Proof.Tests

open Sys2Proof.Machine

set_option Elab.async false
set_option synthInstance.maxSize 2000

/-! ### Small states -/

/-- A launch record: four teams of 16 threads, every register declared, a share of 4 KiB, 64 carriages, the matrix engine,
and `more` above that. -/
abbrev recordOf (more : Nat) : BitVec 1024 :=
  BitVec.ofNat 1024 (4 * 2 ^ 128 + 16 * 2 ^ 160 + 2 * 2 ^ 176 + 2 ^ 187 + 31 * 2 ^ 192 + 7 * 2 ^ 200 + 2 * 2 ^ 208 +
    64 * 2 ^ 216 + more)

/-- A group of 16 lanes on core 0 with one strand at 0x1000. -/
abbrev oneGroup : Group :=
  { owner := .team 2, laneNo := List.range 16, stack := [{ pc := 0x1000#64, mask := 0xFFFF#64 }] }

/-- The first 4 KiB of virtual memory, at physical address 0. -/
abbrev lowPage : TlbEntry := { w := true, x := true }

/-- A device with group 3 of team 2 of launch 1 on core 0; group 3 issues. -/
abbrev device (g : Group) (x : Team) (more : Nat) : State :=
  { State.reset with
    groups := [(3, g)]
    teams := [(2, { x with launch := 1, cores := [0] })]
    launches := [(1, { record := recordOf more, next := 1 })]
    cores := [(0, { tlb := [lowPage] })]
    cur := { gid := 3, entry := 0 }
    nextId := 4 }

/-- The same, the group in handler mode. -/
abbrev inHandler (g : Group) : Group :=
  { g with handler := some { strand := { pc := 0x2000#64, mask := 0xFFFF#64 } } }

/-- The state that an instruction leaves; the state after reset where it stops. -/
abbrev after (o : Host.Outcome State Fault Refusal) : State :=
  match o with
  | .next t => t
  | _ => State.reset


/-! ### Scalars, uniform predicates and control -/

abbrev scalars : Group :=
  { oneGroup with
    sregs := [(1, 12#64), (2, 5#64), (3, 0x2000#64), (4, 0x2004#64)]
    vregs := (List.range 16).map fun l => (laneKey 5 l, BitVec.ofNat 32 (0x400 + l / 8))
    preds := [(1, 0x00FF#64)] }

theorem witness_ScalarResults : ∃ r, scalarRule (.sadd ⟨5, 1, 2, 0, 0⟩) = some r ∧
    ScalarsReady (device scalars {} 0) r.sources [r.dest] ∧ recordedTrap (device scalars {} 0) = none :=
  ⟨_, rfl, by unfold ScalarsReady; decide +kernel⟩

theorem witness_ScalarResults_handler : ∃ r, scalarRule (.smovi ⟨127, 0xFFFFFFFF#32⟩) = some r ∧
    ScalarsReady (device (inHandler scalars) {} 0) r.sources [r.dest] ∧
    recordedTrap (device (inHandler scalars) {} 0) = none :=
  ⟨_, rfl, by unfold ScalarsReady; decide +kernel⟩

theorem witness_UniformResults : ∃ r, uniformRule (.scmp ⟨0, 1, 2, 0, 0, 11⟩) = some r ∧
    (Instr.scmp ⟨0, 1, 2, 0, 0, 11⟩).wf = true ∧ ScalarsReady (device scalars {} 0) r.sources [] ∧
    (∀ x ∈ r.sources, poisonedS (curGroup (device scalars {} 0)) x = false) ∧ recordedTrap (device scalars {} 0) = none :=
  ⟨_, rfl, by unfold ScalarsReady; decide +kernel⟩

theorem witness_UniformResults_pmov : let s := device scalars {} 0
    ScalarsReady s [1] [] ∧ poisonedS (curGroup s) 1 = false ∧ recordedTrap s = none := by
  unfold ScalarsReady; decide +kernel

theorem witness_UniformControl : let s := device scalars {} 0
    ∃ r, moveRule (.callReg ⟨127, 3, 0⟩) (curGroup s) (curStrand s) = some r ∧
      ScalarsReady s r.sources (r.link.toList.map (·.1)) ∧ (∀ x ∈ r.sources, poisonedS (curGroup s) x = false) ∧
      (∀ x, registerTarget (.callReg ⟨127, 3, 0⟩) = some x → getS (curGroup s) x.1 &&& 7#64 = 0#64) ∧
      recordedTrap s = none :=
  ⟨_, rfl, by unfold ScalarsReady; decide +kernel, by decide +kernel,
    fun x h => by cases Option.some.inj h; decide +kernel, by decide +kernel⟩

theorem witness_UniformControl_misaligned : let s := device scalars {} 0
    registerTarget (.ret ⟨4, 0⟩) = some (4, 0) ∧ ScalarsReady s [4] [] ∧
      (∀ y, moveRule (.ret ⟨4, 0⟩) (curGroup s) (curStrand s) = some y → ∀ l ∈ y.link, l.1 < declS s (curGroup s)) ∧
      poisonedS (curGroup s) 4 = false ∧ getS (curGroup s) 4 &&& 7#64 ≠ 0#64 ∧ Alone s ∧ (curStrand s).stage = 0 :=
  ⟨rfl, by unfold ScalarsReady; decide +kernel, fun y h => by cases Option.some.inj h; decide +kernel,
    by unfold Alone; decide +kernel⟩

/-- What BranchDivides asks of a state; a guard that no lane, every lane and some lanes pass, and a full stack. -/
theorem witness_BranchDivides : let s := device scalars {} 0
    let g := curGroup s
    let e := curStrand s
    Fresh s ∧ hmode g = false ∧ Standing s ∧ recordedTrap s = none ∧ g.stack.length + 2 ≤ 512 ∧
      guardedLanes g e 1 0 = [] ∧ guardedLanes g e 0 0 = activeLanes g e ∧ guardedLanes g e 0 0 ≠ [] ∧
      guardedLanes g e 0 1 ≠ [] ∧ guardedLanes g e 0 1 ≠ activeLanes g e := by
  unfold Fresh freshGroup Standing; decide +kernel

theorem witness_BranchDivides_full :
    let s := device { scalars with stack := List.replicate 510 { mask := 0xFFFF#64 } } {} 0
    Fresh s ∧ hmode (curGroup s) = false ∧ Standing s ∧ recordedTrap s = none ∧ (curGroup s).stack.length + 2 = 512 := by
  unfold Fresh freshGroup Standing; decide +kernel

/-- JMPV, CALLV and RETV by v5, whose lanes hold two pointers; RETV by v6, whose lanes hold one. -/
theorem witness_VectorTransfers : let s := device scalars {} 0
    let g := curGroup s
    let e := curStrand s
    Fresh s ∧ hmode g = false ∧ Standing s ∧ guardedLanes g e 0 0 ≠ [] ∧ VectorsReady s [5] [6] ∧
      (∀ l ∈ guardedLanes g e 0 0, poisonedV g 5 l = false) ∧ NoneDue s [5, 6] ∧ recordedTrap s = none ∧
      (pointerDests g e 0 0 5).length = 2 ∧ (pointerDests g e 0 0 6).length = 1 ∧
      g.stack.length + (pointerDests g e 0 0 5).length ≤ 512 := by
  unfold Fresh freshGroup Standing VectorsReady NoneDue; decide +kernel

/-- EXIT of every lane, and of the lanes of p1. -/
theorem witness_ExitLanes : let s := device scalars { points := [(0, { init := true, expected := 16 })] } 0
    let g := curGroup s
    let e := curStrand s
    Alone s ∧ Fresh s ∧ hmode g = false ∧ Standing s ∧ e.mode = .live ∧ guardedLanes g e 0 0 ≠ [] ∧
      (∀ x ∈ s.teams, x.2.points.Pairwise fun a b => a.1 < b.1) ∧ NoneWaits s ∧
      (∀ x ∈ g.stack, x.mask &&& ~~~(maskWhere (guardedLanes g e 0 0).contains) = 0#64) ∧ guardedLanes g e 0 1 ≠ [] ∧
      (∃ x ∈ g.stack, x.mask &&& ~~~(maskWhere (guardedLanes g e 0 1).contains) ≠ 0#64) ∧
      e.mask &&& ~~~(maskWhere (guardedLanes g e 0 1).contains) ≠ 0#64 ∧ e.reconv ≠ some (nextPc e) := by
  unfold Alone Fresh freshGroup Standing NoneWaits; decide +kernel

/-- What GSPLIT asks; codes 1, 2, 3 and 0 come from full slots, a divided group, a narrow one and none of these. -/
theorem witness_SplitAndFuse : ∀ g ∈ [scalars, { scalars with width := 4 }, { scalars with width := 64 },
      { scalars with stack := [{ mask := 0xFF#64 }, { id := 0, mask := 0xFF00#64 }] }],
    let s := device g {} 0
    Alone s ∧ hmode (curGroup s) = false ∧ Standing s ∧ Fresh s ∧ ScalarsReady s [] [7] ∧
      awaitsReply s s.cur.gid = false ∧ matrixIdle s s.cur.gid = true ∧ (curGroup s).held = [] ∧
      4 ≤ (curGroup s).width ∧ (curGroup s).width ≤ 64 := by
  unfold Alone Standing Fresh freshGroup ScalarsReady; decide +kernel

abbrev fullSlots : State :=
  { device scalars {} 0 with
    groups := [(3, scalars), (4, { scalars with slot := 1, held := (List.range 254).map (· + 2) })]
    nextId := 5 }

theorem witness_SplitAndFuse_full : (freeSlots fullSlots 0).length < 1 ∧ Alone fullSlots ∧ hmode (curGroup fullSlots) = false ∧
    Standing fullSlots ∧ Fresh fullSlots ∧ ScalarsReady fullSlots [] [7] := by
  unfold Alone Standing Fresh freshGroup ScalarsReady; decide +kernel

/-- Two groups in slots 0 and 1, the other waiting in its GFUSE, this one at it. -/
abbrev partners : State :=
  { device scalars {} 0 with
    groups := [(3, { scalars with vregs := [] }), (4, { scalars with slot := 1, vregs := [], fuse := some { n := 2, sd := 7 } })]
    nextId := 5 }

abbrev partner (k : Nat) : Nat × Group := if k = 0 then (3, curGroup partners) else (4, tgetD partners.groups 4 {})

theorem witness_SplitAndFuse_fuse :
    (Alone partners ∧ Fresh partners ∧ hmode (curGroup partners) = false ∧ ScalarsReady partners [] [7] ∧
      (curGroup partners).fuseCode = none ∧ teamKey (curGroup partners) ≠ none ∧ 2 * (curGroup partners).width ≤ 64 ∧
      groupInSlot partners 0 ((curGroup partners).slot / 2 * 2) = some (3, curGroup partners)) ∧
      (∀ k, k < 4 → (groupInSlot partners 0 k).all (fun x => x.2.fuse.map (·.n) != some 4) = true) ∧
      (∀ k, k < 2 → groupInSlot partners 0 ((curGroup partners).slot / 2 * 2 + k) = some (partner k) ∧
        (partner k).2.owner = (curGroup partners).owner ∧ (partner k).2.slot = (curGroup partners).slot / 2 * 2 + k ∧
        (partner k).2.ended = false ∧ (partner k).2.held = [] ∧ (partner k).2.width = (curGroup partners).width ∧
        (partner k).2.stack.length ≤ 1 ∧ (partner k).2.handler = none ∧
        ((partner k).1 = 3 ∨ (partner k).2.fuse = some { n := 2, sd := 7 }) ∧
        awaitsReply partners (partner k).1 = false ∧ matrixIdle partners (partner k).1 = true ∧
        (partner k).2.vregs.Pairwise (fun a b => a.1 < b.1) ∧ ∀ x ∈ (partner k).2.vregs, x.1 % 64 < (curGroup partners).width) ∧
      (∀ j, j < 2 → ∀ k, k < 2 → (partner j).1 = (partner k).1 → j = k) := by
  refine ⟨?_, ?_, ?_, ?_⟩ <;> try unfold Alone Fresh freshGroup ScalarsReady
  all_goals decide +kernel

/-- GFUSE of a group alone in its block, of one that has received a code, and of a spawned group. -/
theorem witness_SplitAndFuse_codes :
    (∃ k, k < 2 ∧ groupInSlot (device scalars {} 0) 0 k = none) ∧
    ∀ g ∈ [scalars, { scalars with fuseCode := some 2 }, { scalars with owner := .spawned 1 }], let s := device g {} 0
      Alone s ∧ Fresh s ∧ hmode (curGroup s) = false ∧ ScalarsReady s [] [7] := by
  unfold Alone Fresh freshGroup ScalarsReady; decide +kernel

/-! What single instructions give, by the examples and tables of 07_scalar_and_control.md. -/

theorem test_sdiv_by_zero : getS (curGroup (after (exec (.sdiv ⟨5, 1, 9, 0, 0⟩) (device scalars {} 0)))) 5 =
    0xFFFFFFFFFFFFFFFF#64 := by decide +kernel
theorem test_smulh : getS (curGroup (after (exec (.smulhImm ⟨5, 1, 0, 0xFFFFFFFF#32⟩) (device scalars {} 0)))) 5 =
    0xFFFFFFFFFFFFFFFF#64 := by decide +kernel
theorem test_call_link : let t := after (exec (.call ⟨63, 8#32⟩) (device scalars {} 0))
    (getS (curGroup t) 63, (curStrand t).pc, (curGroup t).rstack) = (0x1008#64, 0x1040#64, [0x1008#64]) := by
  decide +kernel
theorem test_handler_registers : let t := after (exec (.smovi ⟨2, 7#32⟩) (device (inHandler scalars) {} 0))
    (getS (curGroup t) 2, tgetD (curGroup t).sregs 2 0#64) = (7#64, 5#64) := by decide +kernel
theorem test_brv_divides : ((curGroup (after (exec (.brv ⟨0, 1, 8, 4⟩) (device scalars {} 0)))).stack.map fun e =>
    (e.pc, e.mask, e.reconv, e.mode)).drop 1 =
    [(0x1020#64, 0x00FF#64, some 0x1040#64, .live), (0x1008#64, 0xFF00#64, some 0x1040#64, .live)] := by decide +kernel


/-! ### Vectors -/

abbrev vectors : Group := { scalars with vpoison := [laneKey 9 3] }

theorem witness_IntegerVectors : ∃ r, integerRule (.vadd ⟨0, 1, 255, 5, 2, 1, 0, 0⟩) = some r ∧
    (Instr.vadd ⟨0, 1, 255, 5, 2, 1, 0, 0⟩).wf = true ∧
    (let s := device vectors {} 0
    ScalarsReady s r.scalars [] ∧ VectorsReady s r.vectors ((List.range r.count).map (r.dest + ·)) ∧
      NoneDue s (r.vectors ++ (List.range r.count).map (r.dest + ·)) ∧ recordedTrap s = none) :=
  ⟨_, rfl, by decide +kernel, by unfold ScalarsReady VectorsReady NoneDue; decide +kernel⟩

theorem witness_FloatVectors : ∃ r, floatRule (.ffma ⟨1, 1, 1, 1, 9, 9, 5, 0, 0, 0, 0, 0⟩) = some r ∧
    (Instr.ffma ⟨1, 1, 1, 1, 9, 9, 5, 0, 0, 0, 0, 0⟩).wf = true ∧
    (let s := device vectors {} 0
    ScalarsReady s r.scalars [] ∧ VectorsReady s r.vectors ((List.range r.count).map (r.dest + ·)) ∧
      NoneDue s (r.vectors ++ (List.range r.count).map (r.dest + ·)) ∧ recordedTrap s = none) :=
  ⟨_, rfl, by decide +kernel, by unfold ScalarsReady VectorsReady NoneDue; decide +kernel⟩

theorem witness_FloatVectors_convert : ∃ i r, decode 0x590014030A0008B9#64 = .ok i ∧ convertRule i = some r ∧ i.wf = true ∧
    (let s := device vectors {} 0
    ScalarsReady s r.scalars [] ∧ VectorsReady s r.vectors ((List.range r.count).map (r.dest + ·)) ∧
      NoneDue s (r.vectors ++ (List.range r.count).map (r.dest + ·)) ∧ recordedTrap s = none) :=
  ⟨_, _, rfl, rfl, by decide +kernel, by unfold ScalarsReady VectorsReady NoneDue; decide +kernel⟩

theorem witness_CrossLanes : ∃ r, crossRule (.vscan ⟨0, 0, 0, 0, 8, 9, 0, 1, 8⟩) = some r ∧
    (Instr.vscan ⟨0, 0, 0, 0, 8, 9, 0, 1, 8⟩).wf = true ∧
    (let s := device vectors {} 0
    ScalarsReady s r.scalars [] ∧ VectorsReady s r.vectors ((List.range r.count).map (r.dest + ·)) ∧
      NoneDue s (r.vectors ++ (List.range r.count).map (r.dest + ·)) ∧ recordedTrap s = none) :=
  ⟨_, rfl, by decide +kernel, by unfold ScalarsReady VectorsReady NoneDue; decide +kernel⟩

theorem witness_CrossLanes_scalar : (Instr.vred ⟨0, 0, 0, 0, 20, 5, 0, 1, 0⟩).wf = true ∧
    (let s := device vectors {} 0
    guardedLanes (curGroup s) (curStrand s) 0 0 ≠ [] ∧ ScalarsReady s [] [20] ∧ VectorsReady s [5] [] ∧
      NoneDue s [5] ∧ recordedTrap s = none) := by
  unfold ScalarsReady VectorsReady NoneDue; decide +kernel

/-- A compare into p0 and p1, at a poisoned lane that its guard leaves out. -/
theorem witness_Compares : ∃ r, compareRule (.vcmp ⟨1, 1, 2, 0, 1, 5, 9, 0, 0, 0, 2, 0⟩) = some r ∧
    (Instr.vcmp ⟨1, 1, 2, 0, 1, 5, 9, 0, 0, 0, 2, 0⟩).wf = true ∧
    (let s := device vectors {} 0
    ScalarsReady s r.scalars [] ∧ VectorsReady s r.vectors [] ∧ NoneDue s r.vectors ∧
      (∀ x ∈ r.scalars, poisonedS (curGroup s) x = false) ∧
      (∀ l ∈ guardedLanes (curGroup s) (curStrand s) r.gn r.gp, ∀ x ∈ r.vectors, poisonedV (curGroup s) x l = false) ∧
      recordedTrap s = none) :=
  ⟨_, rfl, by decide +kernel, by unfold ScalarsReady VectorsReady NoneDue; decide +kernel⟩

theorem witness_PairWords : ∃ p, decode 0x8088280021083000#64 = .ok (.pairWord p) ∧ (Instr.pairWord p).wf = true ∧
    (let s := device vectors {} 0
    let named := [p.a, p.b].flatMap fun h =>
      if halfActive (curGroup s) (curStrand s) h = [] then [] else h.vd.toNat :: halfSources h
    VectorsReady s named [] ∧ NoneDue s named ∧
      (∀ h ∈ [p.a, p.b], h.hop ≠ 0#7 → h.vd.toNat < declV s (curGroup s) ∧ h.vs.toNat < declV s (curGroup s)) ∧
      recordedTrap s = none) :=
  ⟨_, rfl, by decide +kernel, by unfold VectorsReady NoneDue; decide +kernel⟩

theorem witness_NoActiveLane : (∃ r, integerRule (.vadd ⟨1, 0, 255, 5, 2, 1, 0, 0⟩) = some r ∧ r.gn = 1 ∧ r.gp = 0 ∧
      (∀ x ∈ r.scalars, x < declS (device vectors {} 0) (curGroup (device vectors {} 0))) ∧
      ∀ x ∈ r.vectors ++ [r.dest], x < declV (device vectors {} 0) (curGroup (device vectors {} 0))) ∧
    (∃ r, compareRule (.vcmp ⟨1, 0, 2, 0, 1, 5, 9, 0, 0, 0, 2, 0⟩) = some r ∧ r.ct ≠ 1 ∧ r.ct ≠ 7 ∧ r.gn = 1 ∧ r.gp = 0 ∧
      (∀ x ∈ r.scalars, x < declS (device vectors {} 0) (curGroup (device vectors {} 0))) ∧
      ∀ x ∈ r.vectors, x < declV (device vectors {} 0) (curGroup (device vectors {} 0))) ∧
    (let s := device vectors {} 0
    guardedLanes (curGroup s) (curStrand s) 1 0 = [] ∧ recordedTrap s = none) :=
  ⟨⟨_, rfl, by decide +kernel⟩, ⟨_, rfl, by decide +kernel⟩, by decide +kernel⟩

/-- The greatest finite FP32 value rounds to its code; 2⁻¹⁵⁰ rounds to 0 and 2¹²⁸ beyond the greatest code. -/
theorem witness_Rounding : fp32 ∈ [fp32, fp16, bf16, e4m3, e5m2] ∧ fp32.maxCode ≤ fp32.maxCode ∧
    toFloat fp32 0 false (.fin false 1 (-150)) = 0 ∧ 0 ≤ fp32.maxCode ∧
    (∃ n d, floatValue fp32 0 = .fin false n d) ∧ (∃ n d, floatValue fp32 fp32.maxCode = .fin false n d) :=
  ⟨by simp, Nat.le_refl _, by decide +kernel, Nat.zero_le _, ⟨_, _, rfl⟩, ⟨_, _, rfl⟩⟩

theorem test_vaddsat : (List.range 2).map (getV (curGroup (after (exec (.vaddsat ⟨0, 0, 1, 7, 5, 5, 0, 0, 0⟩)
    (device { vectors with vregs := [(laneKey 5 0, 0x80000000#32), (laneKey 5 1, 3#32)] } {} 0)))) 7) =
    [0xFFFFFFFF#32, 6#32] := by decide +kernel
theorem test_fmul_nan : getV (curGroup (after (exec (.fmul ⟨0, 0, 0, 0, 7, 5, 5, 0, 0, 0⟩)
    (device { vectors with vregs := [(laneKey 5 0, 0x7F800001#32)] } {} 0)))) 7 0 = 0x7FC00000#32 := by decide +kernel
theorem test_fadd_rounds : getV (curGroup (after (exec (.fadd ⟨0, 0, 0, 0, 7, 5, 6, 0, 0, 0⟩)
    (device { vectors with vregs := [(laneKey 5 0, 0x3F800000#32), (laneKey 6 0, 0x33800000#32)] } {} 0)))) 7 0 =
    0x3F800000#32 := by decide +kernel
theorem test_vred_sum : getS (curGroup (after (exec (.vred ⟨0, 0, 0, 0, 20, 5, 0, 1, 0⟩)
    (device { vectors with vregs := [(laneKey 5 0, 0xFFFFFFFF#32), (laneKey 5 15, 0xFFFFFFFF#32)] } {} 0)))) 20 =
    0xFFFFFFFFFFFFFFFE#64 := by decide +kernel
theorem test_poison_travels : (poisonedV (curGroup (after (exec (.vmov ⟨0, 0, 7, 9, 0, 0⟩) (device vectors {} 0)))) 7 3,
    (tgetD (after (exec (.vmov ⟨0, 0, 7, 9, 0, 0⟩) (device vectors {} 0))).teams 2 {}).chk.pc) = (true, true) := by
  decide +kernel


/-! ### Memory -/

/-- v6 holds 8 × the lane, v10 4 × the lane plus 2 in lane 3; s1 is 256. -/
abbrev addressing : Group :=
  { oneGroup with
    sregs := [(1, 0x100#64)]
    vregs := ((List.range 16).map fun l => (laneKey 6 l, BitVec.ofNat 32 (8 * l))) ++
      (List.range 16).map fun l => (laneKey 10 l, BitVec.ofNat 32 (4 * l + if l = 3 then 2 else 0)) }

abbrev LoadOp : LdOp :=
  { gn := 0, gp := 0, size := 2, vd := 4, va := 6, sb := 1, scope := 2, ord := 1, eb := 0, ec := 0, pk := 0, fea := 0, osc := 0
    hint := 0 }

theorem witness_LoadsAndStoresSent : ∃ r, accessRule (.ld LoadOp) (device addressing {} 0) = some r ∧
    r.access.kind = .load ∧ (let s := device addressing {} 0
    let place := fun l => (0x100 + 8 * l, 0)
    Alone s ∧ Fresh s ∧ Standing s ∧ ScalarsReady s r.scalars r.fillsScalar.toList ∧ VectorsReady s r.vectors r.fills ∧
      NoneDue s (r.vectors ++ r.fills) ∧ (r.scalars.head?.all fun x => !poisonedS (curGroup s) x) = true ∧
      (r.vectors.head?.all fun x => r.lanes.all fun l => !poisonedV (curGroup s) x l) = true ∧
      (r.lanes = [] → (r.out s place).kind = .fence) ∧ ¬(r.space = 1 ∧ (r.out s place).scope = 6) ∧ NoWatch s ∧
      ∀ l ∈ r.lanes, located s r.space r.use r.bytes (r.addr l) = some (place l)) :=
  ⟨_, rfl, rfl, by
    unfold Alone Fresh freshGroup Standing ScalarsReady VectorsReady NoneDue NoWatch AccessRule.out; decide +kernel⟩

/-- A store into the last bytes of the share, of a poisoned lane. -/
theorem witness_LoadsAndStoresSent_store : ∃ r s, s = device { addressing with
      sregs := [(1, 0xF80#64)], vpoison := [laneKey 4 5] } {} 0 ∧
    accessRule (.sts ⟨0, 0, 3, 4, 6, 1, 2, 0, 0, 0, 0⟩) s = some r ∧ r.access.kind = .store ∧
    (let place := fun l => (0xF80 + 8 * l, 0)
    Alone s ∧ Fresh s ∧ Standing s ∧ ScalarsReady s r.scalars r.fillsScalar.toList ∧ VectorsReady s r.vectors r.fills ∧
      NoneDue s (r.vectors ++ r.fills) ∧ (r.scalars.head?.all fun x => !poisonedS (curGroup s) x) = true ∧
      (r.vectors.head?.all fun x => r.lanes.all fun l => !poisonedV (curGroup s) x l) = true ∧
      (r.lanes = [] → (r.out s place).kind = .fence) ∧ ¬(r.space = 1 ∧ (r.out s place).scope = 6) ∧ NoWatch s ∧
      ∀ l ∈ r.lanes, located s r.space r.use r.bytes (r.addr l) = some (place l)) :=
  ⟨_, _, rfl, rfl, rfl, by
    unfold Alone Fresh freshGroup Standing ScalarsReady VectorsReady NoneDue NoWatch AccessRule.out; decide +kernel⟩

theorem witness_LoadsAndStoresSent_fence : ∃ r, accessRule (.fence ⟨5, 3⟩) (device addressing {} 0) = some r ∧
    r.access.kind = .fence ∧ (let s := device addressing {} 0
    Alone s ∧ Fresh s ∧ Standing s ∧ ScalarsReady s r.scalars r.fillsScalar.toList ∧ VectorsReady s r.vectors r.fills ∧
      NoWatch s ∧ r.lanes = []) :=
  ⟨_, rfl, rfl, by unfold Alone Fresh freshGroup Standing ScalarsReady VectorsReady NoWatch; decide +kernel⟩

theorem witness_LoadsAndStoresSent_atomic : ∃ r, accessRule (.atomAdd
      { gn := 0, gp := 0, size := 2, vd := 4, va := 6, sb := 1, scope := 2, ord := 0, eb := 0, ec := 0, pk := 0, fea := 0
        fed := 0, osc := 0, space := 0 }) (device addressing {} 0) = some r ∧
    r.access.kind = .atomic ∧ (let s := device addressing {} 0
    ScalarsReady s r.scalars [] ∧ VectorsReady s r.vectors r.fills ∧ NoneDue s (r.vectors ++ r.fills) ∧
      ∀ l ∈ r.lanes, located s r.space r.use r.bytes (r.addr l) = some (0x100 + 8 * l, 0)) :=
  ⟨_, rfl, rfl, by unfold ScalarsReady VectorsReady NoneDue; decide +kernel⟩

theorem witness_MisalignedAndPrefetch : ∃ r, accessRule (.ld { LoadOp with va := 10 }) (device addressing {} 0) = some r ∧
    r.access.scalar = false ∧ r.access.kind ≠ .fence ∧ ¬(r.space = 1 ∧ r.access.scope = 6) ∧
    (let s := device addressing {} 0
    Alone s ∧ ScalarsReady s r.scalars [] ∧ VectorsReady s r.vectors r.fills ∧ NoneDue s (r.vectors ++ r.fills) ∧
      (r.scalars.head?.all fun x => !poisonedS (curGroup s) x) = true ∧
      (r.vectors.head?.all fun x => r.lanes.all fun l => !poisonedV (curGroup s) x l) = true ∧
      (curStrand s).stage = 0 ∧ r.lanes.find? (fun l => (r.addr l).toNat % r.bytes ≠ 0) = some 3) :=
  ⟨_, rfl, rfl, by decide, by decide, by
    unfold Alone ScalarsReady VectorsReady NoneDue; decide +kernel⟩

/-- A table of pages for context 0 that maps page 0 to physical page 0, memory type 0, writable and executable. -/
abbrev tables : Memory :=
  [0x100000, 0x101000, 0x102000, 0x103000].foldl (fun m a => mwrite m a (leBytes (a + 0x1000 + 1) 8))
    (mwrite [] 0x104000 (leBytes (2 ^ 60 + 2 ^ 59 + 3) 8))

theorem witness_MisalignedAndPrefetch_prefetch :
    let s := { device addressing {} 0 with mem := tables, contexts := [(0, { root := 0x100000#64, en := true })] }
    translateNow s (.core 0) (launchOf s (curGroup s)).queue (ruleAddr (curGroup s) 1 6 0 15) 0 = .ok (0x178, 0) ∧
      (∀ l ∈ guardedLanes (curGroup s) (curStrand s) 0 0, (tlbLookup s 0 0 (ruleAddr (curGroup s) 1 6 0 l)).isSome = true) ∧
      (coreAt s 0).lines.length + (guardedLanes (curGroup s) (curStrand s) 0 0).length ≤ Config.l1Lines ∧ Alone s ∧
      ScalarsReady s [1] [] ∧ VectorsReady s [6] [] ∧ NoneDue s [6] ∧ poisonedS (curGroup s) 1 = false ∧
      ∀ l ∈ guardedLanes (curGroup s) (curStrand s) 0 0, poisonedV (curGroup s) 6 l = false :=
  ⟨rfl, by unfold Alone ScalarsReady VectorsReady NoneDue; decide +kernel⟩

abbrev EscortedLoad : LdOp := { LoadOp with eb := 12, ec := 3, pk := 1 }

/-- An escorted load that needs 3 carriages, with 64 allowed and with 2 allowed. -/
theorem witness_EscortedAccess : ∀ s ∈ [device addressing {} 0, { device addressing {} 0 with
      launches := [(1, { record := recordOf 0 - BitVec.ofNat 1024 (62 * 2 ^ 216), next := 1 })] }],
    ∃ r, accessRule (.ld { EscortedLoad with ec := 0 }) s = some r ∧ hmode (curGroup s) = false ∧ Alone s ∧ Fresh s ∧
      Standing s ∧ ScalarsReady s r.scalars [] ∧ VectorsReady s r.vectors (r.fills ++ [12, 13, 14]) ∧
      NoneDue s (r.vectors ++ r.fills ++ [12, 13, 14]) ∧
      (r.scalars.head?.all fun x => !poisonedS (curGroup s) x) = true ∧
      (r.vectors.head?.all fun x => r.lanes.all fun l => !poisonedV (curGroup s) x l) = true ∧ r.lanes ≠ [] ∧
      ¬(r.space = 1 ∧ r.access.scope = 6) ∧ NoWatch s ∧ checkHeld s (curGroup s) = false ∧
      (∀ l ∈ r.lanes, located s r.space r.use r.bytes (r.addr l) = some (0x100 + 8 * l, 0)) ∧ freeTag s 0 = some 0 ∧
      (recField (launchOf s (curGroup s)).record 216 13 = 64 ∨ recField (launchOf s (curGroup s)).record 216 13 = 2) := by
  intro s h
  simp only [List.mem_cons, List.not_mem_nil, or_false] at h
  rcases h with rfl | rfl <;>
  exact ⟨_, rfl, by
    unfold Alone Fresh freshGroup Standing ScalarsReady VectorsReady NoneDue NoWatch; decide +kernel⟩

/-- An access of lanes 0 and 5 of group 3. -/
abbrev anAccess (kind : OutKind) (space scope size mtype op : Nat) : Out :=
  { kind := kind, owner := .team 2, gid := 3, space := space, scope := scope, size := size, op := op, reg := 4
    nreg := ruleRegs size, staged := true
    lanes := [0, 5].map fun l => { lane := l, pa := 0x100 + 64 * l, mtype := mtype, data := 7#512 } }

abbrev withAccess (o : Out) : State := { device addressing {} 0 with outs := [(9, o)], nextId := 10 }

/-- The same, its request at its home slice or router. -/
abbrev reached (o : Out) : Out := { o with sent := true }

theorem performable_of {o : Out} (h : o.owner = .team 2) (h1 : outReady o = true ∧ o.away = false ∧ o.coach = none ∧
    o.done = false ∧ (o.lanes.map (·.lane)).Nodup ∧ ∀ a ∈ o.lanes, a.lane < 64)
    (h2 : (o.sent = true ∨ Local (withAccess o) o) ∧ promotes (withAccess o) o = [] ∧
      ∀ a ∈ o.lanes, a.did = false ∧ a.early = none)
    (h3 : (∀ a ∈ o.lanes, keepsToL1 o a) ∨ ∀ a ∈ o.lanes, ¬keepsToL1 o a) : Performable (withAccess o) 9 o :=
  ⟨⟨rfl, h1⟩, h2.1, h2.2.1, h2.2.2, fun t e => by rw [h] at e; cases e; rfl, h3⟩

theorem witness_AccessesPerform : ∀ o ∈ [reached (anAccess .load 0 2 16 0 0), anAccess .load 2 2 1 0 0,
      reached (anAccess .atomic 0 5 8 1 0x7A), anAccess .atomic 2 2 4 0 0x7D, anAccess .store 0 2 16 0 0,
      reached (anAccess .store 0 5 8 0 0), anAccess .store 2 2 4 0 0, reached (anAccess .xadd 0 5 64 0 0x69),
      { anAccess .fence 0 5 0 0 0 with lanes := [] },
      reached { anAccess .load 0 2 8 0 0 with scalar := true, lanes := [{ pa := 0x200 }] },
      reached { anAccess .xcvt 0 5 64 0 0 with nreg := 1 }],
    Performable (withAccess o) 9 o ∧ memWf (withAccess o).mem = true ∧
      (∀ a ∈ o.lanes, o.kind = .store ∨ fillsRegister o = true → a.pa % o.size = 0) ∧
      (coreAt (withAccess o) 0).lines.length + o.lanes.length ≤ Config.l1Lines ∧
      (o.kind = .atomic → (0x7D ≤ o.op → o.size = 4) ∧ o.size ∈ [4, 8] ∧
        ∀ a ∈ o.lanes, a.data.toNat < 2 ^ (8 * o.size) ∧ a.swap.toNat < 2 ^ (8 * o.size)) ∧ o.reg + o.nreg ≤ 256 := by
  intro o h
  simp only [List.mem_cons, List.not_mem_nil, or_false] at h
  rcases h with rfl | rfl | rfl | rfl | rfl | rfl | rfl | rfl | rfl | rfl | rfl <;>
  exact ⟨performable_of rfl (by decide +kernel) (by unfold Local; decide +kernel) (by unfold keepsToL1; decide +kernel),
    by decide +kernel⟩

/-- A load and a store that have yet to leave their core, and a load whose answer has come home. -/
theorem witness_AccessesPerform_travel : (∀ o ∈ [anAccess .load 0 2 16 0 0, anAccess .store 0 5 8 0 0],
      Due (withAccess o) 9 o ∧ ¬Local (withAccess o) o ∧ o.sent = false ∧ ∃ a ∈ o.lanes, a.did = false) ∧
    (let o : Out := { anAccess .load 0 2 16 0 0 with lanes := [{ lane := 5, pa := 0x100, did := true, res := 9#128 }] }
     Due (withAccess o) 9 o ∧ fillsRegister o = true ∧ o.sent = false ∧ ∀ a ∈ o.lanes, a.did = true) ∧
    (let o : Out := { anAccess .load 0 2 8 0 0 with scalar := true, lanes := [{ pa := 0x100, did := true, res := 9#128 }] }
     Due (withAccess o) 9 o ∧ o.scalar = true ∧ o.hreg = false ∧ o.reg < 128) := by
  unfold Due Local; decide +kernel

/-- A load of several lanes that finds all its bytes in the L1. -/
theorem witness_AccessesPerform_local : let o := anAccess .load 0 2 4 0 0
    let line : Line := { valid := BitVec.allOnes 128 }
    let s := { withAccess o with cores := [(0, { lines := [(2, line)] })] }
    let o := { o with lanes := o.lanes.map fun a => { a with pa := 0x100 + 4 * a.lane } }
    Local s o ∧ (∀ a ∈ o.lanes, keepsToL1 o a) ∧
      ∀ a ∈ o.lanes, ∀ k, k < 4 → tget (coreAt s o.core).lines ((a.pa + k) / 128) = some line ∧
        line.valid.getLsbD ((a.pa + k) % 128) = true := by
  unfold Local keepsToL1; decide +kernel

/-- An atomic's second lane acts alone. -/
theorem witness_AccessesPerform_lane : let o := reached (anAccess .atomic 0 5 8 1 0x7A)
    (withAccess o).boot.powered = true ∧ (o.lanes[1]?).map (fun a => (a.pa, a.data.toNat)) = some (0x240, 7) ∧ o.size = 8 := by
  decide +kernel

theorem test_load_lands : let o := anAccess .load 0 5 4 1 0
    let o := { o with lanes := o.lanes.map fun a => { a with did := true, res := 0x12345678#128 } }
    getV (tgetD (after (exec (.loadReply 9 false) (withAccess o))).groups 3 {}) 4 5 = 0x12345678#32 := by decide +kernel
theorem test_load_finds : ((tgetD (after (exec (.loadReply 9 false)
    { withAccess (reached (anAccess .load 0 5 4 1 0)) with mem := mwrite [] 0x240 [0x78#8, 0x56#8, 0x34#8, 0x12#8] })).outs 9
    {}).lanes.map (·.res)) = [0#128, 0x12345678#128] := by decide +kernel
theorem test_store_writes : mread (after (exec (.storeAcknowledged 9)
    (withAccess (reached (anAccess .store 0 5 4 1 0))))).mem 0x240 4 = [7#8, 0#8, 0#8, 0#8] := by decide +kernel
theorem test_atomic_inc_wraps : mread (after (exec (.loadReply 9 false)
    { withAccess (reached (anAccess .atomic 0 5 4 1 0x7B)) with mem := mwrite [] 0x100 [7#8] })).mem 0x100 1 = [0#8] := by
  decide +kernel


/-! ### Fill barriers, points, queues and tiles -/

/-- s1 is the offset 0x20, s2 and s3 numbers. -/
abbrev withNumbers (b c : Nat) : Group :=
  { oneGroup with sregs := [(1, 0x20#64), (2, BitVec.ofNat 64 b), (3, BitVec.ofNat 64 c)] }

abbrev withShare (b : Nat) (bytes : List Byte) : State := device (withNumbers b 0) { share := mwrite [] 0x20 bytes } 0

/-- FINIT and FEXPECT at the greatest count and above it, FWAIT at a barrier whose phase is the named one and is not. -/
theorem witness_FillBarriers : ∀ b ∈ [2 ^ 31 - 1, 2 ^ 31, 0, 1], let s := withShare b [0#8, 1#8, 0#8, 0#8]
    let x := tgetD s.teams 2 {}
    let g := curGroup s
    let off := (getS g 1).toNat
    tget s.teams 2 = some x ∧ Alone s ∧ ScalarsReady s [1, 2] [] ∧ CleanScalars s [1, 2] ∧ off % 8 = 0 ∧
      off + 8 ≤ shareSize s g ∧ ownAccess s 2 [(off, 8)] = false ∧ acqPending s = false ∧
      fillBarrier (mword x.share off) = (false, 0, 256) := by
  unfold Alone ScalarsReady CleanScalars; decide +kernel

theorem test_finit : fillBarrier (mword (tgetD (after (exec (.finit ⟨1, 2, 0, 0⟩) (withShare 4096 []))).teams 2 {}).share 0x20) =
    (false, 0, 4096) := by decide +kernel
theorem test_fexpect_judges : fillBarrier (mword (tgetD (after (exec (.fexpect ⟨1, 2, 0, 0⟩)
    (withShare 8 [0#8, 0#8, 0#8, 0#8, 9#8]))).teams 2 {}).share 0x20) = (true, 1, 8) := by decide +kernel

/-- BINIT: of a new point with counts 1, 16384 and 0, of a point the team has, and of the grid's points. -/
theorem witness_Points_init : ∀ n ∈ [0, 1, 16384, 2 ^ 32 - 1, 2 ^ 32],
    let p : Tab Point := [(4, { init := true, device := true, expected := 1 })]
    let s := { device (withNumbers n 0) { points := [(3, { init := true, expected := 4 })] } 0 with
      launches := [(1, { record := recordOf (2 ^ 184), next := 1, points := p })] }
    let x := tgetD s.teams 2 {}
    tget s.teams 2 = some x ∧ Alone s ∧ hmode (curGroup s) = false ∧ ScalarsReady s [2] [] ∧ CleanScalars s [2] ∧
      (tget s.launches x.launch).isSome = true ∧ (launchOf s (curGroup s)).record.getLsbD 184 = true ∧
      (tgetD x.points 3 {}).init = true ∧ (tgetD x.points 4 {}).init = false ∧
      (tgetD (launchOf s (curGroup s)).points 4 {}).init = true ∧ (tgetD x.points 5 {}).init = false ∧
      (tgetD (launchOf s (curGroup s)).points 5 {}).init = false := by
  unfold Alone ScalarsReady CleanScalars; decide +kernel

abbrev atPoint (p : Point) (e : Entry) (outs : Tab Out) : State :=
  { device { oneGroup with stack := [{ e with mask := 0xFFFF#64 }] } { points := [(0, p)] } 0 with
    outs := outs, nextId := 10 }

/-- Arrivals of 16 lanes: one that flips the point, one that does not, one that overruns it, one with an access of the
strand under way; waits on either phase, and one that a flip has released. -/
theorem witness_Points_use : ∀ s ∈ [atPoint { init := true, expected := 32, arrived := 16 } {} [],
      atPoint { init := true, expected := 32, arrived := 15 } { phases := [(0, true)] } [],
      atPoint { init := true, expected := 32, arrived := 17 } {} [],
      atPoint { init := true, expected := 32, arrived := 1 } { phases := [(0, false)], stage := 1 } [],
      atPoint { init := true, expected := 32, arrived := 1 } { phases := [(0, false)], stage := 1, released := true } [],
      atPoint { init := true, expected := 32, arrived := 16 } {} [(9, { anAccess .store 0 5 4 1 0 with who := [0] })]],
    let x := tgetD s.teams 2 {}
    (Alone s ∧ Fresh s ∧ Standing s) ∧ tget s.teams 2 = some x ∧ hmode (curGroup s) = false ∧ x.cores.length ≤ 1 ∧
      (tgetD x.points 0 {}).init = true ∧ (∀ a ∈ x.arrivals, a.2.point ≠ 0) ∧
      tget x.arrivals s.nextId = none ∧ NoneWaits s ∧ acqPending s = false ∧
      (activeLanes (curGroup s) (curStrand s)).length = 16 ∧ (∀ q ∈ (curStrand s).phases, q.1 < 24) ∧
      (earlierAccesses s = [] ↔ s.outs = []) := by
  intro s h
  refine ⟨?_, ?_⟩ <;> revert s
  · unfold Alone Fresh freshGroup Standing; decide +kernel
  · unfold NoneWaits; decide +kernel

/-- Group 4 of the team waits in its BWAIT at point 0, which the arrival of group 3 flips. -/
abbrev waiter : Entry := { mask := 0xFFFF#64, stage := 1, waitsOn := some 0, phases := [(0, false)] }

theorem witness_Points_release : let s := { atPoint { init := true, expected := 32, arrived := 16 } {} [] with
      groups := [(3, oneGroup), (4, { oneGroup with slot := 1, stack := [waiter] })] }
    let x := tgetD s.teams 2 {}
    let h := tgetD s.groups 4 {}
    Alone s ∧ Fresh s ∧ Standing s ∧ (tgetD x.points 0 {}).arrived + (activeLanes (curGroup s) (curStrand s)).length = 32 ∧
      earlierAccesses s = [] ∧ tget s.groups 4 = some h ∧ findEntry h.stack waiter.id = some waiter ∧
      h.owner = (curGroup s).owner ∧ h.handler = none ∧ x.phase = .resident ∧ h.stepping = none ∧
      waiter.reconv ≠ some (nextPc waiter) ∧
      ∀ y ∈ s.groups, ∀ e ∈ y.2.stack, e.waitsOn ≠ none → y.1 = 4 ∧ e.id = waiter.id := by
  unfold Alone Fresh freshGroup Standing; decide +kernel

/-- The arrivals of a strand at point 0, whose key in `phases` is 24 × 9. -/
abbrev arriving : State :=
  { device { oneGroup with stack := [{ mask := 0xFFFF#64, phases := [(216, true)] }] }
      { points := [(0, { init := true, expected := 32, arrived := 16 })]
        arrivals := [(9, { gid := 3, lanes := 16, staged := true }), (8, { gid := 3, lanes := 17, staged := true })] } 0 with
    nextId := 10 }

/-- An arrival that flips the point, and one that overruns it. -/
theorem witness_Points_counted : let x := tgetD arriving.teams 2 {}
    let a := tgetD x.arrivals 9 {}
    let b := tgetD x.arrivals 8 {}
    let p := tgetD x.points 0 {}
    arriving.teams.find? (fun t => (tget t.2.arrivals 9).isSome) = some (2, x) ∧ tget arriving.teams 2 = some x ∧
      tget x.arrivals 9 = some a ∧ a.after = [] ∧ a.staged = true ∧ a.afterWb = [] ∧
      chkOf arriving { owner := .team 2 } = false ∧ tget x.points a.point = some p ∧ p.init = true ∧
      p.arrived + a.lanes = p.expected ∧ NoneWaits arriving ∧ a.point < 24 ∧ (tget (tgetD arriving.groups 3 {}).stack[0]!.phases (24 * 9 + a.point)).isSome = true ∧
      arriving.teams.find? (fun t => (tget t.2.arrivals 8).isSome) = some (2, x) ∧ tget x.arrivals 8 = some b ∧
      b.after = [] ∧ b.staged = true ∧ b.afterWb = [] ∧ tget x.points b.point = some p ∧ p.expected < p.arrived + b.lanes ∧
      findEntry (tgetD arriving.groups b.gid {}).stack b.entry ≠ none := by
  unfold NoneWaits; decide +kernel

theorem test_barv_flips : let t := after (exec (.barv ⟨0⟩) (atPoint { init := true, expected := 32, arrived := 16 } {} []))
    (tget (tgetD t.teams 2 {}).points 0, (curStrand t).phases) =
      (some { init := true, expected := 32, arrived := 0, phase := true }, [(0, false)]) := by decide +kernel
theorem test_bwait_waits : after (exec (.bwait ⟨0⟩) (atPoint { init := true, expected := 32 } { phases := [(0, false)] } [])) =
    stalled (atPoint { init := true, expected := 32 } { phases := [(0, false)], waitsOn := some 0 } []) := by decide +kernel

/-- Queues of two slots of 16 bytes: empty, with one entry, full, and one whose counts have wrapped. -/
theorem witness_Queues : ∀ c ∈ [(0, 0, 0), (0, 1, 0), (1, 2, 0), (2 ^ 32 - 1, 0, 2 ^ 32 - 1)], ∀ b ∈ [0x100, 2 ^ 17 + 16, 2 ^ 32],
    let s := withShare b (leBytes 16 2 ++ leBytes 2 2 ++ leBytes c.1 4 ++ leBytes c.2.1 4 ++ leBytes c.2.2 4)
    let x := tgetD s.teams 2 {}
    let g := curGroup s
    let off := (getS g 1).toNat
    tget s.teams 2 = some x ∧ Alone s ∧ ScalarsReady s [1, 2] [5] ∧ CleanScalars s [1, 2] ∧ off % 16 = 0 ∧
      off + 16 ≤ shareSize s g ∧ x.cores.length ≤ 1 ∧ earlierAccesses s = [] ∧ ownAccess s 2 [(off, 16)] = false ∧
      deliveryPending s 2 off = false ∧ (countsAt x.share off).Sound := by
  unfold Alone ScalarsReady CleanScalars Counts.Sound; decide +kernel

/-- The same queue and a misaligned copy; slots of 4 KiB that lie outside the share. -/
theorem witness_Queues_copies : (let s := withShare 0x101 (leBytes 16 2 ++ leBytes 2 2 ++ leBytes 0 4 ++ leBytes 1 4)
      (getS (curGroup s) 2).toNat % 16 ≠ 0 ∧ (countsAt (tgetD s.teams 2 {}).share 0x20).Sound) ∧
    (let s := withShare 0 (leBytes 4096 2 ++ leBytes 2 2 ++ leBytes 1 4 ++ leBytes 2 4 ++ leBytes 1 4)
      let h := countsAt (tgetD s.teams 2 {}).share 0x20
      h.Sound ∧ h.used < h.scnt ∧ h.clc ≠ h.wrc ∧ (getS (curGroup s) 2).toNat + h.ssize ≤ shareSize s (curGroup s) ∧
        shareSize s (curGroup s) < h.slot 0x20 h.wrc + h.ssize ∧ shareSize s (curGroup s) < h.slot 0x20 h.clc + h.ssize) := by
  unfold Counts.Sound; decide +kernel

/-- A queue whose header is unsound: a slot size of 8. -/
theorem witness_Queues_unsound : ¬(countsAt (tgetD (withShare 0 (leBytes 8 2 ++ leBytes 2 2)).teams 2 {}).share 0x20).Sound := by
  unfold Counts.Sound; decide +kernel

theorem test_qwait_slot : let t := after (exec (.qwait ⟨5, 1, 0⟩)
      (withShare 0 (leBytes 16 2 ++ leBytes 2 2 ++ leBytes 1 4 ++ leBytes 2 4 ++ leBytes 0 4)))
    (getS (curGroup t) 5, countsAt (tgetD t.teams 2 {}).share 0x20) = (0x40#64, { ssize := 16, scnt := 2, clc := 2, wrc := 2, rdc := 0 }) := by
  decide +kernel
theorem test_qpush_wraps : let t := after (exec (.qpush ⟨1, 2, 0, 0⟩)
      (withShare 0x100 (leBytes 16 2 ++ leBytes 2 2 ++ leBytes 0 4 ++ leBytes (2 ^ 32 - 1) 4 ++ leBytes (2 ^ 32 - 2) 4)))
    (countsAt (tgetD t.teams 2 {}).share 0x20).wrc = 0 := by decide +kernel

/-- A tile of 2 rows of 4 two-byte elements at 0x40, its barrier at 0x100; state `st`. -/
abbrev tileOf (st : Nat) : BitVec 128 := ruleState (ruleTile 0x40#64 (BitVec.ofNat 64 (1 + 3 * 2 ^ 16 + 2 ^ 32)) 0x100#64) (BitVec.ofNat 2 st)

abbrev withTile (st base stride : Nat) : State :=
  { device { oneGroup with sregs := [(1, BitVec.ofNat 64 base), (2, BitVec.ofNat 64 stride), (3, 0x100#64),
      (4, BitVec.ofNat 64 (1 + 3 * 2 ^ 16 + 2 ^ 32)), (5, 0x40#64)] } { tiles := [(7, tileOf st)] } 0 with
    mem := tables, contexts := [(0, { root := 0x100000#64, en := true })] }

/-- Each state of a tile, for TDEF, TREL, TSTAT, TLOAD and TSTORE; a base that is misaligned, and a region of the page. -/
theorem witness_TileCopies : ∀ st ∈ [0, 1, 2, 3], ∀ base ∈ [0x200, 0x201], let s := withTile st base 16
    let x := tgetD s.teams 2 {}
    let e := tgetD x.tiles 7 0#128
    tget s.teams 2 = some x ∧ Alone s ∧ tileHeld s 2 7 = false ∧ ScalarsReady s [1, 2, 3, 4, 5] [6] ∧
      CleanScalars s [1, 2, 3, 4, 5] ∧ pendingWb s 0 (fun _ => true) = [] ∧ e.getLsbD 2 = true ∧ tEsize e < 3 ∧
      tEnd e ≤ shareSize s (curGroup s) ∧ (e.extractLsb' 0 2).toNat = st ∧
      ownAccess s 2 [(tBase e, tEnd e - tBase e), (tBar e, 8)] = false ∧ ownAccess s 0 [(0x200, 8), (0x210, 8)] = false ∧
      acqPending s = false := by
  unfold Alone ScalarsReady CleanScalars; decide +kernel

theorem witness_TileCopies_region : ((translatePieces (curGroup (withTile 2 0x200 16)) 0
    (tileRegion (tileOf 2) false 0x200#64 16#64) (withTile 2 0x200 16)).toOption.map (·.1)) =
    some [(0x200, 8), (0x210, 8)] := by decide +kernel

/-- A definition that fits an entry free to take it, and one that does not: a base that is no multiple of 64. -/
theorem witness_TileCopies_tdef : let s := withTile 0 0x200 16
    let new := ruleTile (getS (curGroup s) 5) (getS (curGroup s) 4) (getS (curGroup s) 3)
    (getS (curGroup s) 5).toNat % 64 = 0 ∧ (getS (curGroup s) 3).toNat % 8 = 0 ∧
      (∀ j, j < 64 → (getS (curGroup s) 4).getLsbD j = true → j < 11 ∨ 16 ≤ j ∧ j < 27 ∨ 32 ≤ j ∧ j < 34) ∧
      (getS (curGroup s) 4).extractLsb' 32 2 ≠ 3#2 ∧ tEnd new ≤ shareSize s (curGroup s) ∧
      (getS (curGroup s) 5).toNat < 2 ^ 18 ∧ (getS (curGroup s) 3).toNat + 8 ≤ shareSize s (curGroup s) ∧
      (getS (curGroup s) 2).toNat % 64 ≠ 0 := by decide +kernel

abbrev copying (load : Bool) : State :=
  let s := withTile (if load then 1 else 3) 0x200 16
  { s with copies := [(9, { load := load, team := 2, gid := 3, tile := 7, segs := [(0x200, 8), (0x210, 8)] })], nextId := 10 }

theorem witness_TileCopies_done : ∀ load ∈ [true, false], let s := copying load
    let c := tgetD s.copies 9 {}
    let x := tgetD s.teams 2 {}
    let e := tgetD x.tiles c.tile 0#128
    tget s.copies 9 = some c ∧ tget s.teams c.team = some x ∧ x.phase = .resident ∧ x.mate = none ∧ x.values = [] ∧
      (c.segs.map (·.2)).sum = tRows e * tCols e * tBytes e ∧ tEsize e < 3 ∧ c.first = [] ∧
      s.notes.length ≤ c.since ∧ x.held = [] ∧ c.load = load ∧
      tBar e + 8 ≤ 2048 * recField (tgetD s.launches x.launch {}).record 208 8 ∧ tEnd e ≤ tBar e := by decide +kernel

theorem test_tload_done_ready : let t := after (exec (.tloadCopyDone 9 0) (copying true))
    (((tgetD (tgetD t.teams 2 {}).tiles 7 0#128).extractLsb' 0 2).toNat,
      fillBarrier (mword (tgetD t.teams 2 {}).share 0x100)) = (2, false, 16, 0) := by decide +kernel


/-! ### The matrix engine -/

/-- Tile 7: 2 rows of 4 two-byte elements; s1: K or M 2 and N 4; s2: row 0, column 0; s3: M 256. -/
abbrev matrixGroup : Group :=
  { oneGroup with sregs := [(1, 0x40002#64), (2, 0#64), (3, 256#64), (4, 257#64)], vpoison := [laneKey 20 1] }

abbrev matrixState (g : Group) (st : Nat) (queue : Nat) : State :=
  let s := device g { tiles := [(7, tileOf st)] } 0
  { s with cores := [(0, { tlb := [lowPage], mxQueue := (List.range queue).map fun k => (100 + k, { gid := 5, team := 6 }) })]
           nextId := 200 }

/-- MLDW with scales, MDRAIN, MZERO and MSWAP, with 0, 15 and 16 operations queued. -/
theorem witness_MatrixIssue : ∀ q ∈ [0, 15, 16], ∀ st ∈ [0, 2], let s := matrixState matrixGroup st q
    let x := tgetD s.teams 2 {}
    let g := curGroup s
    tget s.teams 2 = some x ∧ Alone s ∧ Standing s ∧ 0 < g.width ∧ g.width ≤ 64 ∧ ScalarsReady s [1, 2] [] ∧
      CleanScalars s [1, 2] ∧ (launchOf s g).record.getLsbD 187 = true ∧ x.cores.headD 0 = g.core ∧ hmode g = false ∧
      g.stack.length = 1 ∧ (∀ l, l < 64 → l < g.width → (curStrand s).mask.getLsbD l = true) ∧
      (∀ y ∈ [20, 21], y < declV s g ∧ fullV g y = true) ∧ tileHeld s 2 7 = false ∧
      (coreAt s g.core).mxQueue.length = q ∧ acqPending s = false ∧ (curStrand s).stage = 0 ∧
      ownAccess s 2 [(tBase (tileOf st), tEnd (tileOf st) - tBase (tileOf st))] = false := by
  unfold Alone Standing ScalarsReady CleanScalars; decide +kernel

theorem witness_MatrixIssue_mldw : let s := matrixState matrixGroup 2 15
    ∃ r, matrixRule (.mldw ⟨1, 2, 0, 0, 7, 20, 1, 10⟩) s 2 (tgetD s.teams 2 {}) = some r ∧ r.passes ∧
      r.tile = some 7 ∧ r.op.kind = .mldw ∧ ruleScaleRegs r 16 = [20] ∧ ∀ y ∈ ruleScaleNames r 16, y < declV s (curGroup s) :=
  ⟨_, rfl, by simp only [ruleFields, ruleRegion]; decide +kernel, rfl, rfl, by decide +kernel, by decide +kernel⟩

/-- The same with a scale register past a declaration of 8 vector registers. -/
theorem witness_MatrixIssue_undeclared : let s := { matrixState matrixGroup 2 15 with
      launches := [(1, { record := recordOf 0 - BitVec.ofNat 1024 (31 * 2 ^ 192), next := 1 })] }
    ∃ r, matrixRule (.mldw ⟨1, 2, 0, 0, 7, 20, 1, 10⟩) s 2 (tgetD s.teams 2 {}) = some r ∧ (curStrand s).stage = 0 ∧
      ¬∀ y ∈ ruleScaleNames r 16, y < declV s (curGroup s) :=
  ⟨_, rfl, rfl, by decide +kernel⟩

theorem witness_MatrixIssue_mdrain : let s := matrixState matrixGroup 2 15
    ∃ r, matrixRule (.mdrain ⟨1, 2, 0, 0, 7, 3, 1, 0, 10⟩) s 2 (tgetD s.teams 2 {}) = some r ∧ r.passes ∧
      r.tile = some 7 ∧ r.op.kind = .mdrain :=
  ⟨_, rfl, by simp only [ruleFields, ruleRegion]; decide +kernel, rfl, rfl⟩

/-- MSTREAM of 257 rows does not pass; a divided group is not whole. -/
theorem witness_MatrixIssue_fails : let s := matrixState matrixGroup 2 0
    ∃ r, matrixRule (.mstream ⟨4, 2, 0, 0, 7, 0, 0, 0, 10⟩) s 2 (tgetD s.teams 2 {}) = some r ∧ ¬r.passes ∧
      (curStrand (matrixState { matrixGroup with stack := [{ mask := 0xFF#64 }, { id := 1, mask := 0xFF00#64 }] } 2 0)).mask.getLsbD 15 =
        false :=
  ⟨_, rfl, by simp only [ruleFields, ruleRegion]; decide +kernel, by decide +kernel⟩

/-- MBATCH with 127 and 128 batches outstanding; MWAIT for a batch that is and one that is not outstanding. -/
theorem witness_MatrixBatches : ∀ n ∈ [127, 128],
    let s := matrixState { matrixGroup with batch := n, batches := (List.range n).map fun k => { num := k, ops := [150] } } 2 0
    Alone s ∧ ScalarsReady s [1] [5] ∧ CleanScalars s [1] ∧ (curGroup s).batches.length = n ∧
      acqPending s = false ∧ (∃ b ∈ (curGroup s).batches, b.num = 126) ∧ ∀ b ∈ (curGroup s).batches, b.num ≠ 255 := by
  unfold Alone ScalarsReady CleanScalars; decide +kernel

abbrev engine (o : MxOp) (holder : Nat) : State :=
  let s := device matrixGroup { tiles := [(7, tileOf 3)], share := mwrite [] 0x40 [0x80#8, 0x3F#8]
                                matrix := { active := { k := 1, n := 1, fmt := 10, elems := [(0, 0x3F80#16)] } } } 0
  { s with cores := [(0, { mxHolder := some holder, mxQueue := [(9, o)] })], nextId := 10 }

abbrev anOp (kind : MxKind) : MxOp := { kind := kind, gid := 3, team := 2, tile := 7, k := 1, n := 1, m := 1, fmt := 10 }

theorem witness_MatrixSteps : (∀ kind ∈ [MxKind.mldw, .mswap, .mstream, .mdrain, .mzero], let s := engine (anOp kind) 2
    tget (coreAt s 0).mxQueue 9 = some (anOp kind) ∧ mxReady (coreAt s 0) 9 (anOp kind) = true ∧
      tget s.teams 2 = some (tgetD s.teams 2 {}) ∧ (tgetD s.teams 2 {}).matrix.active.n ≤ 64) ∧
    (coreAt (engine (anOp .mswap) 5) 0).mxQueue = [(9, anOp .mswap)] ∧
    (coreAt (engine (anOp .mswap) 5) 0).mxHolder ≠ some (anOp .mswap).team := by decide +kernel

/-- The first GiB of context 0 mapped one to one, a leaf at level 2. -/
abbrev bigTables : Memory :=
  mwrite (mwrite (mwrite [] 0x100000 (leBytes 0x101001 8)) 0x101000 (leBytes 0x102001 8)) 0x102000
    (leBytes (6 * 2 ^ 61 + 2 ^ 60 + 2 ^ 59 + 3) 8)

/-- A device whose teams 2 and 5 have their context records from 0x4000000 on. -/
abbrev recorded (s : State) : State :=
  { s with
    mem := bigTables, contexts := [(0, { root := 0x100000#64, en := true })]
    launches := [(1, { record := recordOf (0x4000000 * 2 ^ 256), next := 1 })] }

/-- The holder has a record that may be written, and the team at the head of the queue has its state in one. -/
theorem witness_MatrixSteps_records : let s := { recorded (engine (anOp .mswap) 5) with
      teams := [(2, { launch := 1, cores := [0], matrix := { kept := true } }), (5, { launch := 1, cores := [0], record := 1 })] }
    (teamRecord s 5).getLsbD 187 = true ∧ recordOk s 5 = true ∧ (tgetD s.teams 2 {}).matrix.kept = true ∧
      recordOk (engine (anOp .mswap) 5) 5 = false := by decide +kernel

theorem test_mstream_accumulates : tgetD (tgetD (tgetD (after (exec (.mstreamPassed 0 9) (engine (anOp .mstream) 2))).teams 2
    {}).matrix.accs 0 {}).vals 0 0#64 = 0xFF800000#64 := by decide +kernel
theorem test_mswap_exchanges : ((tgetD (after (exec (.mswapTakesEffect 0 9) (engine (anOp .mswap) 2))).teams 2 {}).matrix.active,
    (tgetD (after (exec (.mswapTakesEffect 0 9) (engine (anOp .mswap) 2))).teams 2 {}).matrix.shadow.fmt) = ({}, 10) := by
  decide +kernel


/-! ### Templates, posts and remote requests -/

/-- A template: KIND, DSP, DST, ROWBYTES 16, `rows` rows, a fill barrier at 0x100 as its delivered target. -/
abbrev template (kind dsp dst rows : Nat) : BitVec 512 :=
  BitVec.ofNat 512 (kind + dsp * 2 ^ 22 + 0x200 * 2 ^ 64 + dst * 2 ^ 128 + 16 * 2 ^ 192 + 16 * 2 ^ 224) |||
    (16#512 <<< 256) ||| (BitVec.ofNat 512 rows <<< 288) ||| (0x10020#512 <<< 480)

/-- s1 is the aperture of cluster 0, s2 the post word of entry 5, s8 to s15 a template. -/
abbrev posting (b : BitVec 512) (word : Nat) : Group :=
  { oneGroup with
    sregs := [(1, 0xF000000000000#64), (2, BitVec.ofNat 64 word)] ++
      (List.range 8).map fun k => (8 + k, b.extractLsb' (64 * k) 64) }

abbrev postState (b : BitVec 512) (word : Nat) : State :=
  { device (posting b word) { templates := [(5, { bits := b, valid := true })], tiles := [(7, tileOf 0)] } 0 with
    mem := tables, contexts := [(0, { root := 0x100000#64, en := true })] }

/-- A template that XTPL takes, and one with a reserved kind. -/
theorem witness_TemplatesAndPosts : let s := postState (template 0 0 0x300 4) 0
    Alone s ∧ ScalarsReady s ((List.range 8).map (8 + ·)) [16] ∧ CleanScalars s ((List.range 8).map (8 + ·)) := by
  unfold Alone ScalarsReady CleanScalars; decide +kernel

theorem witness_TemplatesAndPosts_templates :
    (templateIn (curGroup (postState (template 0 0 0x300 4) 0)) 8 = template 0 0 0x300 4 ∧
      tplOk 4096 (template 0 0 0x300 4) = true) ∧
    templateIn (curGroup (postState (template 12 0 0x300 4) 0)) 8 = template 12 0 0x300 4 ∧
      10 ≤ (template 12 0 0x300 4).toNat % 16 := by decide +kernel

/-- A post of all four rows, one of row 4 and 1 more, which overruns, and one with a bit above the entry's number. -/
theorem witness_TemplatesAndPosts_post : (∀ w ∈ [5 * 2 ^ 52, 5 * 2 ^ 52 + 4 * 2 ^ 26 + 1, 2 ^ 57 + 5 * 2 ^ 52],
      let s := postState (template 0 0 0x300 4) w
      let x := tgetD s.teams 2 {}
      tget s.teams 2 = some x ∧ Alone s ∧ Standing s ∧ ScalarsReady s [1, 2] [] ∧ CleanScalars s [1, 2] ∧
        hmode (curGroup s) = false ∧ (curStrand s).stage ≠ 1 ∧ acqPending s = false ∧ (tgetD x.templates 5 {}).valid = true ∧
        postDestOk s (curGroup s) (template 0 0 0x300 4) 4 = true ∧ postTileFree s 2 (template 0 0 0x300 4) = true ∧
        (queueOf s 0 (tPrio (template 0 0 0x300 4))).length < 64) ∧
    ruleRows 4 0 = some (0, 4) ∧ ruleRows 4 (4 * 2 ^ 26 + 1) = none := by
  unfold Alone Standing ScalarsReady CleanScalars; decide +kernel

/-- A post waiting for its acceptance, at stage 1 of its XPOST; the queue before it full. -/
theorem witness_TemplatesAndPosts_wait : let s := { postState (template 0 0 0x300 4) (5 * 2 ^ 52) with
      groups := [(3, { posting (template 0 0 0x300 4) (5 * 2 ^ 52) with stack := [{ mask := 0xFFFF#64, stage := 1, request := 9 }] })]
      posts := [(9, { phase := .waiting })], btes := [(0, { queues := [(0, (List.range 64).map (· + 100))] })] }
    (curStrand s).stage = 1 ∧ (tget s.posts (curStrand s).request).map (·.phase) = some .waiting ∧
      64 ≤ (queueOf s 0 0).length ∧ Alone s ∧ Standing s := by
  unfold Alone Standing; decide +kernel

/-- Post 9 of four rows by group 3. -/
abbrev aPost (b : BitVec 512) (phase : PostPhase) (count : Nat) : Post :=
  { team := 2, launch := 1, gid := 3, tidx := 5, bits := b, count := count, phase := phase, awaits := [8] }

abbrev bteState (p : Post) : State :=
  { postState p.bits 0 with posts := [(9, p)], btes := [(0, { queues := [(0, [9])] })], nextId := 10 }

/-- A copy, a copy into a tile, one of no rows, and a remote post whose device lies outside the shape. -/
theorem witness_PostsRun : ∀ p ∈ [aPost (template 0 0 0x300 4) .waiting 4, aPost (template 0 2 7 1) .waiting 1,
      aPost (template 0 0 0x300 4) .waiting 0, aPost (template 3 0 0x300 4 ||| 0xFF000000#512) .waiting 4],
    let s := bteState p
    let x := tgetD s.teams p.team {}
    (∀ staged, postAwaits s { p with staged := staged }) ∧ tget s.posts 9 = some p ∧ tget s.teams p.team = some x ∧ (tget x.templates p.tidx).isSome = true ∧
      tKind p.bits < 6 ∧ p.status = none ∧ (queueOf s p.cluster (tPrio p.bits)).length < 64 ∧
      x.phase = .resident ∧ x.mate = none ∧ x.snap = none ∧ (tgetD s.launches p.launch {}).aborted = false := by
  unfold postAwaits; decide +kernel

/-- A copy of 64 bytes within the page, at its only cart. -/
theorem witness_PostsRun_cart : let p := aPost (template 0 0 0x300 4) .queued 4
    let s := bteState p
    let n := cartLen s p
    tget s.posts 9 = some p ∧ (∀ q ∈ s.posts, (tgetD s.launches q.2.launch {}).aborted = false ∧ q.2.far = false ∧ q.2.slots = []) ∧
      ((tget s.teams p.team).map (·.phase)) = some .resident ∧ s.notes.length ≤ p.since ∧
      (tgetD s.btes 0 {}).turn % 8 = 0 ∧ (queueOf s 0 0).head? = some 9 ∧ tPrio p.bits = 0 ∧ tKind p.bits = 0 ∧
      tDsp p.bits = 0 ∧ tSsp p.bits = false ∧ cartReady s 0 9 p = true ∧ n = 64 ∧ n = postBytes p - p.sent ∧
      tgtV (tTsr p.bits) = false ∧ (transPieces s (.hub 0) p.ctx 0 (srcPieces p p.sent n)).toOption =
        some [(0x200, 16), (0x210, 16), (0x220, 16), (0x230, 16)] ∧
      (transPieces s (.hub 0) p.ctx 1 (dstPieces p p.sent n)).toOption =
        some [(0x300, 16), (0x310, 16), (0x320, 16), (0x330, 16)] ∧
      ∀ y ∈ sideBytes s p.team false [(0x200, 16), (0x210, 16), (0x220, 16), (0x230, 16)], y.2 = false := by
  decide +kernel

theorem witness_PostsRun_finish : ∀ st ∈ [0, 3], let p := { aPost (template 0 0 0x300 4) .finished 4 with status := some st }
    let s := bteState p
    let x := tgetD s.teams 2 {}
    tget s.posts 9 = some p ∧ tget s.teams p.team = some x ∧ (tget x.templates p.tidx).isSome = true ∧
      x.phase = .resident ∧ x.mate = none ∧ x.snap = none ∧ tgtV (tTsr p.bits) = false ∧ tgtV (tTdl p.bits) = true ∧
      p.ended = false ∧ p.slots = [] ∧ (s.fabric.agreement.mine = true → s.fabric.agreement.owesAccept = false) ∧
      tgtQ (tTdl p.bits) = false := by decide +kernel

/-- Requests of every kind, sent 2²⁶ cycles ago, the last answer of a write that delivers all, and a read of two pieces. -/
theorem witness_RemoteRequests : ∀ k ∈ [0, 1, 2], let r : Request := { post := 9, kind := k, len := 64, segs := [(0x300, 64)], live := true }
    let s := { bteState (aPost (template (3 + k) 0 0x300 4) .queued 4) with
      ports := [(0, { state := 3 })], btes := [(0, { requests := [(4, r)] })], clocks := [(Config.clockBte 0, 2 ^ 26)] }
    let p := tgetD s.posts 9 {}
    Linked s ∧ (∀ q ∈ s.posts, (tget s.teams q.2.team).all (·.phase == .resident) = true) ∧
      tget (tgetD s.btes 0 {}).requests 4 = some r ∧ tget s.posts r.post = some p ∧ p.status = none ∧ p.phase = .queued ∧
      tDsp p.bits = 0 ∧ tgtV (tTsr p.bits) = false ∧ r.kind < 3 ∧
      r.sentAt + 2 ^ 26 ≤ tgetD s.clocks (Config.clockBte 0) 0 ∧ (1 : Nat) ≠ r.gen ∧ (r.kind = 0 → postBytes p = r.len) := by
  unfold Linked; decide +kernel

/-- Pages of another device's request that translate, that do not, and an element that it may not write. -/
theorem witness_RemoteRequests_serve : let s := postState 0#512 0
    (transPieces s .bare 0 1 [(0x200, 8)]).toOption = some [(0x200, 8)] ∧
      (transPieces s .bare 0 0 [(0x200, 8)]).toOption = some [(0x200, 8)] ∧
      (∀ y ∈ sideBytes s 0 false [(0x200, 8)], y.2 = false) ∧ (transPieces s .bare 0 1 [(0x5000, 8)]).toOption = none ∧
      (translateNow s .bare 0 0x200#64 1).toOption = some (0x200, 0) ∧
      (∃ y ∈ sideBytes { s with poison := [0x40] } 0 false [(0x200, 8)], y.2 = true) ∧
      linked { s with ports := [(0, { state := 3 })] } = true := by
  decide +kernel

/-! ### Conversations -/

/-- A protocol image: initial state 0, two roles, one edge: kind 0 from role 0 to role 1, in state 0 to state 1. -/
abbrev image : List Byte := leBytes (2 ^ 8) 8 ++ List.replicate 56 0#8 ++ leBytes (2 ^ 15 + 2 ^ 9 + 2 ^ 4) 2 ++ List.replicate 1022 0#8

abbrev talking (g : Group) : State :=
  { device g {} 0 with
    mem := mwrite tables 0x200 image, contexts := [(0, { root := 0x100000#64, en := true })]
    protocols := [(6, { launch := 1, nrole := 2, entries := imageEntries image })] }

abbrev talker (a : Nat) : Group := { oneGroup with sregs := [(1, BitVec.ofNat 64 a), (2, 5#64)] }

theorem imageEntries_image : imageEntries image = 0x8210#16 :: List.replicate 511 0#16 := by
  have h : ∀ k, k < 512 → BitVec.ofNat 16 (leNat ((image.drop (64 + 2 * k)).take 2)) = if k = 0 then 0x8210#16 else 0#16 := by
    intro k hk
    by_cases h0 : k = 0
    · subst h0; decide +kernel
    · have e : image = (leBytes (2 ^ 8) 8 ++ List.replicate 56 0#8 ++ leBytes (2 ^ 15 + 2 ^ 9 + 2 ^ 4) 2) ++
          List.replicate 1022 0#8 := rfl
      rw [e, List.drop_append, List.drop_eq_nil_of_le (by simp [leBytes]; omega)]
      have m : min 2 (1022 - (64 + 2 * k - 66)) = 2 := by omega
      simp only [List.nil_append, List.drop_replicate, List.take_replicate, List.length_append, List.length_replicate]
      rw [show (leBytes (2 ^ 8) 8).length + 56 + (leBytes (2 ^ 15 + 2 ^ 9 + 2 ^ 4) 2).length = 66 by decide, m, if_neg h0]
      decide
  have g : imageEntries image = (List.range 512).map fun k => if k = 0 then 0x8210#16 else 0#16 := by
    unfold imageEntries
    exact List.map_congr_left fun k hk => h k (List.mem_range.1 hk)
  rw [g]
  decide +kernel

theorem entry_image (n : Nat) : (0x8210#16 :: List.replicate 511 0#16).getD n 0#16 = if n = 0 then 0x8210#16 else 0#16 := by
  rcases n with _ | n
  · rfl
  · rw [if_neg (Nat.succ_ne_zero n), List.getD_cons_succ, List.getD_eq_getElem?_getD, List.getElem?_replicate]
    split <;> rfl

theorem imageSound : ImageSound image := by
  refine ⟨by decide +kernel, by decide +kernel, by decide +kernel, ?_, ?_⟩ <;>
    simp only [imageEntries_image, entry_image]
  · intro st k _ _
    split <;> decide +kernel
  · intro st j k _ _ _ hb
    split at hb <;> simp at hb

/-- A plain view of memory. -/
theorem laneView_plain (s : State) (o : Out) (pa n : Nat) (hp : s.poison = []) (hl : (coreAt s o.core).lines = [])
    (hs : o.space = 0) (hh : ∀ x, heldByte s o x = none) :
    laneView s o { pa := pa } n = (mread s.mem pa n).map fun b => (b, false) := by
  have e : ∀ c : Bool, (if c = true then l1View s o.core pa n else bytesWith s.mem s.poison pa n) =
      (List.range n).map fun k => (mget s.mem (pa + k), false) := by
    intro c; split <;> simp [l1View, hl, tget, bytesWith, hp]
  simp only [laneView, hs, hh, e, mread, List.map_map]
  rw [if_neg (by decide)]
  refine List.map_congr_left fun k hk => ?_
  simp [List.getD_eq_getElem?_getD, List.mem_range.1 hk]

theorem ok_of_toOption {ε α : Type} {x : Except ε α} {a : α} (h : x.toOption = some a) : x = .ok a := by
  rcases x with _ | x
  · cases h
  · cases h; rfl

/-- The image at 0x200 as CPROTO reads it, without poison. -/
theorem image_read : readImage (talking (talker 0x200)) 0x200#64 1088 =
    .ok (image.map fun b => (b, false), talking (talker 0x200)) := by
  have h : (translatePieces (curGroup (talking (talker 0x200))) 0
      ((cutAt 4096 (0x200#64 : Word).toNat 1088).map fun x => (BitVec.ofNat 64 x.1, x.2)) (talking (talker 0x200))).toOption =
      some ([(0x200, 1088)], talking (talker 0x200)) := by
    decide +kernel
  have w : ownAccess (talking (talker 0x200)) 0 [(0x200, 1088)] = false := by decide +kernel
  have c : (([(0x200, 1088)] : List (Nat × Nat)).flatMap fun x => cutAt 16 x.1 x.2) =
      (List.range 68).map fun k => (0x200 + 16 * k, 16) := by decide +kernel
  have v : (((List.range 68).map fun k => (0x200 + 16 * k, 16)).flatMap fun x =>
      laneView (talking (talker 0x200)) { owner := .team 2 } { pa := x.1 } x.2) = image.map fun b => (b, false) := by
    have p : ∀ k, laneView (talking (talker 0x200)) { owner := .team 2 } { pa := 0x200 + 16 * k } 16 =
        (mread (talking (talker 0x200)).mem (0x200 + 16 * k) 16).map fun b => (b, false) :=
      fun k => laneView_plain _ _ _ _ rfl rfl rfl fun _ => rfl
    have q : ((List.range 68).flatMap fun k => mread (talking (talker 0x200)).mem (0x200 + 16 * k) 16) = image := by
      decide +kernel
    rw [List.flatMap_map, funext p, ← List.map_flatMap, q]
  unfold readImage
  dsimp only
  rw [ok_of_toOption h]
  dsimp only [bind, Except.bind]
  rw [w, c]
  exact congrArg (fun l => Except.ok (l, talking (talker 0x200))) v

/-- CPROTO of the image at 0x200 (`image_read` reads it, `imageSound` says that it is well formed) and of a misaligned one,
COPEN of protocols 6 and 7. -/
theorem witness_Conversations : (∀ a ∈ [0x200, 0x208, 6, 7], let s := talking (talker a)
      Alone s ∧ ScalarsReady s [1] [5] ∧ CleanScalars s [1] ∧ hmode (curGroup s) = false) ∧
    protoLive (talking (talker 6)) 6 = true ∧ protoLive (talking (talker 6)) 7 = false ∧
    (homesOf 0 false).find? (fun h => !(freeObjects (talking (talker 6)) h).isEmpty) = some 0 := by
  unfold Alone ScalarsReady CleanScalars; decide +kernel

/-- A directory without a free entry. -/
theorem witness_Conversations_full : ∀ k, k < 256 → protoLive { talking (talker 0x200) with
    protocols := (List.range 256).map fun k => (k, { launch := 1 }) } k = true := by decide +kernel

/-- Objects 0 of home 0 and of port home 128, open in generation 1; group 3 has a request waiting. -/
abbrev conversing (q : ConvRequest) (e : Entry) : State :=
  { talking { talker (2 ^ 32) with stack := [{ e with mask := 0xFFFF#64 }] } with
    convs := [(0, { proto := 6, live := true, gen := 1, roles := [(0, { gid := 3 })] }),
      (256 * 128, { proto := 6, live := true, gen := 1, roles := [(0, { dev := 1, gid := 8 })] })]
    convRequests := [(9, { q with gid := 3, handle := 0x100000000#64 })], nextId := 10 }

theorem witness_Conversations_request : ∀ e ∈ [({} : Entry), { stage := 1, request := 9 }], let s := conversing {} e
    ∃ r, convRule (.csend ⟨1, 2, 0, 0, 1, 0, 0⟩) (curGroup s) = some r ∧ Alone s ∧ Standing s ∧
      ScalarsReady s r.sources r.dests ∧ CleanScalars s r.sources ∧ r.dests.Nodup ∧ (∀ x ∈ r.dests, x < 128) ∧
      (r.op = 0 → earlierAccesses s = [] ∧ pendingWb s (curGroup s).core (fun _ => true) = []) ∧ acqPending s = false ∧
      hmode (curGroup s) = false ∧ r.handle.extractLsb' 8 24 = 0#24 ∧ (r.handle.extractLsb' 48 8).toNat < 98 ∧
      (r.handle.extractLsb' 56 8).toNat = devNo s := by
  intro s h
  simp only [List.mem_cons, List.not_mem_nil, or_false] at h
  rcases h with rfl | rfl <;>
  exact ⟨_, rfl, by unfold Alone Standing ScalarsReady CleanScalars; decide +kernel⟩

/-- A handle of port home 128 of this device, and of device 1: a request of the cluster's BTE is free. -/
theorem witness_Conversations_port : ∀ dev ∈ [0, 1], let a := 2 ^ 32 + 128 * 2 ^ 48 + dev * 2 ^ 56
    let s := { conversing {} {} with groups := [(3, talker a)] }
    ∃ r, convRule (.csend ⟨1, 2, 0, 0, 1, 0, 0⟩) (curGroup s) = some r ∧ Alone s ∧ Standing s ∧ (curStrand s).stage = 0 ∧
      r.handle.extractLsb' 8 24 = 0#24 ∧ (r.handle.extractLsb' 48 8).toNat = 128 ∧ (r.handle.extractLsb' 56 8).toNat = dev ∧
      dev ∉ s.fabric.agreement.lost ∧ freeRequest s 0 = some 0 ∧ convLive s 0 < 16 := by
  intro d h
  simp only [List.mem_cons, List.not_mem_nil, or_false] at h
  rcases h with rfl | rfl <;>
  exact ⟨_, rfl, by unfold Alone Standing; decide +kernel⟩

/-- CRECV and CBIND with their destinations, a handle that points nowhere, and answers of both kinds. -/
theorem witness_Conversations_answers : let s := conversing { answered := true, code := 0x21 } { stage := 1, request := 9 }
    ∃ r, convRule (.crecv ⟨5, 1, 16, 0, 0⟩) (curGroup s) = some r ∧ ScalarsReady s r.sources r.dests ∧ r.dests.Nodup ∧
      (∀ x ∈ r.dests, x < 128) ∧ (tget s.convRequests 9).map (fun q => (q.answered, q.code)) = some (true, 0x21) ∧
      (∃ u, convRule (.cbind ⟨5, 2, 0, 0⟩) { curGroup s with sregs := [(2, 0x100#64)] } = some u ∧ u.op = 2 ∧
        u.dests = [5] ∧ u.handle.extractLsb' 8 24 ≠ 0#24) :=
  ⟨_, rfl, by unfold ScalarsReady; decide +kernel, by decide +kernel, by decide +kernel, by decide +kernel, _, rfl, rfl, rfl,
    by decide +kernel⟩

theorem witness_Conversations_home : let s := conversing { op := 0, role := 0, kind := 0 } {}
    let q := tgetD s.convRequests 9 {}
    tget s.convRequests 9 = some q ∧ (tget s.groups q.gid).isSome = true ∧ q.answered = false ∧
      (q.handle.extractLsb' 56 8).toNat = devNo s ∧ partyRuns s q.gid = true ∧ earlierSend s 9 q = false ∧ q.op < 5 ∧
      (tgetD s.convs 0 {}).waiters = [] ∧ (tgetD s.convs (256 * 128) {}).waiters = [] ∧
      (ruleVerdict (tgetD s.protocols 6 {}) (tgetD s.convs 0 {}) { gid := 3 } 1 0 0 0 []).isSome = true ∧
      ruleVerdict (tgetD s.protocols 6 {}) (tgetD s.convs 0 {}) { gid := 3 } 1 1 0 0 [] = none ∧
      (ruleVerdict (tgetD s.protocols 6 {}) (tgetD s.convs (256 * 128) {}) { dev := 1, gid := 8 } 1 0 0 0 []).isSome = true ∧
      linked { s with ports := [(0, { state := 3 })] } = true ∧
      ∃ q ∈ (tgetD { s with convs := [(256 * 128, { waiters := [{ (default : ConvMsg) with dev := 1, tag := 4 }] })] }.convs (256 * 128)
        {}).waiters, q.dev = 1 ∧ q.tag = 4 := by
  decide +kernel

theorem test_send_moves_state : (tgetD (after (exec (.convMessageAtHome 9 ⟨5, 0, 0, 0, 0, 0, 0, 0, 0, []⟩) (conversing { op := 0, payload := [7#64] } {}))).convs 0 {}).state = 1 := by
  decide +kernel

/-! ### Links and spawned groups -/

/-- Core 0 is at the north-west corner: east and south have neighbours. A queue with `n` words. -/
abbrev withLinks (n : Nat) : State :=
  { device vectors {} 0 with
    cores := [(0, { links := [(1, List.replicate n {})] }), (1, { links := [(3, List.replicate n {})] })] }

theorem witness_NeighbourLinks : ∀ n ∈ [0, 1, 31, 32], (Alone (withLinks n) ∧ VectorsReady (withLinks n) [5] [7] ∧
      NoneDue (withLinks n) [5, 7]) ∧ guardedLanes (curGroup (withLinks n)) (curStrand (withLinks n)) 0 0 ≠ [] ∧
      neighbour (curGroup (withLinks n)).core 0 = none ∧ (neighbour (curGroup (withLinks n)).core 1).isSome = true ∧
      (tgetD (coreAt (withLinks n) 0).links 1 []).length = n := by
  unfold Alone VectorsReady NoneDue; decide +kernel

/-- Lanes of p1 deposit records for entry 0x2000 and counter 0x300; a bin of the key with 0 to 8 records. -/
abbrev spawning (g : Group) (bins : Tab Bin) : State :=
  { device { g with sregs := [(8, 0x2000#64), (9, 0x300#64), (10, 0x2004#64)], preds := [(1, 0x00FF#64)] } {} 0 with
    cores := [(0, { tlb := [lowPage], bins := bins, cycle := 70 })] }

abbrev aBin (n : Nat) (must : Bool) : Bin :=
  { launch := 1, entry := 0x2000#64, counter := 0x300#64, recs := List.replicate n {}, must := must }

theorem witness_Spawning : ∀ bins ∈ [[], [(0, aBin 7 false)], [(0, aBin 8 false)]], let s := spawning oneGroup bins
    Alone s ∧ ScalarsReady s [8, 9] [] ∧ CleanScalars s [8, 9] ∧ VectorsReady s [0, 1, 2, 3] [] ∧ NoneDue s [0, 1, 2, 3] ∧
      (guardedLanes (curGroup s) (curStrand s) 0 1).length = 8 ∧ hmode (curGroup s) = false ∧ (curStrand s).stage = 0 ∧
      (getS (curGroup s) 8).toNat % 8 = 0 ∧ (getS (curGroup s) 10).toNat % 8 ≠ 0 ∧ (located s 0 1 8 0x300#64).isSome = true ∧
      spawnFits s 0 (tgetD s.launches 1 {}) = true ∧ s.cur.gid < s.nextId := by
  unfold Alone ScalarsReady CleanScalars VectorsReady NoneDue; decide +kernel

/-- A bin whose timer has run out, one that must launch, a core with no free slot, and a spawned group that has ended. -/
theorem witness_Spawning_bins : (let s := spawning oneGroup [(0, aBin 16 false), (1, aBin 1 true)]
      let l := tgetD s.launches 1 {}
      tget (coreAt s 0).bins 0 = some (aBin 16 false) ∧ (aBin 16 false).since + recField l.record 240 16 + 1 ≤ (coreAt s 0).cycle ∧
        spawnFits s 0 l = true ∧ tget (coreAt s 0).bins 1 = some (aBin 1 true)) ∧
    spawnFits (spawning { oneGroup with held := (List.range 255).map (· + 1) } []) 0 {} = false := by decide +kernel

theorem witness_Spawning_end : let s := { postState 0#512 0 with
      groups := [(3, { oneGroup with owner := .spawned 7, ended := true })]
      spawned := [(7, { launch := 1, count := 5, counter := 0x300#64, chk := { pw := true } })] }
    (tget s.spawned 7).isSome = true ∧ (∀ g ∈ s.groups, g.2.owner = .spawned 7 → g.2.ended = true) ∧
      (∀ o ∈ s.outs, o.2.owner ≠ .spawned 7) ∧ ownerDirty s (.spawned 7) = false ∧
      (translateNow s .bare (tgetD s.launches 1 {}).queue 0x300#64 1).toOption = some (0x300, 0) := by decide +kernel

theorem test_bin_launch_registers : (((after (exec (.spawnBinLaunch 0 1) (spawning oneGroup
    [(1, { aBin 1 true with recs := [{ args := [4#32, 5#32, 6#32, 7#32] }] })]))).groups.getLast?).map fun g =>
    (getV g.2 0 0, getV g.2 3 0, g.2.stack.map fun e => (e.pc, e.mask))) =
    some (4#32, 7#32, [(0x2000#64, 1#64)]) := by decide +kernel


/-! ### Special registers, traps and the small system instructions -/

/-- A group in its handler; s1 and s2 of the handler are 15 and 16. -/
abbrev handling : Group :=
  { oneGroup with
    sregs := [(20, 15#64), (21, 16#64), (22, 0x4000#64), (23, 512#64)]
    handler := some { strand := { pc := 0x2000#64, mask := 0xFFFF#64 }, tpc := 0x1008#64, tileStates := [(7, 2)] } }

abbrev handlingState : State := device handling { tiles := [(7, tileOf 0)], points := [(3, { init := true, expected := 4 })] } 0

/-- SRD of a vector, of a plain special register, of machine state inside a handler, at the last lane and past it, and
outside one. -/
theorem witness_SpecialReads : (∀ o ∈ [(⟨4, 0, 0, 1, 0, 13⟩ : SrdOp), ⟨4, 0, 0, 0, 0, 18⟩, ⟨4, 20, 0, 0, 1, 5⟩, ⟨4, 21, 0, 0, 1, 5⟩, ⟨4, 0, 0, 0, 2, 5⟩],
      (Instr.srd o).wf = true) ∧
    (∀ s ∈ [handlingState, device scalars {} 0], Alone s ∧ VectorsReady s [] [4] ∧ NoneDue s [4] ∧ ScalarsReady s [20, 21] [4] ∧
      CleanScalars s [20, 21]) ∧ hmode (curGroup handlingState) = true ∧ hmode (curGroup (device scalars {} 0)) = false ∧
    IndexDeclared handlingState 1#5 5 ∧ ¬IndexDeclared { handlingState with
      launches := [(1, { record := recordOf 0 - BitVec.ofNat 1024 (31 * 2 ^ 192), next := 1 })] } 1#5 20 ∧
    (curStrand handlingState).stage = 0 ∧ usesLane 1#5 ∧ ¬usesLane 2#5 ∧ (getS (curGroup handlingState) 20).toNat = 15 ∧
    (ruleMachine handlingState 1 5 15).isSome = true ∧ ruleMachine handlingState 1 5 16 = none ∧
    (ruleMachine handlingState 2 127 0).isSome = true := by
  unfold Alone VectorsReady NoneDue ScalarsReady CleanScalars usesLane IndexDeclared; decide +kernel

/-- SWR of each class; the lane, entry, component or element that s20 and s21 name. -/
theorem witness_StateWrites : (∀ o ∈ [(⟨22, 0, 0, 0, 17⟩ : SwrOp), ⟨22, 20, 0, 1, 5⟩, ⟨22, 0, 0, 2, 5⟩, ⟨22, 0, 0, 3, 5⟩, ⟨22, 0, 0, 4, 15⟩,
        ⟨22, 20, 0, 5, 2⟩, ⟨22, 24, 0, 6, 3⟩, ⟨22, 24, 0, 7, 7⟩, ⟨22, 20, 0, 8, 3⟩, ⟨22, 24, 0, 9, 31⟩], (Instr.swr o).wf = true) ∧
    Alone handlingState ∧ ScalarsReady handlingState [22, 20, 24] [] ∧ CleanScalars handlingState [20, 24] ∧
    hmode (curGroup handlingState) = true ∧
    (∀ x ∈ [(1, 5, 15), (2, 5, 0), (3, 5, 0), (4, 15, 0), (5, 2, 15), (6, 3, 2), (7, 7, 1), (8, 3, 16383), (9, 31, 7)],
      (ruleMachine handlingState x.1 x.2.1 x.2.2).isSome = true) ∧
    (∀ x ∈ [(1, 5, 16), (5, 2, 512), (6, 3, 3), (7, 7, 2), (8, 3, 16384), (9, 31, 8)],
      ruleMachine handlingState x.1 x.2.1 x.2.2 = none) ∧
    (tget handlingState.launches (launchKey handlingState (curGroup handlingState))).isSome = true ∧
    pointOf handlingState (curGroup handlingState) 3 = some (false, { init := true, expected := 4 }) ∧
    (tget handlingState.teams 2).isSome = true ∧ NoneWaits handlingState ∧ (curStrand handlingState).stage = 0 ∧
    IndexDeclared handlingState 1#5 5 ∧ ¬AwaitsReply handlingState 5 true := by
  unfold Alone ScalarsReady CleanScalars AwaitsReply NoneWaits IndexDeclared; decide +kernel

abbrev withHandler (s : State) : State :=
  { s with launches := [(1, { record := recordOf 0 ||| (0x3000#1024 <<< 384), next := 1 })] }

/-- TRAP, BRK and an undefined word in a launch with a handler and in one without, and in a handler. -/
theorem witness_TrapEntryAndReturn : ∀ s ∈ [withHandler (device scalars {} 0), device scalars {} 0, withHandler handlingState],
    Alone s ∧ Standing s ∧ (curStrand s).stage = 0 ∧
      (recField (launchOf s (curGroup s)).record 384 57 = 0 ∨ recField (launchOf s (curGroup s)).record 384 57 = 0x3000) := by
  unfold Alone Standing; decide +kernel

/-- RETT with a sound stack, with an empty mask, and with a mask beyond the width. -/
theorem witness_TrapEntryAndReturn_rett :
    (Alone handlingState ∧ (∀ e ∈ (curGroup handlingState).stack, e.mode = .live ∧ e.pc.toNat % 8 = 0 ∧ e.mask = 0xFFFF#64 ∧
        e.reconv ≠ some e.pc ∧ e.reconv ≠ some 0x1008#64) ∧ (∀ l, l < 64 → (0xFFFF#64).getLsbD l = true → l < 16) ∧
      ((curGroup handlingState).stack.map (·.id)).Nodup ∧ (tget handlingState.teams 2).isSome = true ∧
      (∀ h, (curGroup handlingState).handler = some h → h.tileStates.Pairwise (fun a b => a.1 < b.1))) ∧
    Alone (device { handling with stack := [{ mask := 0x1FFFF#64 }] } {} 0) ∧ (0x1FFFF#64).getLsbD 16 = true := by
  unfold Alone; decide +kernel

/-- PNOPRE, ISYNC and IINV of 0, 64, 2³² − 1 and 2³² bytes. -/
theorem witness_SystemAndLaunch : ∀ n ∈ [0, 64, 2 ^ 32 - 1, 2 ^ 32],
    let s := { device (withNumbers n 0) {} 0 with mem := tables, contexts := [(0, { root := 0x100000#64, en := true })] }
    Alone s ∧ hmode (curGroup s) = false ∧ Standing s ∧ (curStrand s).reconv ≠ some (nextPc (curStrand s)) ∧
      ScalarsReady s [1, 2] [] ∧ CleanScalars s [1, 2] ∧ (getS (curGroup s) 2).toNat = n ∧
      (translateNow s (.core 0) (launchOf s (curGroup s)).queue 0#64 0).toOption = some (0, 0) := by
  unfold Alone Standing ScalarsReady CleanScalars; decide +kernel

/-- LAUNCH into queue 4 with its last place free, with none, of a queue that is not device code's, and of a record that
is misaligned. -/
abbrev launching (a n tail : Nat) : State :=
  { device { oneGroup with sregs := [(1, BitVec.ofNat 64 a), (2, BitVec.ofNat 64 n)] } {} 0 with
    mem := tables, contexts := [(0, { root := 0x100000#64, en := true }), (4, { root := 0x100000#64, en := true })]
    queues := [(4, { base := 0x800#64, tail := BitVec.ofNat 32 tail, log2 := 2, dev := true, en := true })] }

theorem witness_SystemAndLaunch_launch : ∀ x ∈ [(0x400, 4, 3), (0x400, 4, 4), (0x400, 5, 3), (0x400, 64, 3), (0x440, 4, 3)],
    let s := launching x.1 x.2.1 x.2.2
    Alone s ∧ hmode (curGroup s) = false ∧ ScalarsReady s [1, 2] [5] ∧ CleanScalars s [1, 2] ∧ earlierAccesses s = [] ∧
      pendingWb s 0 (fun _ => true) = [] := by
  unfold Alone ScalarsReady CleanScalars; decide +kernel

theorem witness_SystemAndLaunch_slot : (readImage (launching 0x400 4 3) 0x400#64 128).toOption.isSome = true ∧
    (translateNow (launching 0x400 4 3) (.core 0) 4 0x980#64 1).toOption = some (0x980, 0) ∧ (tgetD (launching 0x400 4 3).queues 4 {}).dev = true := by
  decide +kernel

theorem test_trap_saves : let t := after (exec (.trap ⟨7⟩) (withHandler (device scalars {} 0)))
    (hmode (curGroup t), (curStrand t).pc, (curGroup t).handler.map fun h => (h.tpc, h.tinfo.extractLsb' 0 8)) =
      (true, 0x3000#64, some (0x1008#64, 0x38#8)) := by decide +kernel
theorem test_rett_returns : let t := after (exec .rett handlingState)
    (hmode (curGroup t), (curStrand t).pc, ((tgetD (tgetD t.teams 2 {}).tiles 7 0#128).extractLsb' 0 2).toNat) =
      (false, 0x1008#64, 2) := by decide +kernel
theorem test_srd_coreid : getS (curGroup (after (exec (.srd ⟨5, 0, 0, 0, 0, 5⟩)
    (device { scalars with core := 17 } {} 0)))) 5 = 17#64 := by decide +kernel


/-! ### Coaches, the landing area, home slices and walks -/

/-- Access 9 of group 3 with a coach, on train 11. -/
abbrev coached (c : Coach) : Out := { anAccess .load 0 5 8 1 0 with coach := some c }

abbrev travelling (c : Coach) (x : Train) (src : Source) (more : Tab Out) : State :=
  { device addressing {} 0 with
    outs := (9, coached c) :: more, trains := [(11, x)], sources := [(x.src, src)], nextId := 20 }

/-- A coach without a train whose turn has come, and one whose turn has not. -/
theorem witness_CoachesTravel_queued : ∀ staged ∈ [true, false],
    let o : Out := { coached { phase := .queued } with staged := staged }
    let s := { travelling {} {} { flight := [12, 13, 14] } [] with outs := [(9, o)], trains := [] }
    HasCoach s 9 o { phase := .queued } ∧ (∀ t ∈ s.trains, t.2.cargo = .coach → t.2.item ≠ 9) ∧
      (sourceAt s o.core).inject = [] ∧ (∀ y ∈ s.outs, y.2.core = o.core → y.2.coach ≠ none → y = (9, o)) ∧
      outReady o = staged ∧ (sourceAt s o.core).flight.length < 4 := by
  unfold HasCoach; decide +kernel

/-- A train waiting with three and with four before it; trains under way outward and home. -/
theorem witness_CoachesTravel : (∀ n ∈ [3, 4],
      let s := travelling { phase := .outward } { src := 5, item := 9 } { inject := [11], flight := (List.range n).map (· + 12) } []
      HasCoach s 9 (coached { phase := .outward }) { phase := .outward } ∧ Carries s 9 11 { src := 5, item := 9 } ∧
        (sourceAt s 5).inject = [11] ∧ (sourceAt s 5).flight.length = n ∧
        ∀ o ∈ s.outs, o.2.coach.all (fun c => c.phase != .queued) = true) ∧
    (∀ home ∈ [true, false],
      let s := travelling { phase := .outward } { src := 5, item := 9, home := home } { flight := [11] } []
      HasCoach s 9 (coached { phase := .outward }) { phase := .outward } ∧
        Carries s 9 11 { src := 5, item := 9, home := home } ∧ 11 ∈ (sourceAt s 5).flight) := by
  unfold HasCoach Carries; decide +kernel

/-- A coach before a store that takes exactly its carriages, and before a full one, its train the golden one or not. -/
theorem witness_CoachesTravel_store :
    (let full := coached { phase := .stored, carriages := 8189 }
      let s := travelling { phase := .before, carriages := 3 } { src := 0, item := 9 } { flight := [11] } [(10, full)]
      HasCoach s 9 (coached { phase := .before, carriages := 3 }) { phase := .before, carriages := 3 } ∧
        Carries s 9 11 { src := 0, item := 9 } ∧ StoreRoom s { carriages := 3 }) ∧
    ∀ golden ∈ [none, some 11],
      let full := coached { phase := .stored, carriages := 8189 }
      let s := travelling { phase := .before, carriages := 4 } { src := 0, item := 9 } { flight := [11] } [(10, full)]
      let s := { s with goldenTrain := golden }
      HasCoach s 9 (coached { phase := .before, carriages := 4 }) { phase := .before, carriages := 4 } ∧
        Carries s 9 11 { src := 0, item := 9 } ∧ ¬StoreRoom s { carriages := 4 } ∧ s.goldenTrain = golden := by
  unfold HasCoach Carries StoreRoom; decide +kernel

/-- An access at its anchor: its lanes pass, and lie past the DRAM window. -/
theorem witness_CoachesTravel_access : ∀ far ∈ [false, true],
    let c : Coach := { phase := .stored }
    let o : Out := { coached c with lanes := [0, 5].map fun l =>
      { lane := l, mtype := 1, pa := if far ∧ l = 5 then Config.dramSize else 0x100 + 8 * l } }
    let s := { travelling c { item := 9 } {} [] with outs := [(9, o)] }
    (HasCoach s 9 o c ∧ outReady o = true ∧ promotes s o = [] ∧ (∀ a ∈ o.lanes, a.did = false ∧ a.early = none) ∧
      o.kind = .load ∧ o.space ≠ 2 ∧ o.size ≤ 16 ∧ (o.lanes.map (·.lane)).Nodup ∧ ∀ a ∈ o.lanes, ¬keepsToL1 o a) ∧ (∀ k x, (k, x) ∈ s.teams → x.held = []) ∧ ∀ p ∈ s.ports, p.2.state = 0 := by
  intro far h
  simp only [List.mem_cons, List.not_mem_nil, or_false] at h
  refine ⟨?_, ?_, ?_⟩
  · rcases h with rfl | rfl <;> (unfold HasCoach keepsToL1; decide +kernel)
  · intro k x hx
    simp only [List.mem_cons, List.not_mem_nil, or_false, Prod.mk.injEq] at hx
    rw [hx.2]
  · intro p hp; cases hp

/-- A returned coach that is good, bounced and faulty, and one of an older generation. -/
theorem witness_CoachesLand : ∀ st ∈ [0, 1, 0x10], ∀ gen ∈ [0, 1], ∀ h ∈ [true, false],
    let c : Coach := { phase := .returned, status := st, gen := gen, base := 12, count := 3, carriages := 3, hurt := h }
    let s := travelling c {} {} []
    HasCoach s 9 (coached c) c ∧ (tget s.groups (coached c).gid).isSome = true ∧ (∀ g ∈ s.groups, g.2.ended = false ∧ g.2.folds = []) ∧
      (coached c).scalar = false ∧ (coached c).done = false ∧ (∀ a ∈ (coached c).lanes, a.lane < 64) ∧
      ((coached c).lanes.map (·.lane)).Nodup ∧ (coached c).reg + (coached c).nreg ≤ 256 ∧
      (coached c).reg + (coached c).nreg ≤ c.base ∧ tgetD (coreAt s (coached c).core).tagGens c.tag 0 = 0 ∧ (coached c).ord = 0 := by
  unfold HasCoach; decide +kernel

/-- Group 3 in the landing area for 4,096 and for 4,095 cycles, its rows free or taken by group 4, which may be evicted. -/
abbrev landing (rows cycle : Nat) : State :=
  { device addressing {} 0 with
    groups := [(3, { addressing with image := true, rowsOut := 256, rowWait := 10, rowBlocks := [1] }),
      (4, { addressing with slot := 1, rowBlocks := [2] })]
    rowBlocks := [(1, { rows := 256 }), (2, { rows := rows })]
    cores := [(0, { cycle := cycle })], nextId := 5 }

theorem witness_CoachesLand_area : ∀ x ∈ [(256, 4106), (Config.rowsSeated, 4106), (256, 4105)], let s := landing x.1 x.2
    let g := tgetD s.groups 3 {}
    (3, g) ∈ images s 0 ∧ tget s.groups 3 = some g ∧ g.image = true ∧ isSaved s g = false ∧
      s.groups.Pairwise (fun a b => a.1 < b.1) ∧ (∀ y ∈ images s 0, y.1 = 3) ∧ g.rowsOut = 256 ∧ (coreAt s 0).cycle = x.2 := by
  decide +kernel

theorem witness_CoachesLand_rows : 256 ≤ freeRows (landing 256 0) 0 ∧ freeRows (landing Config.rowsSeated 0) 0 < 256 := by decide +kernel

/-- A notice with room for it, and with the table full; write-backs, a performed one, and promotions. -/
abbrev slices (owners : List (Nat × Nat)) : State :=
  { device addressing {} 0 with
    notices := [(9, { core := 0, line := 7 })], owners := [(homeSlice (128 * 7), owners)]
    writeBacks := [(12, { core := 0, sector := 28, mask := 1#32, order := 12 })]
    promotions := [(13, { core := 0 }), (14, { core := 0, received := true })]
    nextId := 20 }

theorem witness_HomeSlices : tget (slices []).notices 9 = some { core := 0, line := 7 } ∧ Foremost (slices []) 0 7 9 ∧
    (ownersOf (slices []) 7).length < 4096 ∧
    (let s := slices ((List.range 4096).map fun k => (k + 8, 1)); (7, 0) ∉ ownersOf s 7 ∧ 4096 ≤ (ownersOf s 7).length ∧ (ownersOf s 7).head? = some (8, 1)) ∧
    (let s := { slices [] with notices := [] }; (∃ w, tget s.writeBacks 12 = some w ∧ w.performed = false) ∧ s.writeBacks.Pairwise (fun a b => a.1 < b.1) ∧
        memWf s.mem = true ∧ ∀ n ∈ s.notices, n.2.core ≠ 0) ∧
    (tgetD { slices [] with writeBacks := [(12, { performed := true })] }.writeBacks 12 {}).performed = true ∧
    (tgetD (slices []).promotions 13 {}).received = false ∧
    ((tgetD (slices []).promotions 14 {}).received = true ∧ (tgetD (slices []).promotions 14 {}).awaits = []) :=
  ⟨rfl, by unfold Foremost; decide +kernel, by decide +kernel, by decide +kernel,
    ⟨⟨_, rfl, rfl⟩, by decide +kernel, by decide +kernel, by decide +kernel⟩, by decide +kernel, by decide +kernel, by decide +kernel⟩

/-- A write-back's train that waits, and one under way; messages that have not arrived. -/
theorem witness_HomeSlices_trains : (∀ l ∈ [({ inject := [11], flight := [] } : Source), { flight := [11] }],
      let s : State := { slices [] with trains := [(11, { cargo := .writeBack, item := 12 })], sources := [(0, l)] }
      tget s.trains 11 = some { cargo := .writeBack, item := 12 } ∧ (sourceAt s 0).flight.length < 4 ∧
        (∀ o ∈ s.outs, o.2.coach.all (fun c => c.phase != .queued) = true) ∧
        ((sourceAt s 0).inject = [11] ∨ 11 ∈ (sourceAt s 0).flight)) ∧
    tget ({ slices [] with notices := [(9, { line := 7, away := true })] } : State).notices 9 = some { line := 7, away := true } ∧
    (tgetD ({ slices [] with promotions := [(14, { received := true, acked := true })] } : State).promotions 14 {}).acked = true := by
  decide +kernel

/-- An acquire at its slice, of a line that core 1 owns. -/
theorem witness_HomeSlices_promotes : let o : Out := reached { anAccess .load 0 5 8 1 0 with ord := 1 }
    let s : State := { withAccess o with owners := [(homeSlice (128 * 2), [(2, 1)])] }
    Due s 9 o ∧ fillsRegister o = true ∧ o.sent = true ∧ (∃ a ∈ o.lanes, a.did = false) ∧ promotes s o ≠ [] := by
  unfold Due; decide +kernel

/-- Walks of page 0 for a read, for a store, of a page without a leaf, and one that is discarded. -/
abbrev walking (w : Walk) : State :=
  { device addressing {} 0 with mem := tables, contexts := [(0, { root := 0x100000#64 })], walks := [(9, w)] }

theorem witness_PageWalks : (∀ w ∈ [({} : Walk), { use := 1 }, { va := 5 }, { va := 2 ^ 45 - 1, dead := true }],
      tget (walking w).walks 9 = some w ∧ w.va < 2 ^ 45) ∧
    (∃ e, ruleWalk (walking {}) 0 0 4 0x100000 = .page e ∧ e.w = true) ∧
    ruleWalk (walking {}) 0 0x5000 4 0x100000 = .fault 0x10 false ∧
    ruleWalk { walking {} with poison := [0x20000] } 0 0 4 0x100000 = .fault 0x10 true :=
  ⟨by decide +kernel, ⟨{ w := true, x := true }, by decide +kernel, rfl⟩, by decide +kernel, by decide +kernel⟩

/-- An invalidation of page 0 that awaits the walk, and one of another context. -/
theorem witness_PageWalks_discarded :
    let s (n : Nat) : State := { walking {} with contexts := [(n, { root := 0x100000#64, running := some { walks := [9] } })] }
    PageDiscarded (s 0) 9 { w := true, x := true } ∧ ¬PageDiscarded (s 3) 9 { w := true, x := true } := by
  refine ⟨⟨_, List.mem_singleton.2 rfl, _, rfl, List.mem_singleton.2 rfl, rfl, .inr (by decide)⟩, ?_⟩
  rintro ⟨c, hc, r, -, -, h, -⟩
  cases List.mem_singleton.1 hc
  cases h

/-- A page that stores may not touch: its leaf has W = 0. -/
theorem witness_PageWalks_denied : ∃ e, ruleWalk { walking {} with mem := mwrite tables 0x104000 (leBytes (2 ^ 60 + 3) 8) } 0 0 4 0x100000 =
    .page e ∧ e.w = false := ⟨{ x := true }, by decide +kernel, rfl⟩

theorem test_walk_installs : (coreAt (after (exec (.translationWalkDone 9) (walking {}))) 0).tlb.headD {} =
    { x := true, w := true, size := 4096 } := by decide +kernel
theorem test_writeback_performs : mget (after (exec (.writebackAtSlice 12) { slices [] with
    notices := [], writeBacks := [(12, { core := 0, sector := 28, mask := 1#32, data := 0x5A#256 })] })).mem (32 * 28) = 0x5A#8 := by
  decide +kernel


/-! ### Launches -/

/-- A record within the limits of R47: a header at 0x400, four records, a pool at 0x200000, cores 0 and 1. -/
abbrev goodRecord : BitVec 1024 :=
  recordOf (0x400 * 2 ^ 64 + 63 * 2 ^ 240) ||| (0x200000#1024 <<< 256) ||| (1#1024 <<< 320) ||| (0x600#1024 <<< 448) |||
    (3#1024 <<< 768)

theorem recordLimits : RecordLimits goodRecord := by
  have h : ∀ x ∈ ruleReserved, ∀ k, k < x.2 → x.1 ≤ k → goodRecord.getLsbD k = false := by decide +kernel
  exact ⟨fun x hx k h1 h2 => h x hx k h2 h1, by decide +kernel⟩

/-- Queue 4 with a record at its head. -/
abbrev queued (r : BitVec 1024) (q : Queue) : State :=
  { device oneGroup {} 0 with
    launches := []
    mem := mwrite bigTables 0x800 (leBytes r.toNat 128)
    contexts := [(4, { root := 0x100000#64, en := true })]
    queues := [(4, q)] }

abbrev aQueue : Queue := { base := 0x800#64, tail := 1#32, log2 := 2, en := true }

theorem headDue (r : BitVec 1024) (q : Queue) (h : q.en = true ∧ q.halted = false ∧ q.head ≠ q.tail) :
    HeadDue (queued r q) 4 q :=
  by
  refine ⟨by decide, rfl, h.1, h.2.1, h.2.2, ?_, by show ([] : List (Nat × Launch)).length < 256; decide⟩
  rintro ⟨_, h, -⟩
  cases h

/-- A head that reads, one outside every page, a dependence that reads 0 and one that does not. -/
theorem witness_LaunchActivation : HeadDue (queued goodRecord aQueue) 4 aQueue ∧
    numberAt (queued goodRecord aQueue) 4 0x800#64 128 = some goodRecord.toNat ∧
    numberAt (queued goodRecord aQueue) 4 0x40000000#64 128 = none ∧
    dependenceReads (queued goodRecord aQueue) 4 goodRecord 0 = some 0 ∧
    dependenceReads (queued goodRecord aQueue) 4 goodRecord 1 = some 0 ∧
    (let r := goodRecord ||| (1#1024 <<< 575) ||| (0x810#1024 <<< 512); dependenceReads (queued r aQueue) 4 r 0 ≠ some 0) ∧
    (let r := goodRecord ||| (1#1024 <<< 575) ||| (0x40000000#1024 <<< 512); dependenceReads (queued r aQueue) 4 r 0 = none) :=
  ⟨headDue _ _ (by decide), by decide +kernel⟩

/-- A dependence whose line core 1 owns, and one whose line no core owns. -/
theorem witness_LaunchActivation_owned : let r := goodRecord ||| (1#1024 <<< 575) ||| (0x810#1024 <<< 512)
    let s (owners : Tab (List (Nat × Nat))) : State := { queued r aQueue with owners := owners }
    (∃ slice core, DependenceOwned (s [(homeSlice 0x810, [(0x10, 1)])]) 4 r slice core) ∧
      (∀ p ∈ (s []).promotions, p.1 < (s []).nextId) ∧ ∀ slice core, ¬DependenceOwned (s []) 4 r slice core := by
  refine ⟨⟨homeSlice 0x810, 1, 0, 0x810, 0, by decide, by decide +kernel, by decide +kernel, ?_, rfl, by decide +kernel⟩,
    ⟨by decide +kernel, ?_⟩⟩
  · exact ok_of_toOption (by decide +kernel)
  · rintro slice core ⟨k, pa, m, -, -, -, -, -, h⟩
    cases h

/-- The record is activated; without cores it is rejected with code 4, and with an odd reserved bit with code 3. -/
theorem witness_LaunchActivation_status : LaunchStatus (queued goodRecord aQueue) 4 goodRecord 0 ∧
    LaunchStatus (queued goodRecord aQueue) 4 (goodRecord ^^^ (3#1024 <<< 768)) 4 ∧
    LaunchStatus (queued goodRecord aQueue) 4 (goodRecord ||| (1#1024 <<< 1000)) 3 := by
  refine ⟨⟨fun h => absurd recordLimits h, fun _ h => absurd h (by decide +kernel), fun _ _ => ⟨?_, ?_, ?_⟩⟩, ⟨?_, ?_, ?_⟩, ?_, ?_, ?_⟩
  · have p : ∀ k, k < recField goodRecord 320 16 * ruleRecord goodRecord / 4096 → (translateNow (queued goodRecord aQueue) .bare 4
        (BitVec.ofNat 64 (recField goodRecord 256 57 + 4096 * k)) 1).toOption.isSome = true := by decide +kernel
    intro h
    refine absurd ⟨by decide +kernel, by decide +kernel, fun k hk => ?_⟩ h
    obtain ⟨x, hx⟩ := Option.isSome_iff_exists.1 (p k hk)
    exact ⟨x, ok_of_toOption hx⟩
  · rintro - ⟨h, e, x, hx, hl⟩
    have z : numberAt (queued goodRecord aQueue) 4 (BitVec.ofNat 64 (recField goodRecord 64 57)) 64 = some 0 := by decide +kernel
    rw [z] at e
    cases e
    simp at hl
  · exact fun _ _ => ⟨fun _ => rfl, fun h => absurd (by decide +kernel) h⟩
  · intro h
    have l : ∀ x ∈ ruleReserved, ∀ k, k < x.2 → x.1 ≤ k → (goodRecord ^^^ (3#1024 <<< 768)).getLsbD k = false := by decide +kernel
    exact absurd ⟨fun x hx k h1 h2 => l x hx k h2 h1, by decide +kernel⟩ h
  · exact fun _ _ => rfl
  · exact fun _ h => absurd (by decide +kernel) h
  · exact fun _ => rfl
  · intro h
    exact absurd (h.1 (964, 1024) (by decide) 1000 (by decide) (by decide)) (by decide +kernel)
  · intro h
    exact absurd (h.1 (964, 1024) (by decide) 1000 (by decide) (by decide)) (by decide +kernel)

/-- Launch 1 of queue 4 with a team to place, the turn due or not, its deficit above or below 0, its cores free or not. -/
abbrev placing (clock : Nat) (deficit : Int) (g : Tab Group) : State :=
  { State.reset with
    groups := g, launches := [(1, { queue := 4, record := goodRecord, next := 1 })]
    queues := [(4, { quant := 10, deficit := deficit })], dist := { lastTurn := some 100 }
    clocks := [(Config.clockDist, clock)], cur := { gid := 0 }, nextId := 10 }

theorem witness_PlacementAndRetirement : ∀ x ∈ [(131, 0), (132, 0), (132, -11)], let s := placing x.1 x.2 []
    Fresh s ∧ s.teams.all (fun t => decide (t.1 < s.nextId)) = true ∧ recField goodRecord 184 3 = 0 ∧
      (∀ t ∈ s.teams, t.2.launch ≠ 1) ∧ 1 < recField goodRecord 128 32 ∧ s.dist.refills = [] ∧
      s.queues.Pairwise (fun a b => a.1 < b.1) ∧ (∀ w ∈ (tgetD s.queues 4 {}).waits, w.1 = 1 → w.2.1 ≠ 1) := by
  unfold Fresh freshGroup; decide +kernel

/-- A team of the launch that has waited. -/
theorem witness_PlacementAndRetirement_waits : ∃ w ∈ (tgetD { placing 132 (-11) [] with
    queues := [(4, { quant := 10, deficit := -11, waits := [(1, 1, 40)] })] }.queues 4 {}).waits, w.1 = 1 ∧ w.2.1 = 1 := by
  decide +kernel

/-- A core set that fits, and, with the slots of cores 0 and 1 taken, none. -/
theorem witness_PlacementAndRetirement_sets :
    ((scanSets (placing 132 0 []) 1).find? fun c => (freshFit (placing 132 0 []) goodRecord c).isSome) = some [0] ∧
    (let s : State := { placing 132 0 [] with
        teams := [(3, { launch := 2, cores := [0] }), (4, { launch := 2, cores := [1] })]
        launches := (placing 132 0 []).launches ++ [(2, { queue := 5, record := recordOf (125 * 2 ^ 208) })] }
    ((scanSets s 1).find? fun c => (freshFit s goodRecord c).isSome) = none) := by decide +kernel

/-- Team 2, whose group has ended; the last of its launch or not, whole or tainted, its counter in a page or not. -/
abbrev retiring (next : Nat) (others : Tab Team) (chk : Chk) (en : Bool) : State :=
  { placing 132 0 [(3, { owner := .team 2, ended := true })] with
    teams := (2, { launch := 1, cores := [0], chk := chk }) :: others
    launches := [(1, { queue := 4, record := goodRecord, next := next })], mem := bigTables
    contexts := [(4, { root := if en then 0x100000#64 else 0x900000#64, en := true })] }

theorem mayRetire : ∀ s ∈ [retiring 4 [] {} true, retiring 4 [] { pb := true } true, retiring 3 [] {} true,
    retiring 4 [(5, { launch := 1 })] {} true], MayRetire s 2 (tgetD s.teams 2 {}) := by
  simp only [MayRetire]; decide +kernel

theorem witness_PlacementAndRetirement_retire :
    ∀ s ∈ [retiring 4 [] {} true, retiring 4 [] { pb := true } true, retiring 3 [] {} true, retiring 4 [(5, { launch := 1 })] {} true],
    (tget s.launches 1).isSome = true ∧ s.teams.Pairwise (fun a b => a.1 < b.1) := by decide +kernel

theorem witness_PlacementAndRetirement_counter :
    (translateNow (retiring 4 [] {} true) .bare 4 (BitVec.ofNat 64 (recField goodRecord 448 57)) 1).toOption = some (0x600, 0) ∧
    (translateNow (retiring 4 [] {} false) .bare 4 (BitVec.ofNat 64 (recField goodRecord 448 57)) 1).toOption = none := by decide +kernel

/-- Team 2 resident, stopping and saving, with a strand in a region and none. -/
abbrev preempting (x : Team) (e : Entry) (cycle : Nat) : State :=
  { device { oneGroup with stack := [{ e with mask := 0xFFFF#64 }] } x 0 with cores := [(0, { cycle := cycle })] }

theorem witness_Preemption : Preemptible (preempting {} {} 0) 2 (tgetD (preempting {} {} 0).teams 2 {}) ∧
    (let s := preempting { phase := .saving } {} 0; (tgetD s.teams 2 {}).phase ≠ .resident ∧ (tgetD s.teams 2 {}).arrivals = [] ∧
      (∃ g ∈ s.groups, g.2.owner = .team 2 ∧ g.2.ended = false) ∧ (∀ o ∈ s.outs, o.2.owner ≠ .team 2) ∧
      (∀ c ∈ s.cores, (∀ d ∈ c.2.dirty, .team 2 ∉ d.owners) ∧ c.2.mxQueue = []) ∧ s.copies = [] ∧ s.writeBacks = [] ∧
      s.btes = [] ∧ s.convRequests = [] ∧ recordOk s 2 = false) ∧
    recordOk (recorded (preempting { phase := .saving } {} 0)) 2 = true ∧
    (∃ r : ConvRequest, portHome r.handle = true ∧ hDev r.handle ≠ devNo (preempting {} {} 0)) ∧
    (∀ cycle ∈ [2 ^ 20 + 4, 2 ^ 20 + 5], let s := preempting { phase := .stopping, requestedAt := 5 } { noPre := true } cycle
      (∀ g ∈ s.groups, g.2.owner = .team 2 ∧ g.2.handler = none ∧ ∀ e ∈ g.2.stack, e.mode ≠ .parent ∧ Holds e) ∧
        TeamHolds s 2 ∧ (coreAt s 0).cycle = cycle) ∧
    ¬TeamHolds (preempting { phase := .stopping } {} 0) 2 := by
  refine ⟨by unfold Preemptible; decide +kernel, by decide +kernel, by decide +kernel,
    ⟨{ handle := 0x0180000100000000#64 }, by decide +kernel⟩, ?_, ?_⟩
  · intro c h
    refine ⟨?_, ⟨(3, _), List.mem_singleton.2 rfl, rfl, rfl, .inr ⟨rfl, _, List.mem_singleton.2 rfl, by decide, rfl, fun t h => by cases h⟩⟩, rfl⟩
    intro g hg
    cases List.mem_singleton.1 hg
    refine ⟨rfl, rfl, fun e he => ?_⟩
    cases List.mem_singleton.1 he
    exact ⟨by decide, rfl, fun t h => by cases h⟩
  · rintro ⟨g, hg, -, -, ⟨h, hh, -⟩ | ⟨-, e, he, -, hn, -⟩⟩ <;> cases List.mem_singleton.1 hg
    · cases hh
    · cases List.mem_singleton.1 he
      cases hn

/-- Queue 4's class-0 launch has waited 65,536 cycles, one cycle less, for core 0, where a class-1 team stands that it may
pre-empt, or may not. -/
abbrev waitingLaunch (clock : Nat) (preok : Bool) : State :=
  { State.reset with
    groups := [(3, { owner := .team 2 })]
    teams := [(2, { launch := 1, cores := [0] })]
    launches := [(1, { queue := 5, record := recordOf (2 ^ 180 + 125 * 2 ^ 208) ||| (1#1024 <<< 768), next := 4 }),
      (2, { queue := 4, record := goodRecord ^^^ (2#1024 <<< 768) })]
    queues := [(4, { waits := [(2, 0, 7)] }), (5, { preok := preok })]
    clocks := [(Config.clockDist, clock)], nextId := 10 }

theorem witness_Preemption_wait : ∀ x ∈ [(65542, true), (65543, true), (65543, false)], let s := waitingLaunch x.1 x.2
    (tgetD s.queues 4 {}).waits = [(2, 0, 7)] ∧ (oldestUnplaced s 4).map (·.1) = some 2 ∧ nextNum s 2 = 0 ∧
      (tryNext s 2).isNone = true ∧ (∀ t ∈ s.teams, t.2.mate = none) ∧ s.teams.Pairwise (fun a b => a.1 < b.1) ∧
      recField (tgetD s.launches 2 {}).record 180 2 < recField (tgetD s.launches 1 {}).record 180 2 ∧
      (tgetD s.launches 1 {}).record.getLsbD 184 = false ∧ (tgetD s.launches 2 {}).record.getLsbD 768 = true ∧
      (tryNext (vacated s 2) 2).isSome = true ∧ clockAt s Config.clockDist = x.1 := by decide +kernel

/-- A test of cluster 0 with team 2 there, of cluster 1, and a test under way. -/
theorem witness_Preemption_test : (let s := preempting {} {} 0; s.testing = none ∧
      (∃ c ∈ (tgetD s.teams 2 {}).cores, c / 14 = 0) ∧ (∀ t ∈ s.teams, ∀ c ∈ t.2.cores, c / 14 ≠ 1) ∧
      (∀ t ∈ s.teams, t.1 = 2) ∧ s.teams.Pairwise (fun a b => a.1 < b.1)) ∧
    ({ preempting {} {} 0 with testing := some 0 } : State).testing = some 0 := by decide +kernel

theorem test_activation : (after (exec (.launchActivation 4) (queued goodRecord aQueue))).launches.map (fun l => (l.1, l.2.queue)) =
    [(0, 4)] := by decide +kernel
theorem test_retire_counts : leNat (mread (after (exec (.teamRetire 2) (retiring 4 [] {} true))).mem 0x600 8) = 2 ^ 64 - 1 := by
  decide +kernel
theorem test_retire_tainted : leNat (mread (after (exec (.teamRetire 2) (retiring 4 [] { pb := true } true))).mem 0x600 8) =
    2 ^ 62 - 1 := by decide +kernel
theorem test_placed_start : ((after (exec .distributorTurn (placing 132 0 []))).groups.map fun g =>
    (getS g.2 1, g.2.core, g.2.width, g.2.stack.map (·.mask))) = [(1#64, 0, 16, [0xFFFF#64])] := by decide +kernel


/-! ### Invalidations, collectives, links and views -/

/-- Context 4 with an invalidation running, one queued and none; walk 5 of the context, an access that it awaits. -/
abbrev invalidating (c : Context) (bs : Tab Bte) : State :=
  { State.reset with
    contexts := [(4, c)], walks := [(5, { ctx := 4, va := 7 }), (6, { ctx := 3 })]
    cores := [(0, { tlb := [{ ctx := 4, vbase := 0x7000 }, { ctx := 3 }] })]
    outs := [(9, { ctx := 4, lanes := [{ va := 0x7010#64 }] })]
    posts := [(2, { ctx := 4, phase := .paused })], btes := bs, nextId := 20 }

theorem witness_Invalidations :
    (tgetD (invalidating { running := some { page := 7, walks := [5] } } []).contexts 4 {}).running.isSome = true ∧
    (tgetD (invalidating {} []).contexts 4 {}).running = none ∧
    (∃ b ∈ (invalidating { running := some {} } [(0, { requests := [(1, { post := 2, kind := 1, live := true })] })]).btes,
      ∃ q ∈ b.2.requests, q.2.live = true ∧ (q.2.kind = 1 ∨ q.2.kind = 2) ∧
        (tgetD (invalidating { running := some {} } []).posts q.2.post {}).ctx = 4) ∧
    (∀ b ∈ (invalidating { running := some {}, queued := [0x7000#64] } [(0, { requests := [(1, { kind := 0, live := true })] })]).btes,
      ∀ q ∈ b.2.requests, q.2.live = true → q.2.kind = 1 ∨ q.2.kind = 2 →
        (tgetD (invalidating { running := some {}, queued := [0x7000#64] } []).posts q.2.post {}).ctx ≠ 4) := by
  decide +kernel

/-- The start of page 7's invalidation: walk 5 gives nothing, the entry goes, and access 9 is awaited. -/
theorem test_invalidation : (let t := after (exec (.tcinvWrite 4 0x7000#64) (invalidating {} []))
    ((tgetD t.contexts 4 {}).running.map fun r => (r.page, r.walks, r.outs)) = some (7, [5], [9]) ∧
      (coreAt t 0).tlb.map (·.ctx) = [3]) := by decide +kernel

/-- A member of view 3 of devices 1 and 2; a post of a collective on it, with the contributions `parts`. -/
abbrev joined (c : Collective) (p : Post) : State :=
  { State.reset with
    fabric := { frpos := 1#64, viewSet := true, viewNum := 3, viewMap := 6#256 }
    collectives := [(4 * 2 ^ 40 + 7, c)], posts := [(2, p)], teams := [(2, { launch := 1, cores := [0] })]
    mem := tables, contexts := [(0, { root := 0x100000#64, en := true })], ports := [(0, { state := 3 })], nextId := 20 }

abbrev contribution (dev view : Nat) : CollMsg :=
  { dev := dev, ctx := 4, inst := 7, view := view, kind := 6, op := 0, fmt := 2, rowBytes := 16, rows := 4, size := 64
    data := List.replicate 64 (BitVec.ofNat 8 dev) }

/-- Packets of a newer and an older view, of no member, and of an instance that is done and that is not. -/
theorem witness_CollectivePackets :
    let s := joined {} {}
    (∀ v ∈ [4, 3 + 2 ^ 15 - 1], let ahead := (v + 2 ^ 16 - curView s % 2 ^ 16) % 2 ^ 16; 0 < ahead ∧ ahead < 2 ^ 15) ∧
    (∀ v ∈ [3, 2, 3 + 2 ^ 15], let ahead := (v + 2 ^ 16 - curView s % 2 ^ 16) % 2 ^ 16; ¬(0 < ahead ∧ ahead < 2 ^ 15)) ∧
    (∀ n ∈ [63, 64], (tgetD { s with ports := [(0, { state := 3, heldPackets := List.replicate n {} })] }.ports 0
      {}).heldPackets.length = n) ∧ (tgetD s.ports 0 {}).state = 3 ∧ (tgetD s.ports 1 {}).state ≠ 3 ∧ linked s = true ∧
    ¬(s.fabric.agreement.answered = true ∧ s.fabric.agreement.proposal ≠ none) ∧
    2 ∈ members s ∧ 2 ≠ devNo s ∧ 3 ∉ members s ∧
    (tgetD s.collectives (4 * 2 ^ 40 + 7) {}).done = false ∧
    (tgetD (joined { done := true } {}).collectives (4 * 2 ^ 40 + 7) {}).done = true ∧
    (let u : State := { s with outbox := [{ kind := .collective }] }; u.outbox[0]? = some ({ kind := .collective } : Packet)) := by
  decide +kernel

/-- A payload of 64 bytes in two packets, the second before the first, and the second alone. -/
theorem witness_CollectivePackets_pieces : let l := (contribution 2 3).data
    let x := { contribution 2 3 with off := 32, data := l.drop 32 }
    let m := { contribution 2 3 with data := l.take 32 }
    m.size = l.length ∧ ([x, m].map fun y => y.data.length).sum = l.length ∧ (∀ y ∈ [x, m], y.data ≠ []) ∧
      (∀ y ∈ [x, m], y.data = (l.drop y.off).take y.data.length) ∧
      [x, m].Pairwise (fun x y => x.off + x.data.length ≤ y.off ∨ y.off + y.data.length ≤ x.off) ∧
      ([x].map fun y => y.data.length).sum < x.size := by decide +kernel

/-- An all-reduce of 4 rows of 16 bytes (FMT 2, OP 0) into `dst`. -/
abbrev reducing (dst : Nat) (restarted reweighed : Bool) : BitVec 512 :=
  BitVec.ofNat 512 (6 + 2 * 2 ^ 4 + (if reweighed then 2 ^ 19 else 0) + 0x200 * 2 ^ 64 + dst * 2 ^ 128 + 16 * 2 ^ 192 + 16 * 2 ^ 224) |||
    (16#512 <<< 256) ||| (4#512 <<< 288) ||| (if restarted then 1#512 <<< 511 else 0#512)

abbrev collPost (dst : Nat) (sent : Nat) (rwt : Bool) : Post :=
  { ctx := 0, bits := reducing dst false rwt, count := 4, phase := .queued, sent := sent, view := 3 }

/-- Equal posts, with everything there and without; unequal ones; a result passed on; a destination without a page. -/
theorem witness_CollectivesComplete : ∀ dst ∈ [0x300, 0x4000000000], ∀ rwt ∈ [true, false], ∀ restarted ∈ [true, false],
    let c : Collective := { post := 2, parts := [(1, contribution 1 3), (2, contribution 2 3)], restarted := restarted, pFirst := 3 }
    let s := joined c (collPost dst 64 rwt)
    let p := collPost dst 64 rwt
    (tget s.collectives (4 * 2 ^ 40 + 7) = some c ∧ tget s.posts 2 = some p) ∧ (p.view = curView s ∧ tKind p.bits = 6 ∧
      tRowb p.bits = 16 ∧ tRwt p.bits = rwt ∧ tgtV (tTsr p.bits) = false) ∧ members s = [1, 2] ∧
    (∀ d ∈ members s, ∃ m ∈ tget c.parts d, m.kind = tKind p.bits ∧ m.op = tOp p.bits ∧ m.fmt = tFmt p.bits ∧
      m.rowBytes = tRowb p.bits ∧ m.rows = p.count ∧ m.named = p.named ∧ m.data.length = tRowb p.bits * p.count) := by
  decide +kernel

theorem witness_CollectivesComplete_rule : ruleCombines 0 2 ∧ (let m := contribution 2 3; m.rows ≠ (collPost 0x300 64 false).count + 1) ∧
    PostsSeated (joined {} (collPost 0x300 64 false)) := by
  refine ⟨by unfold ruleCombines; decide +kernel, by decide +kernel, fun q hq x hx => ?_⟩
  cases List.mem_singleton.1 hq
  cases hx

theorem witness_CollectivesComplete_pages :
    let u (dst : Nat) := unitPieces 16 (fun r => tDst (reducing dst false false) + r * tDstride (reducing dst false false)) 0 64
    (transPieces (joined {} {}) (.hub 0) 0 1 (u 0x300)).toOption.isSome = true ∧
      (transPieces (joined {} {}) (.hub 0) 0 1 (u 0x4000000000)).toOption = none := by decide +kernel

/-- A port with an open block, one to be acknowledged, refused 7 and 8 times; idle and silent. -/
abbrev linked2 (p : Port) : State :=
  { State.reset with ports := [(3, p)], clocks := [(Config.clockPort 3, 65600)], nextId := 20 }

theorem witness_LinkBlocks : (∀ fails ∈ [0, 6, 7, 8], 
    let c : Channel := ⟨[3], [[1], [2]], fails, 65472, [9], fails⟩
    let s := linked2 { state := 3, channels := [(1, c)], lastTx := 61504, lastRx := 64 }
    let p := tgetD s.ports 3 {}
    p.state ≠ 4 ∧ tgetD p.channels 1 {} = c ∧ c.blocks = [1] :: [[2]] ∧ openBlocks p < 32 ∧
      c.lastFlit + 128 ≤ tgetD s.clocks (Config.clockPort 3) 0 ∧ (∃ c ∈ p.channels, 9 ∈ c.2.rxTentative) ∧
      p.lastRx + 65536 ≤ tgetD s.clocks (Config.clockPort 3) 0) ∧
    (let s := linked2 { state := 3, lastTx := 61504 }
     let p := tgetD s.ports 3 {}
     p.state = 3 ∧ p.lastTx + 4096 ≤ tgetD s.clocks (Config.clockPort 3) 0 ∧ ∀ c ∈ p.channels, c.2.flits = []) ∧
    (let s := linked2 { state := 3 }
     s.boot.powered = true ∧ devNo s ≠ 0x34 ∧ (tgetD s.ports 3 {}).state = 3 ∧ (tgetD s.ports 18 {}).state ≠ 3) := by
  decide +kernel

/-- Device 1 of view 3 of four devices with an agreement under way. -/
abbrev agreeing (a : Agreement) : State :=
  { State.reset with
    fabric := { frpos := 1#64, viewSet := true, viewNum := 3, viewMap := 0x1E#256, agreement := a }
    ports := [(0, { state := 3 })], boot := { stage := 3 }, clocks := [(Config.clockView, 2 ^ 20 + 5)], nextId := 20 }

/-- Reports, a proposal of this device with devices 2 and 4 in it, answered late; a join with and without a proposal. -/
theorem witness_DevicesLostAndViews_lost :
    (let s := agreeing {}
     s.fabric.viewSet = true ∧ 2 ∈ members s ∧ 9 ∉ members s ∧ (survivors s).head? = some (devNo s) ∧
       (∀ x ∈ members s, x ∉ s.fabric.agreement.lost) ∧ s.fabric.agreement.joiners = [] ∧ linked s = true ∧
       linked { s with ports := [] } = false) ∧
    (∀ x ∈ [true, false], let s := agreeing { downs := if x then [(1, 2), (3, 2)] else [] }
     let near := (survivors s).filter fun y => y ≠ 2 ∧ (y / 16 = 2 / 16 ∨ y % 16 = 2 % 16)
     near ≠ [] ∧ ((∀ y ∈ near, (y, 2) ∈ s.fabric.agreement.downs ++ [(4, 2)]) ↔ x = true)) ∧
    (∀ j ∈ [true, false], let m : ViewMsg := { dev := 1, num := 4, map := 0x16#256, joining := j }
     let s := agreeing { proposal := some m, mine := true, since := 5, waiting := if j then [2] else [] }
     let a := s.fabric.agreement
     m.map.getLsbD 2 = true ∧ 2 ∉ a.accepted ∧ a.since + 2 ^ 20 ≤ tgetD s.clocks Config.clockView 0 ∧
       (m.joining = true → 2 ∈ a.waiting)) := by
  decide +kernel

/-- A proposal of device 2 that knows a lost device, is no majority, and waits; its answers; its commit. -/
theorem witness_DevicesLostAndViews_rounds :
    (∀ x ∈ [(0x1C, true, false), (0x06, false, false), (0x1E, true, true)],
     let m : ViewMsg := { dev := 2, num := 4, map := BitVec.ofNat 256 x.1 ||| 2#256, joining := x.2.2 }
     let s := agreeing {}
     m.dev ≠ devNo s ∧ m.map.getLsbD (devNo s) = true ∧ m.num = ruleNext s) ∧
    (let s := agreeing {}
     Majority s 0x1C#256 ∧ Majority s 0x06#256 ∧ ¬Majority s 0x0C#256 ∧ ¬Majority s 2#256) ∧
    (∀ d ∈ members (agreeing {}), d < 1 → (0x1E#256).getLsbD d = false) ∧
    (let m : ViewMsg := { dev := 1, num := 4, map := 0x0E#256 }
     let s := agreeing { proposal := some m, mine := true, accepted := [1, 3], lost := [4] }
     (∀ x < 256, m.map.getLsbD x = true → x = 2 ∨ x ∈ s.fabric.agreement.accepted) ∧ Majority s m.map ∧
       (∀ x ∈ s.fabric.agreement.lost, m.map.getLsbD x = false) ∧
       ¬∀ x < 256, m.map.getLsbD x = true → x = 3 ∨ x ∈ s.fabric.agreement.accepted) := by
  simp only [Majority]; decide +kernel

/-- A write to VIEWNUM that stands: this device not in the map, number 0xFFFF, a collective under way; one that installs. -/
theorem witness_DevicesLostAndViews_registers :
    (let s : State := { agreeing {} with fabric := { (agreeing {}).fabric with staged := [(0, 6#64)] } }
     (tgetD s.fabric.staged (devNo s / 64) 0#64).getLsbD (devNo s % 64) = true ∧ s.posts = [] ∧ s.boot.stage = 3) ∧
    (∀ p ∈ (linked2 { state := 1 }).ports, p.2.state ≠ 2 ∧ p.2.state ≠ 3) ∧
    (∃ p ∈ (joined {} (collPost 0x300 0 false)).posts, tKind p.2.bits = 6 ∧ p.2.phase ≠ .waiting ∧ p.2.status = none) ∧
    (∃ p ∈ (linked2 { state := 2 }).ports, p.2.state = 2 ∨ p.2.state = 3) := by decide +kernel

theorem test_view_installed : (let s : State := { agreeing {} with fabric := { (agreeing {}).fabric with staged := [(0, 6#64)] } }
    let t := after (exec (.viewnumWrite 9#64) s); (curView t, members t) = (9, [1, 2])) := by decide +kernel
theorem test_allreduce_sum : leNat (mread (after (exec (.collectiveInstanceComplete 4 7) (joined
    { post := 2, parts := [(1, contribution 1 3), (2, contribution 2 3)] } (collPost 0x300 64 false)))).mem 0x300 2) = 0x0303 := by
  decide +kernel

/-! ### The control window, ports, boot and alarms -/

/-- The firmware runs; port 3 in a state, with its grants. -/
abbrev running (p : Port) : State := { State.reset with boot := { stage := 3 }, ports := [(3, p)], nextId := 20 }

/-- A RUN port of a host that owns the first GiB, queue 5 and context 5. -/
abbrev hosting : State :=
  { running { state := 3, cfg := BitVec.ofNat 64 (2 + 2 ^ 32), qmask := 32#64 } with queues := [(5, { en := true, log2 := 4 })] }

/-- Values of a reset and of a set bit 0; debug offsets of R367, one that stands reserved and one that it does not. -/
theorem witness_RegistersAndHost_writes : hosting.boot.stage = 3 ∧ (1#64).getLsbD 0 = true ∧
    (ruleDebug 0x108).isSome = true ∧ (13 * 16#64).toNat / 2 ^ 4 % 2 ^ 4 = 13 ∧ (12 * 16#64).toNat / 2 ^ 4 % 2 ^ 4 = 12 ∧
    (∀ x ∈ [(0x000, true), (0x0F0, true), (0x018, false), (0x178, false), (0x180, true), (0x188, false)],
      (ruleDebug x.1).isSome = x.2) := by decide +kernel

/-- Accesses that are granted and refused: DRAM at the range's ends, registers of the port's queue and of another, a
register that no host has, an address that no access has; boot accesses of the port that owns the boot and of another. -/
theorem witness_RegistersAndHost_host :
    ((∀ a ∈ [0, 2 ^ 30 - 8], ¬HostRefused hosting 3 true true 8 a ∧ ¬HostRefused hosting 3 true false 8 a) ∧
      (∀ a ∈ [2 ^ 30, 4], HostRefused hosting 3 true true 8 a) ∧ HostRefused hosting 3 true true 4 0) ∧
    ((∀ a ∈ [0, 0x10140, 0x100A0 + 0x40 * 3, 0x200A0, 0x30000, 0x50000, 0x500F8], a % 8 = 0 ∧ ¬HostRefused hosting 3 false false 8 a) ∧
      (∀ a ∈ [0x10000, 0x20000, 0x40000, 0x50100, 0x10144], HostRefused hosting 3 false false 8 a)) ∧
    ((∀ a ∈ [0x10140, 0x200A0, 0x30000], ¬HostRefused hosting 3 false true 8 a) ∧
      (∀ a ∈ [0x10, 0x50000], HostRefused hosting 3 false true 8 a)) ∧
    (hosting.boot.stage = 3 ∧ (tgetD hosting.ports 3 {}).state = 3 ∧ devNo hosting ≠ 2) ∧
    (∀ o ∈ [none, some 3, some 4], let s : State := { State.reset with boot := { stage := 1, owner := o } }
     (tgetD s.ports 3 {}).state = 0 ∧ s.boot.owner = o) := by
  unfold HostRefused; decide +kernel

theorem witness_RegistersAndHost_sound : WindowSound hosting := by unfold WindowSound; decide +kernel

theorem test_host_writes_tail : (after (exec (.hostControlAccess { port := 3 } false true 0x10150 7#64) hosting)).queues.map
    (fun q => (q.1, q.2.tail)) = [(5, 7#32)] := by decide +kernel
theorem test_host_refused : (after (exec (.hostControlAccess { port := 3 } false false 0x10010 0#64) hosting)).outbox =
    [{ kind := .hostAnswer, dev := 3, nums := [1, 0x10010, 2 ^ 64 - 1] }] := by decide +kernel

/-- Every state of a port. -/
theorem witness_PortLocks : (∀ n ∈ [0, 1, 2, 3, 4], ∀ e ∈ [true, false], let s := running { state := n, session := { established := e } }
    s.boot.stage = 3 ∧ (tgetD s.ports 3 {}).state = n ∧ (tgetD s.ports 3 {}).session.established = e) := by decide +kernel

/-- Management-core accesses in the range of a locked port and beyond it. -/
theorem witness_PortLocks_firmware : ∀ n ∈ [1, 2, 3], let s := running { state := n, cfg := BitVec.ofNat 64 (2 + 2 ^ 32) }
    s.boot.powered = true ∧ ((∃ q ∈ s.ports, (q.2.state = 2 ∨ q.2.state = 3) ∧ q.2.cfg.toNat / 2 ^ 16 % 2 ^ 10 * 2 ^ 30 < 0x300 + 8 ∧
      0x300 < q.2.cfg.toNat / 2 ^ 32 % 2 ^ 10 * 2 ^ 30) ↔ 2 ≤ n) := by decide +kernel

theorem test_start_runs : (tgetD (after (exec (.start 3) (running { state := 2 }))).ports 3 {}).state = 3 := by decide +kernel

/-- Before power, identity revoked, fuses spent, and a boot; the stages of a boot. -/
abbrev booting (b : Boot) : State := { State.reset with boot := b }

theorem witness_BootRom : (∀ b ∈ [({ powered := false } : Boot), { stage := 0 }, { powered := false, revoked := true }, { powered := false, blown := 65536 }],
      (booting b).boot.powered = false ∨ (booting b).boot.stage = 0) ∧
    65536 ≤ Config.fusedCount + (booting { powered := false, blown := 65536 }).boot.blown ∧
    (∀ o ∈ [none, some 3, some 4], (booting { stage := 1, owner := o }).boot.owner = o) ∧
    (booting { stage := 2 }).boot.stage = 2 ∧ (booting { stage := 3 }).boot.stage = 3 ∧
    (∀ k ∈ [5, 3], 3 ≤ k) ∧ (List.replicate 32 (0#8 : Byte)).length = 32 := by
  refine ⟨by decide +kernel, ?_, by decide +kernel⟩
  exact Nat.le_add_left _ _

/-- An image with the magic, no firmware and no microcode. -/
abbrev anImage : Boot := { stage := 2, length := 2048, staging := mwrite [] 0 (leBytes 0x5746545A 4) }

theorem imageFormed : ImageFormed (booting anImage) := by
  refine ⟨by decide +kernel, by decide +kernel, by decide +kernel, by decide +kernel, fun a h => ?_⟩
  have p : ∀ x ∈ (booting anImage).boot.staging, x.1 < 24 := by decide +kernel
  have q : ∀ m : Memory, (∀ x ∈ m, x.1 < 24) → 24 ≤ a → mget m a = 0#8 := by
    intro m hm ha
    induction m with
    | nil => rfl
    | cons y l ih =>
      have := hm y (List.mem_cons_self ..)
      simp only [mget]
      split
      · omega
      · exact ih fun x hx => hm x (List.mem_cons_of_mem _ hx)
  exact q _ p (by omega)

/-- Every image has one of the codes; an image that is not formed has code 1. -/
theorem witness_BootRom_image : (∃ code, ImageCode (booting anImage) code ∧ code ≠ 1) ∧ ImageCode (booting { stage := 2 }) 1 := by
  refine ⟨?_, ?_⟩
  · by_cases k : Config.sha256 (mread (booting anImage).boot.staging 64 56) = Config.fusedKeyHash
    · by_cases g : Config.lmsVerifies (mread (booting anImage).boot.staging 64 56) (mread (booting anImage).boot.staging 0 128 ++
          mread (booting anImage).boot.staging 2048 (imageField (booting anImage) 8 8 + imageField (booting anImage) 16 8))
          (mread (booting anImage).boot.staging 128 1612) = true
      · by_cases n : Config.fusedFloor ≤ imageField (booting anImage) 4 4
        · exact ⟨0, .inl ⟨rfl, imageFormed, k, g, n⟩, by decide⟩
        · exact ⟨4, .inr (.inr (.inr (.inr ⟨rfl, imageFormed, k, g, n⟩))), by decide⟩
      · exact ⟨3, .inr (.inr (.inr (.inl ⟨rfl, imageFormed, k, g⟩))), by decide⟩
    · exact ⟨2, .inr (.inr (.inl ⟨rfl, imageFormed, k⟩)), by decide⟩
  · exact .inr (.inl ⟨rfl, fun h => absurd h.1 (by decide +kernel)⟩)

/-- Each level, a first and a second condition, in a boot and after it, armed and not. -/
theorem witness_Alarms : ∀ st ∈ [1, 3], ∀ al ∈ [0, 1], ∀ armed ∈ [true, false],
    let s : State := { State.reset with
      boot := { stage := st, alarm := al, armed := armed }
      ports := [(3, { state := 3, cfg := BitVec.ofNat 64 (2 + 2 ^ 32) }), (4, { state := 1 })]
      launches := [(1, {}), (2, {})], mem := [(0x10, 1#8), (2 ^ 30, 1#8)] }
    s.boot.powered = true ∧ s.ports.Pairwise (fun a b => a.1 < b.1) ∧ s.launches.Pairwise (fun a b => a.1 < b.1) ∧
      s.boot.alarm = al ∧ s.boot.armed = armed ∧ s.boot.stage = st := by decide +kernel

theorem test_alarm_zeroes : (after (exec (.securityAlarm 2) { State.reset with
    boot := { stage := 3 }, ports := [(3, { state := 3, cfg := BitVec.ofNat 64 (2 + 2 ^ 32) })]
    mem := [(0x10, 1#8), (2 ^ 30, 1#8)] })).mem = [(2 ^ 30, 1#8)] := by decide +kernel

/-! ### Attestation, check points and injection -/

/-- A port out of session and in one; a boot with and without a leaf left. -/
theorem witness_PeersAndAttestation : ∀ e ∈ [true, false], ∀ n ∈ [1023, 1024], ∀ tree ∈ [true, false],
    let s : State := { running { session := { started := e } } with boot := { stage := 3, signatures := n, tree := tree } }
    s.boot.stage ≠ 0 ∧ s.boot.stage ≠ 4 ∧ s.boot.tree = tree ∧ (tgetD s.ports 3 {}).session.started = e ∧ s.boot.signatures = n := by decide +kernel

/-- A peer in session; a launch and a team that are there and that are not; a neighbour in RUN and one that is not. -/
theorem witness_PeersAndAttestation_requests : ∀ e ∈ [true, false], ∀ n ∈ [2, 3],
    let s : State := { running { session := { established := e }, state := n, cfg := 1#64 } with
      launches := [(1, {})], teams := [(2, { launch := 1 })] }
    s.boot.stage = 3 ∧ (tgetD s.ports 3 {}).session.established = e ∧ tget s.launches 1 = some {} ∧ tget s.launches 7 = none ∧
      (tget s.teams 2).isSome = true ∧ ((∀ q ∈ s.ports, q.2.cfg.toNat % 4 = 1 → q.2.state = 3) ↔ n = 3) := by decide +kernel

/-- A CHK team at an event, with a held store; it passes, and fails for the first and the second time in a row. -/
abbrev checking (why : Force) (chk : Chk) (failed : Bool) : Team :=
  { launch := 1, cores := [0], force := some why, chk := chk, failed := failed, forcedBy := some (3, 0)
    held := [{ gid := 3, size := 8, lanes := [{ pa := 0x300, data := 7#512 }] }]
    snap := some { groups := [(3, { oneGroup with slot := 1 })] } }

abbrev checkState (why : Force) (chk : Chk) (failed : Bool) : State := device oneGroup (checking why chk failed) 0

theorem checkDue (why : Force) (chk : Chk) (failed : Bool) (x : Team) (s : State) (hx : x = checking why chk failed)
    (q : checkQuiet s 2 = true) (ht : tget s.teams 2 = some x)
    (hl : (tgetD s.launches 1 {}).aborted = false) (hg : tget s.groups 3 = some oneGroup) :
    CheckDue s 2 x why { groups := [(3, { oneGroup with slot := 1 })] } := by
  have e : x.launch = 1 ∧ x.force = some why ∧ x.snap = some { groups := [(3, { oneGroup with slot := 1 })] } ∧
      x.trailing = false ∧ x.granted = none ∧ x.mate = none := by rw [hx]; exact ⟨rfl, rfl, rfl, rfl, rfl, rfl⟩
  refine ⟨ht, e.2.1, e.2.2.1, e.2.2.2.1, e.2.2.2.2.1, by rw [e.1]; exact hl, q, fun m hm => ?_, ?_⟩
  · rw [e.2.2.2.2.2] at hm; cases hm
  · rintro c y n (rfl | hc) hy hn g hgn k hk
    · rw [ht] at hy; cases hy
      rw [e.2.2.1] at hn; cases hn
      cases List.mem_singleton.1 hgn
      rw [hg] at hk; cases hk
      rfl
    · rw [e.2.2.2.2.2] at hc; cases hc

theorem witness_ChecksAndInjections : (∀ why ∈ [Force.action, .flip, .fullBuffer, .poison, .last, .settle], ∀ failed ∈ [true, false],
      ∀ chk ∈ [({} : Chk), { pb := true }], CheckDue (checkState why chk failed) 2 (checking why chk failed) why
        { groups := [(3, { oneGroup with slot := 1 })] }) ∧
    (let s := checkState .flip {} true
     s.groups.Pairwise (fun a b => a.1 < b.1) ∧ s.posts = [] ∧ (checking .flip {} true).chk.pb = false ∧
       (checking .flip { pb := true } true).chk.pb = true ∧ tget s.launches 1 = some { record := recordOf 0, next := 1 } ∧
       (checking .flip {} true).mate = none) := by
  refine ⟨fun why hw failed hf chk hc => ?_, by decide +kernel⟩
  have a : ∀ why ∈ [Force.action, .flip, .fullBuffer, .poison, .last, .settle], ∀ failed ∈ [true, false],
      ∀ chk ∈ [({} : Chk), { pb := true }], checkQuiet (checkState why chk failed) 2 = true ∧
        tget (checkState why chk failed).teams 2 = some (checking why chk failed) ∧
        (tgetD (checkState why chk failed).launches 1 {}).aborted = false ∧
        tget (checkState why chk failed).groups 3 = some oneGroup := by decide +kernel
  have b := a why hw failed hf chk hc
  exact checkDue why chk failed _ _ rfl b.1 b.2.1 b.2.2.1 b.2.2.2

/-- A redundant pair whose signatures agree and do not. -/
abbrev pairState (sig : Word) : State :=
  { State.reset with
    groups := [(3, { oneGroup with sig := sig }), (8, { oneGroup with owner := .team 5, core := 1 })]
    teams := [(2, { launch := 1, cores := [0], force := some .flip, mate := some 5, snap := some {} }),
      (5, { launch := 1, cores := [1], mate := some 2, trailing := true, snap := some {} })]
    launches := [(1, { record := recordOf 0, next := 1 })], nextId := 10 }

theorem witness_ChecksAndInjections_pair : checkQuiet (pairState 0) 2 = true ∧ checkQuiet (pairState 1) 2 = true ∧
    signaturesMatch (foldLandings (pairState 0) 2) 2 = true ∧ signaturesMatch (foldLandings (pairState 1) 2) 2 = false := by
  decide +kernel

/-- A poisoned first granule of a snapshot loses it. -/
theorem snapshotLost_of_first (s : State) (t : Nat) (ok : recordOk s t = true)
    (h : (match translateNow s .bare (teamCtx s t) (BitVec.ofNat 64 (recordVa s t + checkAt (teamRecord s t))) 0 with
      | .ok p => s.poison.contains (p.1 / 8)
      | .error _ => false) = true) : snapshotLost s t = true := by
  generalize ha : recordVa s t + checkAt (teamRecord s t) = a at h
  obtain ⟨p, hp, bad⟩ : ∃ p, translateNow s .bare (teamCtx s t) (BitVec.ofNat 64 a) 0 = .ok p ∧
      s.poison.contains (p.1 / 8) = true := by
    split at h
    · exact ⟨_, by assumption, h⟩
    · cases h
  have pos : 0 < snapshotSize (teamRecord s t) := by unfold snapshotSize; omega
  have hi : a < (a / 4096 + 0 + 1) * 4096 := by omega
  unfold snapshotLost recordGet cutAt
  rw [ok, Bool.true_and, List.any_eq_true]
  refine ⟨(mget s.mem (p.1 + 0), s.poison.contains ((p.1 + 0) / 8)), ?_, by simpa using bad⟩
  rw [ha, List.mem_flatMap]
  refine ⟨_, List.mem_map.2 ⟨0, List.mem_range.2 (by omega), rfl⟩, ?_⟩
  have lo : max a ((a / 4096 + 0) * 4096) = a := by omega
  simp only [lo, hp, bytesWith]
  exact List.mem_map.2 ⟨0, List.mem_range.2 (by omega), rfl⟩

/-- A snapshot that memory has lost, and one of a team that no record may hold. -/
abbrev lostSnapshot : State :=
  let s := recorded (checkState .flip { pb := true } false)
  { s with poison := [(recordVa s 2 + checkAt (teamRecord s 2)) / 8] }

theorem witness_ChecksAndInjections_lost : snapshotLost lostSnapshot 2 = true ∧
    snapshotLost (checkState .flip { pb := true } false) 2 = false ∧
    recordOk (performAllHeld (checkState .fullBuffer {} false) 2) 2 = false := by
  refine ⟨?_, ?_, by decide +kernel⟩
  · exact snapshotLost_of_first lostSnapshot 2 (by decide +kernel) (by decide +kernel)
  · have o : recordOk (checkState .flip { pb := true } false) 2 = false := by decide +kernel
    unfold snapshotLost; rw [o]; rfl

theorem test_check_performs : leNat (mread (after (exec (.checkPoint 2) (checkState .fullBuffer {} false))).mem 0x300 8) = 7 := by
  decide +kernel
theorem test_check_rolls_back : ((after (exec (.checkPoint 2) (checkState .flip { pb := true } false))).groups.map fun g =>
    (g.1, g.2.slot)) = [(3, 1)] := by decide +kernel

/-- Injections of each mode whose count has run out, on the group in slot 0 of core 0. -/
theorem witness_ChecksAndInjections_inject : ∀ mode ∈ [0, 1, 2], ∀ sc ∈ [true, false],
    let i : Injection := { scalar := sc, reg := 5, lane := 63, bit := 3, mode := mode }
    let s := { device scalars {} 0 with injections := [(9, i)] }
    tget s.injections 9 = some i ∧ i.after = 0 ∧ groupInSlot s i.core i.slot = some (3, scalars) ∧ tget s.groups 3 = some scalars ∧
      i.lane < 64 := by decide +kernel

/-- An error in a vector register of group 3, and in a scalar one. -/
theorem witness_ChecksAndInjections_upset : ∀ j ∈ [5, 256 + 5], let s := device scalars {} 0
    s.boot.powered = true ∧ tget s.groups 3 = some scalars ∧ scalars.width ≤ 64 ∧ (256 ≤ j ∧ j < 384 ∨ j < 256 ∧ 15 < scalars.width) := by decide +kernel

theorem test_upset_counted : (let t := after (runTurn (.upset .dram 3 0 0 true) (device scalars {} 0)); (errorsOf t .dram, t.poison)) =
    (1, []) := by decide +kernel
theorem test_upset_poisons : (after (runTurn (.upset .dram 3 0 0 false) (device scalars {} 0))).poison = [12, 13, 14, 15] := by
  decide +kernel

/-! ### Steps and decoding -/

/-- An instruction placed where step fetches, and its group's strand in a block that runs or leaves out its word. -/
abbrev placedWord (w : Nat) (b : Option Block) : State :=
  { State.reset.withFetchWord 64 w with
    groups := [(3, { State.fetchGroup 2 with stack := [{ mask := 0xFFFF#64, block := b }] })] }

/-- SADD s5, s6, s7; a word with a reserved bit; a pair that is not allowed (its halves write one register); EXIT. -/
theorem witness_StepRunsDecoded : ∀ b ∈ [none, some ⟨false, 3, 0#8⟩, some ⟨true, 3, 0#8⟩],
      ∀ w ∈ [0x08050C1C00000000, 0x08050C1C00000001, 0x8088280021102800], let s := placedWord w b
    s.agenda = .issue 0 0 1 :: [] ∧ s.boot.powered = true ∧ s.boot.stage ≠ 4 ∧
      (let s0 := enterCycle 0 0 { s with agenda := [] }
      let s1 := tried { s0 with cur := { gid := 3, entry := 0 } }
      issueOrder s0 0 0 = (3, 0) :: [] ∧ AtWord s1 ∧ ((fetchWord s1).toOption.map (·.1)) = some (BitVec.ofNat 64 w)) := by
  unfold AtWord; decide +kernel

/-- An event, a tick and nothing on the agenda of a powered device; a tick without power. -/
theorem witness_StepRunsDecoded_others : (∀ t ∈ [Turn.event .yield, .tick 3 1], let s := { State.reset with agenda := [t] }
      s.agenda = t :: [] ∧ s.boot.powered = true) ∧
    (let s : State := { State.reset with boot := { powered := false }, agenda := [.tick 3 1] }
     s.boot.powered = false ∧ s.agenda = .tick 3 1 :: []) ∧ State.reset.agenda = [] := by decide +kernel

/-- A word is turned away for the reason given. -/
abbrev turnsAway (w : Word) (r : Reject) : Bool :=
  match decode w with
  | .ok _ => false
  | .error e => e == r

theorem witness_StepRunsDecoded_words : (decode 0x08050C1C00000000#64).toOption.isSome = true ∧
    turnsAway 0x08050C1C00000001#64 .reservedField = true ∧ (decode 0x8088280021102800#64).toOption = none ∧
    uncoverable 0x08050C1C00000000#64 = false ∧ uncoverable 0x4000030409008000#64 = true ∧
    encode (.tcinvWrite 3 0#64) = none := by decide +kernel

/-- What a step of the first instruction leaves: 7 = 0 + 7 in s5, and the strand at the next word. -/
theorem test_first_step : ((after (step (placedWord 0x1A85000000000007 none))).groups.map fun g =>
    (getS g.2 5, g.2.stack.map (·.pc))) = [(7#64, [8#64])] := by decide +kernel

theorem test_left_out : ((after (step (placedWord 0x08050C1C00000000 (some ⟨true, 3, 0#8⟩)))).groups.map fun g =>
    g.2.stack.map fun e => (e.pc, e.block.map (·.left))) = [[(8#64, some 2)]] := by decide +kernel

theorem witness_DecodeEncode : (Instr.sadd ⟨5, 6, 7, 0, 0⟩).wf = true ∧
    encode (.sadd ⟨5, 6, 7, 0, 0⟩) = some 0x08050C1C00000000#64 ∧
    (decode 0x08050C1C00000000#64).toOption = some (.sadd ⟨5, 6, 7, 0, 0⟩) ∧ undefinedWord 0#64 :=
  ⟨by decide +kernel, by decide +kernel, by decide +kernel, fun h => h⟩

/-- A device with a memory, a share and a checkpoint's share, which steps. -/
theorem witness_StepKeepsMemories : MemoriesWf { placedWord 0x08050C1C00000000 none with
      mem := mwrite [(0x300, 1#8)] 0 (leBytes 0x08050C1C00000000 8)
      teams := [(2, { launch := 1, cores := [0], share := [(5, 1#8)], snap := some { share := [(5, 1#8)] } })] } := by
  refine ⟨by decide +kernel, by decide +kernel, fun x hx => ?_⟩
  cases List.mem_singleton.1 hx
  exact ⟨by decide +kernel, fun sn h => by cases h; decide +kernel⟩

theorem witness_StepKeepsFresh : Fresh (placedWord 0x08050C1C00000000 none) := by unfold Fresh freshGroup; decide +kernel

/-- A step of each kind, an issue without power, and an event without it. -/
theorem witness_OnlyPowerStops : (placedWord 0 none).boot.powered = true ∧
    (let s : State := { State.reset with boot := { powered := false }, agenda := [.issue 0 0 1] }
     (takeTurn s).1 = .issue 0 0 1 ∧ s.boot.powered = false) ∧
    (takeTurn { State.reset with agenda := [.tick 0 1] }).1 = .tick 0 1 := by decide +kernel

/-- A step that changes a measurement register, with the level armed, the fuses blown and an alarm standing. -/
theorem witness_Latches :
    let s : State := { State.reset with
      boot := { stage := 3, blown := 2, revoked := true, armed := true, alarm := 1 }
      agenda := [.event (.mrExtend 5 (List.replicate 32 0#8))] }
    s.boot.revoked = true ∧ s.boot.armed = true ∧ (takeTurn s).1 = .event (.mrExtend 5 (List.replicate 32 0#8)) ∧
      ∃ t, step s = .next t := by
  refine ⟨rfl, rfl, rfl, ?_⟩
  exact ⟨_, rfl⟩

/-! ### Decoding: the example words of R178 to R290, and an ill-formed instruction for each check -/

theorem test_decode_scalar :
    (decode 0x1A84000080000000#64).toOption = some (.smovi ⟨4, 0x80000000⟩) ∧
    (decode 0x1C08081400000003#64).toOption = some (.slea ⟨8, 4, 5, 0, 0, 3⟩) ∧
    (decode 0x2107080000010B08#64).toOption = some (.sbfx ⟨7, 4, 0, 1, 11, 8⟩) := by decide +kernel
theorem test_decode_predicates :
    (decode 0x2382080060000064#64).toOption = some (.scmpImm ⟨2, 4, 0, 6, 100⟩) ∧
    (decode 0x2581060000000000#64).toOption = some (.vote ⟨1, 3, 0⟩) ∧
    (decode 0x268A040000000000#64).toOption = some (.pmovToScalar ⟨10, 2⟩) := by decide +kernel
theorem test_decode_widths :
    (decode 0x2714040000000000#64).toOption = some (.gsplit ⟨20, 2⟩) ∧
    (decode 0x2795020000000000#64).toOption = some (.gfuse ⟨21, 1⟩) := by decide +kernel
theorem test_decode_control :
    (decode 0x28280000FFFFFFFC#64).toOption = some (.brq ⟨2, 1, 0xFFFFFFFC⟩) ∧
    (decode 0x2A3F000000000040#64).toOption = some (.call ⟨63, 0x40⟩) ∧
    (decode 0x2C801E1F00000000#64).toOption = some (.callv ⟨0, 0, 30, 31, 0⟩) ∧
    (decode 0x2DA8000000000000#64).toOption = some (.exit ⟨0, 5⟩) := by decide +kernel
theorem test_decode_integer :
    (decode 0x45000A0B00000805#64).toOption = some (.vshl ⟨0, 0, 10, 11, 0, 0, 0, 0, 1, 5⟩) ∧
    (decode 0x4281010203000000#64).toOption = some (.vaddsat ⟨0, 0, 1, 1, 2, 3, 0, 0, 0⟩) ∧
    (decode 0x4B81030400000168#64).toOption = some (.vbfx ⟨0, 0, 1, 3, 4, 0, 11, 8⟩) := by decide +kernel
theorem test_decode_float :
    (decode 0x5181010203040000#64).toOption = some (.ffma ⟨0, 0, 1, 0, 1, 2, 3, 4, 0, 0, 0, 0⟩) ∧
    (decode 0x5680280304000340#64).toOption = some (.fcmp ⟨0, 0, 0, 1, 2, 3, 4, 0, 0, 0, 3, 2⟩) ∧
    (decode 0x57004C0700000301#64).toOption = some (.fclass ⟨0, 0, 0, 2, 3, 7, 0, 0, 0x301⟩) := by decide +kernel
theorem test_decode_conversions :
    (decode 0x5804050600000B80#64).toOption = some (.cvt ⟨0, 0, 0, 1, 5, 6, 0, 0, 0, 11, 8, 0, 0⟩) ∧
    (decode 0x590014030A0008B9#64).toOption = some (.unpack ⟨0, 0, 0, 0, 20, 3, 10, 0, 0, 8, 11, 1, 1⟩) := by decide +kernel
theorem test_decode_lanes :
    (decode 0x5A000908000C0401#64).toOption = some (.vlsh ⟨0, 0, 9, 8, 0, 12, 0, 0, 0, 0, 0, 1, 1⟩) ∧
    (decode 0x5B00140300000800#64).toOption = some (.vred ⟨0, 0, 0, 0, 20, 3, 0, 1, 0⟩) ∧
    (decode 0x5B80080900000018#64).toOption = some (.vscan ⟨0, 0, 0, 0, 8, 9, 0, 1, 8⟩) := by decide +kernel
theorem test_decode_links :
    (decode 0x5C00000400000001#64).toOption = some (.npush ⟨0, 0, 4, 0, 1⟩) ∧
    (decode 0x5C80060000000003#64).toOption = some (.npop ⟨0, 0, 6, 3⟩) ∧
    (decode 0x5D00000814008000#64).toOption = some (.spawn ⟨0, 0, 8, 20, 0, 0⟩) := by decide +kernel
theorem test_decode_matrix :
    (decode 0x600008140800000A#64).toOption = some (.mldw ⟨4, 5, 0, 0, 2, 0, 0, 10⟩) ∧
    (decode 0x61000C1C0D00000A#64).toOption = some (.mstream ⟨6, 7, 0, 0, 3, 1, 0, 0, 10⟩) ∧
    (decode 0x618010241100000A#64).toOption = some (.mdrain ⟨8, 9, 0, 0, 4, 1, 0, 0, 10⟩) ∧
    (decode 0x628A000000000000#64).toOption = some (.mbatch ⟨10⟩) := by decide +kernel
theorem test_decode_tiles :
    (decode 0x64080C1C14000000#64).toOption = some (.tdef ⟨8, 6, 7, 0, 0, 5⟩) ∧
    (decode 0x6480081414000002#64).toOption = some (.tload ⟨4, 5, 0, 0, 5, 2⟩) ∧
    (decode 0x6900160000000000#64).toOption = some (.fwait ⟨11, 0, 0, 0, 0, 0⟩) := by decide +kernel
theorem test_decode_waits :
    (decode 0x69800800001A0000#64).toOption = some (.binit ⟨4, 0, 3, 2⟩) ∧
    (decode 0x6C00041000000000#64).toOption = some (.qpush ⟨2, 4, 0, 0⟩) ∧
    (decode 0x6D06040000000000#64).toOption = some (.qwait ⟨6, 2, 0⟩) := by decide +kernel
theorem test_decode_transfers :
    (decode 0x7000200000000003#64).toOption = some (.xtpl ⟨16, 0, 3⟩) ∧
    (decode 0x7080122800000000#64).toOption = some (.xpost ⟨9, 10, 0, 0⟩) := by decide +kernel
theorem test_decode_conversations :
    (decode 0x72962A0000000001#64).toOption = some (.cbind ⟨22, 21, 0, 1⟩) ∧
    (decode 0x73002A6000000080#64).toOption = some (.csend ⟨21, 24, 0, 0, 1, 0, 0⟩) ∧
    (decode 0x739E2A6000000001#64).toOption = some (.crecv ⟨30, 21, 24, 0, 1⟩) := by decide +kernel
theorem test_decode_system :
    (decode 0x7805000000000005#64).toOption = some (.srd ⟨5, 0, 0, 0, 0, 5⟩) ∧
    (decode 0x7886000000000011#64).toOption = some (.swr ⟨6, 0, 0, 0, 17⟩) ∧
    (decode 0x7B80081400050000#64).toOption = some (.iinv ⟨4, 5, 0, 0, 5⟩) ∧
    (decode 0x7D8C081400000000#64).toOption = some (.launch ⟨12, 4, 5, 0, 0⟩) := by decide +kernel
theorem test_decode_pair :
    (decode 0x8088280021083000#64).toOption = some (.pairWord ⟨⟨1, 4, 5, 0, 0⟩, ⟨0x21, 2, 3, 0, 0⟩⟩) := by decide +kernel
theorem test_decode_memory :
    (decode 0x300214020940C310#64).toOption = some (.ld ⟨0, 0, 2, 20, 2, 4, 5, 0, 12, 3, 0, 0, 2, 0⟩) := by decide +kernel

/-- A well-formed instruction of each kind, and the same with one field that its check refuses. -/
theorem test_wf_memory : (∀ i ∈ [Instr.ld { (default : LdOp) with size := 4 }, .st { (default : StOp) with ord := 2 },
      .sld { (default : SldOp) with size := 3 }, .atomAdd { (default : AtomOp) with size := 3 },
      .ld { (default : LdOp) with size := 3, vd := 10, eb := 12, ec := 3, pk := 1 }], i.wf = true) ∧
    ∀ i ∈ [Instr.ld { (default : LdOp) with size := 5 }, .ld { (default : LdOp) with scope := 7 }, .ld { (default : LdOp) with ord := 2 },
      .ld { (default : LdOp) with hint := 4 }, .st { (default : StOp) with ord := 1 }, .sld { (default : SldOp) with size := 4 },
      .atomAdd { (default : AtomOp) with size := 1 }, .atomAdd { (default : AtomOp) with size := 2, space := 3 },
      .atomFadd { (default : AtomOp) with size := 3 }, .ld { (default : LdOp) with pk := 1 },
      .ld { (default : LdOp) with size := 3, vd := 11, eb := 12, ec := 3 }, .ld { (default : LdOp) with vd := 1, eb := 255, ec := 2 }],
      i.wf = false := by decide +kernel

theorem test_wf_predicates_and_widths : (∀ i ∈ [Instr.scmp { (default : SCmpRegs) with rel := 11 },
      .vote { (default : VoteOp) with mode := 2 }, .gsplit { (default : WidthOp) with code := 2 },
      .brv { (default : BrvOp) with rcv := 1 }, .jmpv { (default : JmpvOp) with rcv := 1 }, .pblk { (default : PblkOp) with cnt := 2, pat := 7 }],
      i.wf = true) ∧
    ∀ i ∈ [Instr.scmp { (default : SCmpRegs) with rel := 12 }, .vote { (default : VoteOp) with mode := 3 }, .gsplit (default : WidthOp),
      .gfuse { (default : WidthOp) with code := 3 }, .brv (default : BrvOp), .jmpv (default : JmpvOp),
      .pblk { (default : PblkOp) with cnt := 2, pat := 8 }], i.wf = false := by decide +kernel

theorem test_wf_vectors : (∀ i ∈ [Instr.vadd { (default : VTwo) with vbs := 1, vb := 127 }, .vshl { (default : VShift) with imm := 1, cnt := 5 },
      .vprmt { (default : VPrmtOp) with i := 1, ctl := 5 }, .vcmp { (default : VCmpOp) with rel := 7, ctyp := 1 },
      .cvt { (default : CvtOp) with dst := 11, s := 1 }, .pack { (default : PackOp) with dst := 11, src := 8, k := 1 },
      .unpack { (default : CvtOp) with dst := 8, src := 11 }, .vlsh { (default : VLshOp) with k := 1 },
      .vbcast { (default : VBcastOp) with j := 5 }, .vred { (default : VRedOp) with op := 8, sat := 1 }], i.wf = true) ∧
    ∀ i ∈ [Instr.vadd { (default : VTwo) with vbs := 1, vb := 128 }, .vshl { (default : VShift) with imm := 1, vb := 1 },
      .vshl { (default : VShift) with cnt := 5 }, .vprmt { (default : VPrmtOp) with i := 1, vc := 5 },
      .vprmt { (default : VPrmtOp) with ctl := 5 }, .vcmp { (default : VCmpOp) with rel := 8 },
      .vcmp { (default : VCmpOp) with pd1 := 3, pd2 := 3 }, .vcmp { (default : VCmpOp) with ctyp := 2 },
      .fclass { (default : FClassOp) with ty := 3 }, .cvt { (default : CvtOp) with dst := 14 },
      .cvt { (default : CvtOp) with dst := 11, src := 12, s := 1 }, .cvt { (default : CvtOp) with sel := 1 },
      .pack { (default : PackOp) with dst := 8, src := 8 }, .pack { (default : PackOp) with dst := 9, src := 8, k := 1 },
      .unpack { (default : CvtOp) with dst := 9, src := 11 }, .vlsh { (default : VLshOp) with rot := 1, f := 1 },
      .vlsh { (default : VLshOp) with vb := 1 }, .vbcast { (default : VBcastOp) with j := 5, vbs := 1 },
      .vred { (default : VRedOp) with op := 11 }, .vred { (default : VRedOp) with sat := 1 },
      .vred { (default : VRedOp) with d := 1, vd := 128 }, .spawn { (default : SpawnOp) with vb := 127 }], i.wf = false := by decide +kernel

theorem test_wf_rest : (∀ i ∈ [Instr.mldw { (default : MldwOp) with s := 1, fmt := 11 }, .mdrain { (default : MdrainOp) with fmt := 13 },
      .mwait { (default : MwaitOp) with imm := 1, n := 5 }, .tload { (default : TloadOp) with tr := 2 },
      .fwait { (default : FwaitOp) with ph := 1 }, .binit { (default : BinitOp) with b := 23 }, .fence { (default : FenceOp) with ord := 1 },
      .csend { (default : CsendOp) with n := 8, fb := 1 }, .srd { (default : SrdOp) with v := 1 }, .swr { (default : SwrOp) with cls := 9, idx := 31 },
      .pairWord ⟨⟨1, 4, 5, 0, 0⟩, ⟨0x21, 2, 3, 0, 0⟩⟩], i.wf = true) ∧
    ∀ i ∈ [Instr.mldw { (default : MldwOp) with s := 1, fmt := 10 }, .mldw { (default : MldwOp) with fmt := 8 },
      .mdrain { (default : MdrainOp) with fmt := 14 }, .mwait { (default : MwaitOp) with n := 5 }, .tload { (default : TloadOp) with tr := 3 },
      .fwait { (default : FwaitOp) with reg := 1, ph := 1 }, .fwait { (default : FwaitOp) with sb := 1 },
      .binit { (default : BinitOp) with b := 24 }, .fence (default : FenceOp), .csend { (default : CsendOp) with n := 9 },
      .csend { (default : CsendOp) with fb := 1 }, .srd (default : SrdOp), .srd { (default : SrdOp) with idx := 21 },
      .srd { (default : SrdOp) with cls := 10 }, .srd { (default : SrdOp) with idx := 5, sa := 1 }, .srd { (default : SrdOp) with v := 1, cls := 1 },
      .swr { (default : SwrOp) with cls := 9, idx := 32 },
      .pairWord ⟨⟨1, 4, 5, 0, 0⟩, ⟨0x21, 4, 3, 0, 0⟩⟩, .pairWord ⟨⟨1, 4, 5, 0, 1⟩, ⟨0x21, 2, 3, 0, 0⟩⟩,
      .pairWord ⟨⟨0x0E, 4, 5, 0, 0⟩, ⟨0x21, 2, 3, 0, 0⟩⟩, .pairWord ⟨⟨0, 4, 0, 0, 0⟩, ⟨0x21, 2, 3, 0, 0⟩⟩,
      .pairWord ⟨⟨0x16, 4, 0, 0, 32⟩, ⟨0x21, 2, 3, 0, 0⟩⟩], i.wf = false := by decide +kernel

end Sys2Proof.Tests
end

section
/-!
SUPPORT. The active lanes of a guarded instruction, writing their lanes of a vector register, and going on at next_pc.
-/

namespace Sys2Proof.Machine

/-! ### The lanes of a guarded instruction -/

/-- The model's guarded lanes are the rules' (R167). -/
theorem guardLanes_eq_guardedLanes (g : Group) (e : Entry) (gn : BitVec 1) (gp : BitVec 3) :
    guardLanes g e gn gp = guardedLanes g e gn gp := by
  unfold guardLanes guardedLanes strandLanes bitsBelow activeLanes bit1
  refine congrArg (List.filter · _) (funext fun l => ?_)
  cases (getP g gp.toNat).getLsbD l <;> cases (gn == 1#1) <;> rfl

/-- A mask has no lane beyond 63, whatever the width. -/
theorem lt_of_mem_guardedLanes {g : Group} {e : Entry} {gn : BitVec 1} {gp : BitVec 3} {l : Nat}
    (h : l ∈ guardedLanes g e gn gp) : l < 64 := by
  have hbit : e.mask.getLsbD l = true := (List.mem_filter.mp (List.mem_filter.mp h).1).2
  exact BitVec.lt_of_getLsbD hbit

/-! ### The last of two writes -/

theorem tset_tset {α : Type} (t : Tab α) (k : Nat) (v w : α) : tset (tset t k v) k w = tset t k w := by
  induction t with
  | nil => simp [tset]
  | cons x r ih =>
    obtain ⟨i, y⟩ := x
    by_cases hlt : k < i
    · simp [tset, hlt]
    · by_cases heq : k = i
      · simp [tset, heq]
      · simp [tset, hlt, heq, ih]

@[simp] theorem setGroup_setGroup (s : State) (g h : Group) : setGroup (setGroup s g) h = setGroup s h := by
  simp [setGroup, tset_tset]

/-! ### Writing lanes of a vector register -/

/-- A group with one lane of a vector register written, poisoned or not (R406). -/
def putLane (g : Group) (r l : Nat) (v : Lane) (bad : Bool) : Group :=
  if bad then poisonV (putV g r l v) r l else putV g r l v

/-- A group with the listed lanes of a vector register written. -/
def putLanes (g : Group) (r : Nat) (lanes : List Nat) (f : Nat → Lane) (bad : Nat → Bool) : Group :=
  lanes.foldl (fun g l => putLane g r l (f l) (bad l)) g

theorem getV_putLane (g : Group) {r l q k : Nat} (v : Lane) (bad : Bool) (hl : l < 64) (hk : k < 64) :
    getV (putLane g r l v bad) q k = if q = r ∧ k = l then v else getV g q k := by
  cases bad <;> simp [putLane, getV_putV _ _ hl hk]

theorem poisonedV_putLane (g : Group) {r l q k : Nat} (v : Lane) (bad : Bool) (hl : l < 64) (hk : k < 64) :
    poisonedV (putLane g r l v bad) q k = if q = r ∧ k = l then bad else poisonedV g q k := by
  have hput := poisonedV_putV g (q := q) (r := r) v hl hk
  have hbad : poisonedV (putLane g r l v bad) q k = (poisonedV (putV g r l v) q k || (bad && decide (q = r ∧ k = l))) := by
    cases bad with
    | false => simp [putLane]
    | true => rw [putLane, if_pos rfl, poisonedV_poisonV _ hl hk, Bool.true_and]
  rw [hbad, hput]
  by_cases h : q = r ∧ k = l
  · rw [if_pos h, decide_eq_true h]; simp
  · rw [if_neg h, decide_eq_false h]; simp

theorem getV_putLanes (g : Group) {r q k : Nat} {lanes : List Nat} (f : Nat → Lane) (bad : Nat → Bool)
    (h64 : ∀ l ∈ lanes, l < 64) (hk : k < 64) :
    getV (putLanes g r lanes f bad) q k = if q = r ∧ k ∈ lanes then f k else getV g q k := by
  induction lanes generalizing g with
  | nil => simp [putLanes]
  | cons l ls ih =>
    have step : putLanes g r (l :: ls) f bad = putLanes (putLane g r l (f l) (bad l)) r ls f bad := rfl
    rw [step, ih _ (fun x hx => h64 x (List.mem_cons_of_mem _ hx)), getV_putLane _ _ _ (h64 l List.mem_cons_self) hk]
    grind

theorem poisonedV_putLanes (g : Group) {r q k : Nat} {lanes : List Nat} (f : Nat → Lane) (bad : Nat → Bool)
    (h64 : ∀ l ∈ lanes, l < 64) (hk : k < 64) :
    poisonedV (putLanes g r lanes f bad) q k = if q = r ∧ k ∈ lanes then bad k else poisonedV g q k := by
  induction lanes generalizing g with
  | nil => simp [putLanes]
  | cons l ls ih =>
    have step : putLanes g r (l :: ls) f bad = putLanes (putLane g r l (f l) (bad l)) r ls f bad := rfl
    rw [step, ih _ (fun x hx => h64 x (List.mem_cons_of_mem _ hx)), poisonedV_putLane _ _ _ (h64 l List.mem_cons_self) hk]
    grind

/-- A field that writing one lane keeps is kept by writing several. -/
theorem putLanes_keeps {α : Type} (field : Group → α) (r : Nat) (f : Nat → Lane) (bad : Nat → Bool)
    (h : ∀ g l v b, field (putLane g r l v b) = field g) (g : Group) (lanes : List Nat) :
    field (putLanes g r lanes f bad) = field g := by
  induction lanes generalizing g with
  | nil => rfl
  | cons l ls ih => exact (ih _).trans (h ..)

@[simp] theorem putLanes_stack (g : Group) (r : Nat) (lanes : List Nat) (f : Nat → Lane) (bad : Nat → Bool) :
    (putLanes g r lanes f bad).stack = g.stack :=
  putLanes_keeps Group.stack r f bad (fun _ _ _ b => by cases b <;> rfl) g lanes

@[simp] theorem putLanes_handler (g : Group) (r : Nat) (lanes : List Nat) (f : Nat → Lane) (bad : Nat → Bool) :
    (putLanes g r lanes f bad).handler = g.handler :=
  putLanes_keeps Group.handler r f bad (fun _ _ _ b => by cases b <;> rfl) g lanes

@[simp] theorem putLanes_owner (g : Group) (r : Nat) (lanes : List Nat) (f : Nat → Lane) (bad : Nat → Bool) :
    (putLanes g r lanes f bad).owner = g.owner :=
  putLanes_keeps Group.owner r f bad (fun _ _ _ b => by cases b <;> rfl) g lanes

@[simp] theorem noVectors_putLanes (g : Group) (r : Nat) (lanes : List Nat) (f : Nat → Lane) (bad : Nat → Bool) :
    noVectors (putLanes g r lanes f bad) = noVectors g :=
  putLanes_keeps noVectors r f bad (fun _ _ _ b => by cases b <;> rfl) g lanes

/-- Writing lanes replaces the issuing group, and marks the team where one of the values is poisoned (R407). -/
theorem writeLanes_map (s : State) (r : Nat) (lanes : List Nat) (f : Nat → Lane) (bad : Nat → Bool) :
    writeLanes s r (lanes.map fun l => (l, f l, bad l)) =
      setGroup (if lanes.any bad then consumed s (curGroup s) else s) (putLanes (curGroup s) r lanes f bad) := by
  have hgroup : (lanes.map fun l => (l, f l, bad l)).foldl (fun g (x : Nat × Lane × Bool) =>
      if x.2.2 then poisonV (putV g r x.1 x.2.1) r x.1 else putV g r x.1 x.2.1) (curGroup s) =
      putLanes (curGroup s) r lanes f bad := by
    rw [List.foldl_map]; rfl
  have hany : ((lanes.map fun l => (l, f l, bad l)).any fun x => x.2.2) = lanes.any bad := by
    rw [List.any_map]; rfl
  unfold writeLanes
  rw [hgroup, hany]
  cases lanes.any bad with
  | false => rfl
  | true =>
    rw [if_pos rfl, if_pos rfl, consumed_setGroup, consumed_owner s (putLanes_owner ..)]

/-! ### Going on -/

@[simp] theorem curGroup_progressed (s : State) : curGroup (progressed s) = curGroup s := rfl

/-- Where a strand goes depends on the state it started in through the cursor, the stack and the handler alone. -/
theorem GoesTo.of_strands {s s₁ t : State} {pc : Word} {b : Option Block} (hcur : s₁.cur = s.cur)
    (hstack : (curGroup s₁).stack = (curGroup s).stack) (hhandler : (curGroup s₁).handler = (curGroup s).handler)
    (h : GoesTo s₁ t pc b) : GoesTo s t pc b := by
  unfold GoesTo Standing curStrand strandOf hmode at *
  simpa only [hcur, hstack, hhandler] using h

theorem GoesOn.of_strands {s s₁ t : State} (hcur : s₁.cur = s.cur)
    (hstack : (curGroup s₁).stack = (curGroup s).stack) (hhandler : (curGroup s₁).handler = (curGroup s).handler)
    (h : GoesOn s₁ t) : GoesOn s t := by
  have hstrand : curStrand s₁ = curStrand s := by unfold curStrand strandOf; rw [hcur, hstack, hhandler]
  unfold GoesOn at *
  rw [hstrand] at h
  exact h.of_strands hcur hstack hhandler

/-- Advancing replaces the issuing group by one that differs in its program counters, and the strand goes on. -/
theorem advance_spec (s : State) :
    ∃ g, advance s = setGroup s g ∧ bareGroup g = bareGroup (curGroup s) ∧ GoesOn s (progressed (setGroup s g)) := by
  obtain ⟨g, hmove, hbare, hstrand⟩ := moveTo_spec s (nextPc (curStrand s)) (blockNext (curStrand s).block)
  refine ⟨g, hmove, hbare, fun hs hr => ?_⟩
  have hcur : curStrand (progressed (setGroup s g)) = strandOf g s.cur.entry := by
    unfold curStrand; rw [curGroup_progressed, curGroup_setGroup]; rfl
  rw [hcur, hstrand hs hr]
  exact ⟨rfl, rfl, rfl, rfl⟩

/-- Replacing the issuing group changes nothing elsewhere. -/
theorem elsewhere_setGroup (s : State) (g : Group) : Elsewhere s (progressed (setGroup s g)) :=
  ⟨fun _ hk => tget_setGroup s g hk, fun _ => rfl, fun _ => rfl, rfl⟩

/-- What an instruction leaves that writes lanes of one vector register and goes on. -/
theorem writeLanes_advance_spec (s : State) (r : Nat) {lanes : List Nat} (f : Nat → Lane) (bad : Nat → Bool)
    (h64 : ∀ l ∈ lanes, l < 64) :
    ∃ g, advance (writeLanes s r (lanes.map fun l => (l, f l, bad l))) =
        setGroup (if lanes.any bad then consumed s (curGroup s) else s) g ∧
      (let t := progressed (setGroup (if lanes.any bad then consumed s (curGroup s) else s) g)
       OnlyVectors s t [r] lanes ∧ GoesOn s t ∧
       ∀ l ∈ lanes, getV (curGroup t) r l = f l ∧ poisonedV (curGroup t) r l = bad l) := by
  rw [writeLanes_map]
  generalize hs' : (if lanes.any bad then consumed s (curGroup s) else s) = s'
  have hcur : s'.cur = s.cur := by rw [← hs']; split <;> simp
  obtain ⟨g, hadv, hbare, hgoes⟩ := advance_spec (setGroup s' (putLanes (curGroup s) r lanes f bad))
  rw [curGroup_setGroup] at hbare
  have hcurGroup : curGroup (progressed (setGroup s' g)) = g := by rw [curGroup_progressed, curGroup_setGroup]
  rw [setGroup_setGroup] at hadv hgoes
  refine ⟨g, hadv, ⟨fun q k hk hout => ?_, ?_⟩, ?_, fun l hl => ?_⟩
  · have hnot : ¬(q = r ∧ k ∈ lanes) := by rintro ⟨rfl, hmem⟩; simp [hmem] at hout
    rw [hcurGroup, getV_of_bare hbare, poisonedV_of_bare hbare, getV_putLanes _ _ _ h64 hk,
      poisonedV_putLanes _ _ _ h64 hk, if_neg hnot, if_neg hnot]
    exact ⟨rfl, rfl⟩
  · rw [hcurGroup, noVectors_of_bare hbare, noVectors_putLanes]
  · exact hgoes.of_strands (s₁ := setGroup s' (putLanes (curGroup s) r lanes f bad)) hcur (by simp) (by simp)
  · rw [hcurGroup, getV_of_bare hbare, poisonedV_of_bare hbare, getV_putLanes _ _ _ h64 (h64 l hl),
      poisonedV_putLanes _ _ _ h64 (h64 l hl), if_pos ⟨rfl, hl⟩, if_pos ⟨rfl, hl⟩]
    exact ⟨rfl, rfl⟩

end Sys2Proof.Machine
end

section
/-!
SUPPORT. The neighbour links: the word that NPUSH makes, one queue replaced, and what NPUSH and NPOP come to once their
checks have passed (R230, R231). Settles O30.
-/

namespace Sys2Proof.Machine

/-! ### The word of a push -/

theorem getLsbD_foldl_or {n : Nat} {α : Type} (f : α → BitVec n) (l : List α) (x : BitVec n) (j : Nat) :
    (l.foldl (fun x i => x ||| f i) x).getLsbD j = (x.getLsbD j || l.any fun i => (f i).getLsbD j) := by
  induction l generalizing x with
  | nil => simp
  | cons i r ih => rw [List.foldl_cons, ih, BitVec.getLsbD_or, List.any_cons, Bool.or_assoc]

/-- A lane's 32 bits at their place in a word reach no other place. -/
theorem getLsbD_laneBits (v : Lane) {i j b : Nat} (hi : i < 16) (hb : b < 32) :
    (v.setWidth 512 <<< (32 * j)).getLsbD (32 * i + b) = (decide (j = i) && v.getLsbD b) := by
  rw [BitVec.getLsbD_shiftLeft, BitVec.getLsbD_setWidth]
  by_cases h : j = i
  · subst h
    have : 32 * j + b - 32 * j = b := by omega
    have hlt : 32 * j + b < 512 := by omega
    have hb' : b < 512 := by omega
    simp [this, hlt, hb']
  · rcases Nat.lt_or_gt_of_ne h with hlt | hgt
    · have : v.getLsbD (32 * i + b - 32 * j) = false := BitVec.getLsbD_of_ge _ _ (by omega)
      simp [this, h]
    · have : 32 * i + b < 32 * j := by omega
      simp [this, h]

/-- One of the 16 lanes of a word is the one at place i, and is active. -/
theorem any_active_lane (active : Nat → Bool) (p : Nat → Bool) {i : Nat} (hi : i < 16) :
    (((List.range 16).filter active).any fun j => decide (j = i) && p j) = (active i && p i) := by
  rw [Bool.eq_iff_iff]
  simp only [List.any_eq_true, List.mem_filter, List.mem_range, Bool.and_eq_true, decide_eq_true_eq]
  constructor
  · rintro ⟨j, ⟨-, hj⟩, rfl, hp⟩
    exact ⟨hj, hp⟩
  · rintro ⟨ha, hp⟩
    exact ⟨i, ⟨hi, ha⟩, rfl, hp⟩

theorem pushWord_pushed (g : Group) (va : Nat) (lanes : List Nat) (k : Nat) :
    PushedWord g va lanes k (pushWord g va lanes k) := by
  intro i hi
  constructor
  · refine BitVec.eq_of_getLsbD_eq fun b hb => ?_
    rw [BitVec.getLsbD_extractLsb', pushWord]
    simp only [getLsbD_foldl_or, getLsbD_laneBits _ hi hb,
      any_active_lane (fun j => lanes.contains (16 * k + j)) (fun j => (getV g va (16 * k + j)).getLsbD b) hi]
    cases lanes.contains (16 * k + i) <;> simp [hb]
  · have hbit : ∀ j, (if poisonedV g va (16 * k + j) then 1#16 <<< j else 0#16).getLsbD i =
        (decide (j = i) && poisonedV g va (16 * k + j)) := by
      intro j
      cases poisonedV g va (16 * k + j) with
      | false => simp
      | true => rw [if_pos rfl, BitVec.getLsbD_shiftLeft, BitVec.getLsbD_one]; grind
    have hor : ∀ (x : BitVec 16) (j : Nat), (if poisonedV g va (16 * k + j) then x ||| (1#16 <<< j) else x) =
        x ||| (if poisonedV g va (16 * k + j) then 1#16 <<< j else 0#16) := by
      intro x j; split <;> simp
    rw [pushWord]
    simp only [hor, getLsbD_foldl_or, hbit,
      any_active_lane (fun j => lanes.contains (16 * k + j)) (fun j => poisonedV g va (16 * k + j)) hi]
    simp

/-! ### One receive queue replaced -/

@[simp] theorem curGroup_setLink (s : State) (c d : Nat) (q : List LinkWord) : curGroup (setLink s c d q) = curGroup s := rfl

@[simp] theorem consumed_cores (s : State) (g : Group) : (consumed s g).cores = s.cores := by
  unfold consumed; split
  · dsimp only; split <;> rfl
  · rfl

theorem consumed_setLink (s : State) (g : Group) (c d : Nat) (q : List LinkWord) :
    consumed (setLink s c d q) g = setLink (consumed s g) c d q := by
  unfold consumed setLink modCore coreAt; split
  · dsimp only; split <;> rfl
  · rfl

/-- Replacing one queue and the issuing group changes nothing else. -/
theorem onlyLink_setLink (s : State) (c d : Nat) (q : List LinkWord) (g : Group) :
    OnlyLink s (progressed (setGroup (setLink s c d q) g)) c d q :=
  ⟨fun _ hc => tgetD_tset_other _ _ _ hc, tgetD_tset_same .., rfl, fun _ hj => tget_setGroup _ g hj⟩

/-! ### NPUSH -/

/-- An instruction that waits, of a group that is alone. -/
theorem finish_wait {s : State} (h : Alone s) (s' : State) : finish_ s (waitHere s') = .next (stalled s') := by
  unfold finish_; rw [recordedTrap_alone h]; rfl

section Push
variable {s : State} {o : NPushOp} (hA : Alone s) (hV : VectorsReady s [o.va.toNat] []) (hD : NoneDue s [o.va.toNat])
  (hL : guardedLanes (curGroup s) (curStrand s) o.gn o.gp ≠ [])

include hV hD in
theorem begin_npush :
    begin_ { vr := [src o.va o.fa] } (some (guardedLanes (curGroup s) (curStrand s) o.gn o.gp)) s = .ok s :=
  begin_ok (by simp [ScalarsReady]) hV (by simpa [src] using (hV o.va.toNat (by simp)).2) (.inr rfl)
    (by simp [planPoison]) hD (by simp) (by simp)

include hA hV hD hL

/-- Over an absent link NPUSH has no effect but that its strand goes on. -/
theorem exec_npush_absent (hn : neighbour (curGroup s).core o.d.toNat = none) :
    exec (.npush o) s = .next (progressed (advance s)) := by
  show execNpush o s = _
  rw [← finish_alone hA, execNpush]
  simp [bind, Except.bind, guardLanes_eq_guardedLanes, begin_npush hV hD, hL, hn]

theorem exec_npush_full {c : Nat} (hn : neighbour (curGroup s).core o.d.toNat = some c)
    (hq : 32 < (linkQueue s c (opposite o.d.toNat)).length + linkWords (curGroup s).width) : Waits (.npush o) s := by
  have hlead : isTrailing s (curGroup s) = false := hA.2.1
  show execNpush o s = _
  rw [← finish_wait hA s, execNpush]
  simp [bind, Except.bind, guardLanes_eq_guardedLanes, begin_npush hV hD, hL, hn, hlead, until_, waitHere, Nat.not_le.mpr hq]

theorem exec_npush_room {c : Nat} (hn : neighbour (curGroup s).core o.d.toNat = some c)
    (hq : (linkQueue s c (opposite o.d.toNat)).length + linkWords (curGroup s).width ≤ 32) :
    let g := curGroup s
    let lanes := guardedLanes g (curStrand s) o.gn o.gp
    exec (.npush o) s = .next (progressed (advance (setLink
      (if lanes.any (poisonedV g o.va.toNat) then consumed s g else s) c (opposite o.d.toNat)
      (linkQueue s c (opposite o.d.toNat) ++
        (List.range (linkWords g.width)).map (pushWord g o.va.toNat lanes))))) := by
  have hlead : isTrailing s (curGroup s) = false := hA.2.1
  show execNpush o s = _
  rw [← finish_alone hA, execNpush]
  simp [bind, Except.bind, guardLanes_eq_guardedLanes, begin_npush hV hD, hL, hn, hlead, until_, hq]

/-- Over an absent link NPUSH has no effect (R231). -/
theorem npush_absent (hn : neighbour (curGroup s).core o.d.toNat = none) :
    ∃ t, exec (.npush o) s = .next t ∧ OnlyMoves s t ∧ GoesOn s t ∧ Elsewhere s t := by
  obtain ⟨g, hadv, hbare, hgoes⟩ := advance_spec s
  refine ⟨progressed (setGroup s g), ?_, ?_, hgoes, elsewhere_setGroup s g⟩
  · rw [exec_npush_absent hA hV hD hL hn, hadv]
  · rw [OnlyMoves, curGroup_progressed, curGroup_setGroup, hbare]

/-- Where the neighbour's queue has room NPUSH appends its words to it and goes on (R231). -/
theorem npush_room {c : Nat} (hn : neighbour (curGroup s).core o.d.toNat = some c) :
    let g := curGroup s
    let lanes := guardedLanes g (curStrand s) o.gn o.gp
    let q := linkQueue s c (opposite o.d.toNat)
    let s' := if lanes.any (poisonedV g o.va.toNat) then consumed s g else s
    q.length + linkWords g.width ≤ 32 →
    ∃ t ws, exec (.npush o) s = .next t ∧ OnlyMoves s t ∧ GoesOn s t ∧
      (OnlyLink s' t c (opposite o.d.toNat) (q ++ ws) ∧ t.teams = s'.teams) ∧
      ws.length = linkWords g.width ∧ ∀ k x, ws[k]? = some x → PushedWord g o.va.toNat lanes k x := by
  intro g lanes q s' hq
  have hgroup : curGroup s' = g := by simp only [s']; split <;> simp [g]
  have hcur : s'.cur = s.cur := by simp only [s']; split <;> simp
  obtain ⟨h, hadv, hbare, hgoes⟩ := advance_spec (setLink s' c (opposite o.d.toNat)
    (q ++ (List.range (linkWords g.width)).map (pushWord g o.va.toNat lanes)))
  rw [curGroup_setLink, hgroup] at hbare
  refine ⟨_, (List.range (linkWords g.width)).map (pushWord g o.va.toNat lanes),
    exec_npush_room hA hV hD hL hn hq, ?_⟩
  rw [hadv]
  refine ⟨?_, ?_, ⟨onlyLink_setLink s' .., rfl⟩, by simp, fun k x hx => ?_⟩
  · rw [OnlyMoves, curGroup_progressed, curGroup_setGroup, hbare]
  · exact hgoes.of_strands hcur (congrArg Group.stack hgroup) (congrArg Group.handler hgroup)
  · rw [List.getElem?_map, Option.map_eq_some_iff] at hx
    obtain ⟨j, hj, rfl⟩ := hx
    obtain rfl : k = j := by simpa using (List.getElem?_eq_some_iff.mp hj).2
    exact pushWord_pushed g o.va.toNat lanes k

end Push

/-- A group of no redundant team just obtains what comes from outside its registers (R417). -/
theorem outside_alone {s : State} (h : Alone s) (kind : Nat) (vals : List Word) : outside kind vals s = .ok (vals, s) := by
  unfold outside; simp [h.1, h.2.1]

/-! ### NPOP -/

/-- The word of a queue that holds a lane's value, an empty one where the queue ends before it. -/
def wordOfLane (q : List LinkWord) (l : Nat) : LinkWord := q.getD (l / 16) {}

/-- A lane's bits of its word (R231). -/
def poppedLane (q : List LinkWord) (l : Nat) : Lane := (wordOfLane q l).bytes.extractLsb' (32 * (l % 16)) 32

/-- A lane's poison in its word (R231). -/
def poppedPoison (q : List LinkWord) (l : Nat) : Bool := (wordOfLane q l).poison.getLsbD (l % 16)

/-- A lane's bits with its poison above them, the form in which NPOP obtains them (R417), give both back. -/
theorem unpack_popped (q : List LinkWord) (lanes : List Nat) :
    ((lanes.zip (lanes.map fun l =>
        (poppedLane q l).setWidth 64 ||| (if poppedPoison q l then 1#64 <<< 32 else 0#64))).map
      fun x => (x.1, x.2.setWidth 32, x.2.getLsbD 32)) = lanes.map fun l => (l, poppedLane q l, poppedPoison q l) := by
  rw [← List.map_prod_left_eq_zip, List.map_map]
  refine List.map_congr_left fun l _ => ?_
  cases h : poppedPoison q l <;> simp [h]

section Pop
variable {s : State} {o : NPopOp} (hA : Alone s) (hV : VectorsReady s [] [o.vd.toNat]) (hD : NoneDue s [o.vd.toNat])
  (hL : guardedLanes (curGroup s) (curStrand s) o.gn o.gp ≠ [])

include hV hD in
theorem begin_npop :
    begin_ { vw := [o.vd.toNat] } (some (guardedLanes (curGroup s) (curStrand s) o.gn o.gp)) s = .ok s :=
  begin_ok (by simp [ScalarsReady]) hV (by simp) (.inr rfl) (by simp [planPoison]) hD (by simp) (by simp)

include hV in
theorem dstFull_npop : dstFull [] [o.vd.toNat] s = .ok () :=
  dstFull_ok (by simp) fun r hr => (hV r hr).2

include hA hV hD hL

/-- Over an absent link NPOP writes 0. -/
theorem exec_npop_absent (hn : neighbour (curGroup s).core o.d.toNat = none) :
    exec (.npop o) s = .next (progressed (advance (writeLanes s o.vd.toNat
      ((guardedLanes (curGroup s) (curStrand s) o.gn o.gp).map fun l => (l, 0#32, false))))) := by
  show execNpop o s = _
  rw [← finish_alone hA, execNpop]
  simp [bind, Except.bind, guardLanes_eq_guardedLanes, begin_npop hV hD, dstFull_npop hV, hL, hn]

theorem exec_npop_short {c : Nat} (hn : neighbour (curGroup s).core o.d.toNat = some c)
    (hq : (linkQueue s (curGroup s).core o.d.toNat).length < linkWords (curGroup s).width) : Waits (.npop o) s := by
  have hlead : isTrailing s (curGroup s) = false := hA.2.1
  show execNpop o s = _
  rw [← finish_wait hA s, execNpop]
  simp [bind, Except.bind, guardLanes_eq_guardedLanes, begin_npop hV hD, dstFull_npop hV, hL, hn, hlead, until_,
    waitHere, Nat.not_le.mpr hq]

theorem exec_npop_words {c : Nat} (hn : neighbour (curGroup s).core o.d.toNat = some c)
    (hq : linkWords (curGroup s).width ≤ (linkQueue s (curGroup s).core o.d.toNat).length) :
    let g := curGroup s
    let lanes := guardedLanes g (curStrand s) o.gn o.gp
    let q := linkQueue s g.core o.d.toNat
    exec (.npop o) s = .next (progressed (advance (writeLanes (setLink s g.core o.d.toNat (q.drop (linkWords g.width)))
      o.vd.toNat (lanes.map fun l => (l, poppedLane q l, poppedPoison q l))))) := by
  have hlead : isTrailing s (curGroup s) = false := hA.2.1
  show execNpop o s = _
  rw [← finish_alone hA, execNpop]
  simp only [bind, Except.bind, guardLanes_eq_guardedLanes, begin_npop hV hD, dstFull_npop hV, List.isEmpty_iff, hL, hn,
    hlead, until_, hq, outside_alone hA, decide_true, Bool.not_false, Bool.false_eq_true, if_true, if_false]
  rw [← unpack_popped]; rfl

/-- Over an absent link NPOP writes 0, without poison, to its active lanes (R231). -/
theorem npop_absent (hn : neighbour (curGroup s).core o.d.toNat = none) :
    let lanes := guardedLanes (curGroup s) (curStrand s) o.gn o.gp
    ∃ t, exec (.npop o) s = .next t ∧ OnlyVectors s t [o.vd.toNat] lanes ∧ GoesOn s t ∧ Elsewhere s t ∧
      ∀ l ∈ lanes, getV (curGroup t) o.vd.toNat l = 0#32 ∧ poisonedV (curGroup t) o.vd.toNat l = false := by
  intro lanes
  obtain ⟨g, hadv, honly, hgoes, hvals⟩ := writeLanes_advance_spec s o.vd.toNat (lanes := lanes) (fun _ => 0#32)
    (fun _ => false) fun _ => lt_of_mem_guardedLanes
  have hclean : (lanes.any fun _ => false) = false := by simp
  simp only [hclean, Bool.false_eq_true, if_false] at hadv honly hgoes hvals
  exact ⟨_, by rw [exec_npop_absent hA hV hD hL hn, hadv], honly, hgoes, elsewhere_setGroup s g, hvals⟩

/-- Where its core's queue holds its words NPOP takes them and writes them, poison included, to its active lanes
(R231). -/
theorem npop_words {c : Nat} (hn : neighbour (curGroup s).core o.d.toNat = some c) :
    let g := curGroup s
    let lanes := guardedLanes g (curStrand s) o.gn o.gp
    let q := linkQueue s g.core o.d.toNat
    linkWords g.width ≤ q.length →
    ∃ t, exec (.npop o) s = .next t ∧ OnlyVectors s t [o.vd.toNat] lanes ∧ GoesOn s t ∧
      (∃ s', (s' = s ∨ s' = consumed s g) ∧ OnlyLink s' t g.core o.d.toNat (q.drop (linkWords g.width)) ∧
        t.teams = s'.teams) ∧
      ∀ l ∈ lanes, getV (curGroup t) o.vd.toNat l = poppedLane q l ∧
        poisonedV (curGroup t) o.vd.toNat l = poppedPoison q l := by
  intro g lanes q hq
  obtain ⟨h, hadv, honly, hgoes, hvals⟩ := writeLanes_advance_spec
    (setLink s g.core o.d.toNat (q.drop (linkWords g.width))) o.vd.toNat (lanes := lanes) (poppedLane q)
    (poppedPoison q) fun _ => lt_of_mem_guardedLanes
  refine ⟨_, by rw [exec_npop_words hA hV hD hL hn hq, hadv], honly, hgoes, ?_, hvals⟩
  cases lanes.any (poppedPoison q) with
  | false => exact ⟨s, .inl rfl, onlyLink_setLink s .., rfl⟩
  | true =>
    rw [if_pos rfl, consumed_setLink]
    exact ⟨consumed s g, .inr rfl, onlyLink_setLink (consumed s g) .., rfl⟩

end Pop

/-- Settles O30: a direction's queue, its room and its words decide which of the cases of NPUSH and NPOP applies. -/
theorem neighbourLinks : Obligations.NeighbourLinks := by
  intro s g n hA
  constructor
  · intro o lanes dir hV hD hL
    exact ⟨npush_absent hA hV hD hL, fun c hn => ⟨exec_npush_full hA hV hD hL hn, npush_room hA hV hD hL hn⟩⟩
  · intro o lanes vd hV hD hL
    refine ⟨fun hn => ?_, fun hn => ?_⟩
    · obtain ⟨t, hstep, honly, hgoes, helse, hvals⟩ := npop_absent hA hV hD hL hn
      exact ⟨t, hstep, honly, hgoes, helse, fun l hl _ => hvals l hl⟩
    · obtain ⟨c, hc⟩ := Option.isSome_iff_exists.mp hn
      refine ⟨exec_npop_short hA hV hD hL hc, fun hq => ?_⟩
      obtain ⟨t, hstep, honly, hgoes, hlink, hvals⟩ := npop_words hA hV hD hL hc hq
      exact ⟨t, hstep, honly, hgoes, hlink, fun l hl _ => hvals l hl⟩

end Sys2Proof.Machine
end

section
/-!
SUPPORT. Rounding to a float format: finite values counted in one common unit, a code taken apart into a shift and a
significand, and the code that toFloat packs (R135, R138). Settles O14.
-/

namespace Sys2Proof.Machine

/-! ### Values in a common unit -/

/-- m × 2^e as a whole number of units 2^u, for a unit no coarser than 2^e. -/
def inUnits (u : Int) (m : Nat) (e : Int) : Nat := m * 2 ^ (e - u).toNat

theorem inUnits_two_pow (u : Int) (k : Nat) (e : Int) : inUnits u (2 ^ k) e = 2 ^ (k + (e - u).toNat) :=
  (Nat.pow_add 2 k _).symm

/-- A value read with a finer exponent. -/
theorem inUnits_refine {u e q : Int} (n : Nat) (hu : u ≤ e) (h : e ≤ q) :
    inUnits u n q = inUnits u (n * 2 ^ (q - e).toNat) e := by
  have hexp : (q - u).toNat = (q - e).toNat + (e - u).toNat := by omega
  rw [inUnits, inUnits, hexp, Nat.pow_add, Nat.mul_assoc]

theorem inUnits_le_iff {u q : Int} {a b : Nat} : inUnits u a q ≤ inUnits u b q ↔ a ≤ b :=
  Nat.mul_le_mul_right_iff (Nat.two_pow_pos _)

theorem inUnits_lt_iff {u q : Int} {a b : Nat} : inUnits u a q < inUnits u b q ↔ a < b :=
  Nat.mul_lt_mul_right (Nat.two_pow_pos _)

/-- The distance of two counts. -/
def apart (x y : Nat) : Nat := ((x : Int) - y).natAbs

theorem apart_mul (a b k : Nat) : apart (a * k) (b * k) = apart a b * k := by
  rw [apart, apart, Int.natCast_mul, Int.natCast_mul, ← Int.sub_mul, Int.natAbs_mul, Int.natAbs_natCast]

/-- Of the distances of values, which is less does not turn on the unit. -/
theorem apart_inUnits_le_iff {u q : Int} {a b c : Nat} :
    apart (inUnits u a q) (inUnits u b q) ≤ apart (inUnits u a q) (inUnits u c q) ↔ apart a b ≤ apart a c := by
  rw [inUnits, inUnits, inUnits, apart_mul, apart_mul]
  exact Nat.mul_le_mul_right_iff (Nat.two_pow_pos _)

/-- Half a divisor off, a multiple has no other multiple nearer. -/
theorem apart_le_of_half {x n d : Nat} (hhalf : 2 * apart x (n * d) ≤ d) (a : Nat) :
    apart x (n * d) ≤ apart x (a * d) := by
  by_cases hne : n = a
  · subst hne
    exact Nat.le_refl _
  · have hone : 1 ≤ apart n a := by unfold apart; omega
    have hgap : d ≤ apart (n * d) (a * d) := by
      rw [apart_mul]
      exact Nat.le_mul_of_pos_left d hone
    have htri : apart (n * d) (a * d) ≤ apart x (n * d) + apart x (a * d) := by unfold apart; omega
    omega

/-! ### A whole number of units (R138) -/

theorem roundUnits_of_le {e q : Int} (rm : Nat) (neg : Bool) (m : Nat) (h : q ≤ e) :
    roundUnits rm neg m e q = m * 2 ^ (e - q).toNat := if_pos h

/-- In a coarser unit the quotient is rounded up or left. -/
theorem roundUnits_of_lt {e q : Int} (rm : Nat) (neg : Bool) (m : Nat) (h : e < q) :
    let d := 2 ^ (q - e).toNat
    roundUnits rm neg m e q =
      if roundUp rm neg (m / d % 2 == 1) (m % d != 0) (compare (2 * (m % d)) d) then m / d + 1 else m / d :=
  if_neg (Int.not_le.mpr h)

/-- No mode rounds below a whole number of units that the value reaches. -/
theorem le_roundUnits {u e q : Int} {a m : Nat} (rm : Nat) (neg : Bool) (he : u ≤ e) (hq : u ≤ q)
    (h : inUnits u a q ≤ inUnits u m e) : a ≤ roundUnits rm neg m e q := by
  rcases Int.lt_or_le e q with hlt | hle
  · rw [inUnits_refine a he (Int.le_of_lt hlt), inUnits_le_iff] at h
    have hquot := (Nat.le_div_iff_mul_le (Nat.two_pow_pos _)).mpr h
    rw [roundUnits_of_lt rm neg m hlt]
    split <;> omega
  · rw [inUnits_refine m hq hle, inUnits_le_iff] at h
    rwa [roundUnits_of_le rm neg m hle]

/-- No mode rounds above a whole number of units that the value stays below. -/
theorem roundUnits_le {u e q : Int} {a m : Nat} (rm : Nat) (neg : Bool) (he : u ≤ e) (hq : u ≤ q)
    (h : inUnits u m e < inUnits u a q) : roundUnits rm neg m e q ≤ a := by
  rcases Int.lt_or_le e q with hlt | hle
  · rw [inUnits_refine a he (Int.le_of_lt hlt), inUnits_lt_iff] at h
    have hquot := (Nat.div_lt_iff_lt_mul (Nat.two_pow_pos _)).mpr h
    rw [roundUnits_of_lt rm neg m hlt]
    split <;> omega
  · rw [inUnits_refine m hq hle, inUnits_lt_iff] at h
    rw [roundUnits_of_le rm neg m hle]
    exact Nat.le_of_lt h

/-- Mode 0 goes up only from the middle on. -/
theorem le_two_mul_of_roundUp {neg odd inexact : Bool} {r d : Nat}
    (h : roundUp 0 neg odd inexact (compare (2 * r) d) = true) : d ≤ 2 * r := by
  rcases Nat.lt_or_ge (2 * r) d with hlt | hge
  · rw [Nat.compare_eq_lt.mpr hlt] at h
    exact absurd h Bool.false_ne_true
  · exact hge

/-- Mode 0 stays down only up to the middle. -/
theorem two_mul_le_of_not_roundUp {neg odd inexact : Bool} {r d : Nat}
    (h : ¬ roundUp 0 neg odd inexact (compare (2 * r) d) = true) : 2 * r ≤ d := by
  rcases Nat.lt_or_ge d (2 * r) with hgt | hle
  · rw [Nat.compare_eq_gt.mpr hgt] at h
    exact absurd rfl h
  · exact hle

/-- A division rounded by mode 0 is off by half a divisor at most. -/
theorem two_mul_apart_roundUnits_le {e q : Int} (neg : Bool) (m : Nat) (h : e < q) :
    2 * apart m (roundUnits 0 neg m e q * 2 ^ (q - e).toNat) ≤ 2 ^ (q - e).toNat := by
  have hpos : 0 < 2 ^ (q - e).toNat := Nat.two_pow_pos _
  rw [roundUnits_of_lt 0 neg m h]
  generalize 2 ^ (q - e).toNat = d at hpos ⊢
  have hdiv : m / d * d + m % d = m := Nat.div_add_mod' m d
  have hmod : m % d < d := Nat.mod_lt m hpos
  split
  case isTrue hup =>
    have hhalf := le_two_mul_of_roundUp hup
    rw [Nat.add_mul, Nat.one_mul, apart]
    omega
  case isFalse hdown =>
    have hhalf := two_mul_le_of_not_roundUp hdown
    rw [apart]
    omega

/-- Mode 0 picks a whole number of units that no other is nearer than (R138). -/
theorem roundUnits_nearest {u e q : Int} (neg : Bool) (m : Nat) (he : u ≤ e) (hq : u ≤ q) (a : Nat) :
    apart (inUnits u m e) (inUnits u (roundUnits 0 neg m e q) q) ≤ apart (inUnits u m e) (inUnits u a q) := by
  rcases Int.lt_or_le e q with hlt | hle
  · rw [inUnits_refine _ he (Int.le_of_lt hlt), inUnits_refine a he (Int.le_of_lt hlt), apart_inUnits_le_iff]
    exact apart_le_of_half (two_mul_apart_roundUnits_le neg m hlt) a
  · rw [roundUnits_of_le 0 neg m hle, ← inUnits_refine m hq hle, apart, Int.sub_self]
    exact Nat.zero_le _

/-! ### A code taken apart (R135) -/

/-- The exponent of a format's least subnormal, the unit of its subnormals and of its least normals. -/
def FFmt.minExp (f : FFmt) : Int := 1 - (f.bias : Int) - f.fb

/-- How far a magnitude code's unit lies above the least one. -/
def codeShift (f : FFmt) (c : Nat) : Nat := c / 2 ^ f.fb - 1

/-- A magnitude code's significand, the hidden bit with it. -/
def codeMant (f : FFmt) (c : Nat) : Nat := c - codeShift f c * 2 ^ f.fb

/-- The value that a magnitude code stands for, in units 2^u. -/
def codeUnits (f : FFmt) (u : Int) (c : Nat) : Nat := inUnits u (codeMant f c) (f.minExp + codeShift f c)

/-- The packed code: a carry out of the significand goes on into the exponent field. -/
theorem codeShift_mul_add_codeMant (f : FFmt) (c : Nat) : codeShift f c * 2 ^ f.fb + codeMant f c = c := by
  have hle : codeShift f c * 2 ^ f.fb ≤ c :=
    Nat.le_trans (Nat.mul_le_mul_right _ (Nat.sub_le _ 1)) (Nat.div_mul_le_self c _)
  exact Nat.add_sub_cancel' hle

theorem codeMant_of_subnormal {f : FFmt} {c : Nat} (h : c / 2 ^ f.fb = 0) :
    codeShift f c = 0 ∧ codeMant f c = c % 2 ^ f.fb := by
  have hshift : codeShift f c = 0 := by rw [codeShift, h]
  refine ⟨hshift, ?_⟩
  rw [codeMant, hshift, Nat.mod_eq_of_lt ((Nat.div_eq_zero_iff_lt (Nat.two_pow_pos _)).mp h)]
  omega

theorem codeMant_of_normal {f : FFmt} {c : Nat} (h : c / 2 ^ f.fb ≠ 0) :
    codeShift f c + 1 = c / 2 ^ f.fb ∧ codeMant f c = c % 2 ^ f.fb + 2 ^ f.fb := by
  have hshift : codeShift f c + 1 = c / 2 ^ f.fb := Nat.sub_add_cancel (Nat.pos_of_ne_zero h)
  refine ⟨hshift, ?_⟩
  have hsplit := codeShift_mul_add_codeMant f c
  have hdiv := Nat.div_add_mod' c (2 ^ f.fb)
  rw [← hshift, Nat.add_mul] at hdiv
  omega

theorem codeMant_lt (f : FFmt) (c : Nat) : codeMant f c < 2 ^ (f.fb + 1) := by
  have hmod := Nat.mod_lt c (Nat.two_pow_pos f.fb)
  rw [Nat.pow_succ]
  by_cases h : c / 2 ^ f.fb = 0
  · rw [(codeMant_of_subnormal h).2]
    omega
  · rw [(codeMant_of_normal h).2]
    omega

theorem le_codeMant {f : FFmt} {c : Nat} (h : codeShift f c ≠ 0) : 2 ^ f.fb ≤ codeMant f c := by
  have hnormal : c / 2 ^ f.fb ≠ 0 := fun h0 => h (codeMant_of_subnormal h0).1
  rw [(codeMant_of_normal hnormal).2]
  exact Nat.le_add_left _ _

/-- What a finite code denotes, its sign bit set or not (R135). -/
theorem floatValue_withSign {f : FFmt} {c : Nat} (neg : Bool) (hsign : f.maxCode < f.sign) (hc : c ≤ f.maxCode) :
    floatValue f (f.withSign neg c) = .fin neg (codeMant f c) (f.minExp + codeShift f c) := by
  have hlt : c < f.sign := Nat.lt_of_le_of_lt hc hsign
  have hneg : (f.withSign neg c / f.sign % 2 == 1) = neg := by
    cases neg with
    | false => simp [FFmt.withSign, Nat.div_eq_of_lt hlt]
    | true => simp [FFmt.withSign, Nat.add_div_left _ (Nat.zero_lt_of_lt hlt), Nat.div_eq_of_lt hlt]
  have hmag : f.withSign neg c % f.sign = c := by
    cases neg <;> simp [FFmt.withSign, Nat.mod_eq_of_lt hlt]
  simp only [floatValue, hneg, hmag, if_neg (Nat.not_lt.mpr hc)]
  split
  case isTrue hzero =>
    obtain ⟨hshift, hmant⟩ := codeMant_of_subnormal hzero
    rw [hshift, hmant, FFmt.minExp, Int.natCast_zero, Int.add_zero]
  case isFalse hnormal =>
    obtain ⟨hshift, hmant⟩ := codeMant_of_normal hnormal
    rw [hmant, ← hshift, FFmt.minExp]
    congr 1
    omega

/-- A significand that needs no more than its hidden bit is packed by adding it to its shift. -/
theorem codeMant_pack {f : FFmt} {k n : Nat} (hlow : k ≠ 0 → 2 ^ f.fb ≤ n) (hhigh : n < 2 ^ (f.fb + 1)) :
    codeShift f (k * 2 ^ f.fb + n) = k ∧ codeMant f (k * 2 ^ f.fb + n) = n := by
  have hshift : codeShift f (k * 2 ^ f.fb + n) = k := by
    have hdiv : (k * 2 ^ f.fb + n) / 2 ^ f.fb = k + n / 2 ^ f.fb := by
      rw [Nat.add_comm, Nat.add_mul_div_right _ _ (Nat.two_pow_pos _), Nat.add_comm]
    have hquot : n / 2 ^ f.fb < 2 := (Nat.div_lt_iff_lt_mul (Nat.two_pow_pos _)).mpr (by rwa [Nat.pow_succ'] at hhigh)
    have hone : k ≠ 0 → 1 ≤ n / 2 ^ f.fb := fun hk => (Nat.one_le_div_iff (Nat.two_pow_pos _)).mpr (hlow hk)
    rw [codeShift, hdiv]
    omega
  exact ⟨hshift, by rw [codeMant, hshift, Nat.add_sub_cancel_left]⟩

/-- A code packed of a shift and a significand, one carried out of its hidden bit too, has their value. -/
theorem codeUnits_pack {f : FFmt} {u : Int} {k n : Nat} (hu : u ≤ f.minExp) (hlow : k ≠ 0 → 2 ^ f.fb ≤ n)
    (hhigh : n ≤ 2 ^ (f.fb + 1)) : codeUnits f u (k * 2 ^ f.fb + n) = inUnits u n (f.minExp + k) := by
  rcases Nat.lt_or_eq_of_le hhigh with hlt | rfl
  · obtain ⟨hshift, hmant⟩ := codeMant_pack hlow hlt
    rw [codeUnits, hshift, hmant]
  · have hcarry : k * 2 ^ f.fb + 2 ^ (f.fb + 1) = (k + 1) * 2 ^ f.fb + 2 ^ f.fb := by
      rw [Nat.pow_succ, Nat.add_mul]
      omega
    obtain ⟨hshift, hmant⟩ :=
      codeMant_pack (f := f) (k := k + 1) (fun _ => Nat.le_refl _) (Nat.pow_lt_pow_succ Nat.one_lt_two)
    have hexp : f.fb + (f.minExp + (k + 1 : Nat) - u).toNat = f.fb + 1 + (f.minExp + k - u).toNat := by omega
    rw [hcarry, codeUnits, hshift, hmant, inUnits_two_pow, inUnits_two_pow, hexp]

/-! ### The code that rounding packs (R138) -/

/-- The exponent of the unit that toFloat rounds to. -/
def roundExp (f : FFmt) (m : Nat) (e : Int) : Int := max ((Nat.log2 m : Int) + e) (1 - (f.bias : Int)) - f.fb

/-- That unit's place above the least one. -/
def roundShift (f : FFmt) (m : Nat) (e : Int) : Nat := (roundExp f m e - f.minExp).toNat

/-- The magnitude code that toFloat makes, the format's greatest exceeded or not. -/
def roundCode (f : FFmt) (rm : Nat) (neg : Bool) (m : Nat) (e : Int) : Nat :=
  roundShift f m e * 2 ^ f.fb + roundUnits rm neg m e (roundExp f m e)

theorem minExp_le_roundExp (f : FFmt) (m : Nat) (e : Int) : f.minExp ≤ roundExp f m e := by
  unfold roundExp FFmt.minExp
  omega

theorem minExp_add_roundShift (f : FFmt) (m : Nat) (e : Int) : f.minExp + roundShift f m e = roundExp f m e := by
  have hle := minExp_le_roundExp f m e
  unfold roundShift
  omega

/-- The significand stays within the hidden bit. -/
theorem inUnits_lt_roundExp {f : FFmt} {u e : Int} (m : Nat) (he : u ≤ e) :
    inUnits u m e < inUnits u (2 ^ (f.fb + 1)) (roundExp f m e) := by
  refine Nat.lt_of_lt_of_le (inUnits_lt_iff.mpr (Nat.lt_log2_self (n := m))) ?_
  rw [inUnits_two_pow, inUnits_two_pow]
  refine Nat.pow_le_pow_right Nat.two_pos ?_
  unfold roundExp
  omega

/-- Above the least unit the hidden bit is set. -/
theorem roundExp_le_inUnits {f : FFmt} {u e : Int} {m : Nat} (hu : u ≤ f.minExp) (hm : m ≠ 0)
    (hk : roundShift f m e ≠ 0) : inUnits u (2 ^ f.fb) (roundExp f m e) ≤ inUnits u m e := by
  refine Nat.le_trans ?_ (inUnits_le_iff.mpr (Nat.log2_self_le hm))
  rw [inUnits_two_pow, inUnits_two_pow]
  refine Nat.pow_le_pow_right Nat.two_pos ?_
  unfold roundShift at hk
  unfold roundExp FFmt.minExp at *
  omega

theorem le_roundUnits_roundExp {f : FFmt} {m : Nat} {e : Int} (rm : Nat) (neg : Bool) (hm : m ≠ 0)
    (hk : roundShift f m e ≠ 0) : 2 ^ f.fb ≤ roundUnits rm neg m e (roundExp f m e) :=
  le_roundUnits rm neg (Int.min_le_left _ _) (Int.le_trans (Int.min_le_right _ _) (minExp_le_roundExp f m e))
    (roundExp_le_inUnits (Int.min_le_right _ _) hm hk)

theorem roundUnits_roundExp_le (f : FFmt) (rm : Nat) (neg : Bool) (m : Nat) (e : Int) :
    roundUnits rm neg m e (roundExp f m e) ≤ 2 ^ (f.fb + 1) :=
  roundUnits_le rm neg (Int.min_le_left e f.minExp)
    (Int.le_trans (Int.min_le_right _ _) (minExp_le_roundExp f m e)) (inUnits_lt_roundExp m (Int.min_le_left _ _))

/-- The three ways in which toFloat makes a code of n units are one packing. -/
theorem pack_cases {f : FFmt} {k n : Nat} {q : Int} (hq : f.minExp + k = q) (hlow : k ≠ 0 → 2 ^ f.fb ≤ n) :
    (if n < 2 ^ f.fb then n
      else if n = 2 ^ (f.fb + 1) then (q + 1 + f.fb + f.bias).toNat * 2 ^ f.fb
      else (q + f.fb + f.bias).toNat * 2 ^ f.fb + (n - 2 ^ f.fb)) = k * 2 ^ f.fb + n := by
  have hfield : (q + f.fb + f.bias).toNat = k + 1 := by rw [← hq, FFmt.minExp]; omega
  have hcarry : (q + 1 + f.fb + f.bias).toNat = k + 2 := by rw [← hq, FFmt.minExp]; omega
  rw [hfield, hcarry]
  split
  case isTrue hlt =>
    have hk : k = 0 := Classical.byContradiction fun hk => Nat.not_lt.mpr (hlow hk) hlt
    rw [hk, Nat.zero_mul, Nat.zero_add]
  case isFalse hle =>
    split
    case isTrue hmax => rw [hmax, Nat.pow_succ, Nat.add_mul]; omega
    case isFalse => rw [Nat.add_mul]; omega

/-- Rounding a value other than zero: its code where the format holds it, and what R139 makes of it elsewhere. -/
theorem toFloat_fin {f : FFmt} {m : Nat} (rm : Nat) (sat neg : Bool) (e : Int) (hm : m ≠ 0) :
    toFloat f rm sat (.fin neg m e) =
      if roundCode f rm neg m e ≤ f.maxCode then f.withSign neg (roundCode f rm neg m e)
      else if sat then f.withSign neg f.maxCode
      else if overflowsToInf rm neg then f.withSign neg f.infCode
      else f.withSign neg f.maxCode := by
  have hcode := pack_cases (minExp_add_roundShift f m e) (le_roundUnits_roundExp rm neg hm)
  rw [roundCode, ← hcode]
  exact if_neg hm

/-- A result of mode 0 without .sat that is a finite code is the packed one: an overflow gives an infinity. -/
theorem roundCode_of_toFloat_le {f : FFmt} {m : Nat} {e : Int} (hm : m ≠ 0)
    (hle : toFloat f 0 false (.fin false m e) ≤ f.maxCode) :
    toFloat f 0 false (.fin false m e) = roundCode f 0 false m e := by
  rw [toFloat_fin 0 false false e hm] at hle ⊢
  split
  case isTrue => rfl
  case isFalse hbig =>
    rw [if_neg hbig] at hle
    exact absurd hle (Nat.not_succ_le_self f.maxCode)

/-! ### Exactness -/

/-- A code's own value needs no finer and no coarser unit than the code's. -/
theorem roundExp_code {f : FFmt} {c : Nat} (hm : codeMant f c ≠ 0) :
    roundExp f (codeMant f c) (f.minExp + codeShift f c) = f.minExp + codeShift f c := by
  have hhigh : Nat.log2 (codeMant f c) < f.fb + 1 := (Nat.log2_lt hm).mpr (codeMant_lt f c)
  have hlow : codeShift f c ≠ 0 → f.fb ≤ Nat.log2 (codeMant f c) := fun hk => (Nat.le_log2 hm).mpr (le_codeMant hk)
  unfold roundExp FFmt.minExp
  omega

/-- Every mode packs a code's own value into that code. -/
theorem roundCode_code {f : FFmt} {c : Nat} (rm : Nat) (neg : Bool) (hm : codeMant f c ≠ 0) :
    roundCode f rm neg (codeMant f c) (f.minExp + codeShift f c) = c := by
  have hshift : roundShift f (codeMant f c) (f.minExp + codeShift f c) = codeShift f c := by
    rw [roundShift, roundExp_code hm]
    omega
  rw [roundCode, hshift, roundExp_code hm, roundUnits_of_le rm neg _ (Int.le_refl _), Int.sub_self, Int.toNat_zero,
    Nat.pow_zero, Nat.mul_one, codeShift_mul_add_codeMant]

/-- A finite code's value rounds to that code in every mode, with .sat or without (R138). -/
theorem toFloat_floatValue {f : FFmt} {c : Nat} (rm : Nat) (sat neg : Bool) (hsign : f.maxCode < f.sign)
    (hc : c ≤ f.maxCode) : toFloat f rm sat (floatValue f (f.withSign neg c)) = f.withSign neg c := by
  rw [floatValue_withSign neg hsign hc]
  by_cases hm : codeMant f c = 0
  · have hshift : codeShift f c = 0 := Classical.byContradiction fun hk =>
      Nat.not_le.mpr (Nat.two_pow_pos f.fb) (hm ▸ le_codeMant hk)
    have hcode : c = 0 := by rw [← codeShift_mul_add_codeMant f c, hshift, hm, Nat.zero_mul]
    rw [hm, hcode]
    rfl
  · rw [toFloat_fin rm sat neg _ hm, roundCode_code rm neg hm, if_pos hc]

/-! ### Nearness -/

/-- No code is nearer to a value than the one that mode 0 packs. A code of the rounding's own unit, or of a coarser one,
is a whole number of units; one of a finer unit lies below the least of them, which lies below the value. -/
theorem roundCode_nearest {f : FFmt} {u e : Int} {m : Nat} (he : u ≤ e) (hu : u ≤ f.minExp) (hm : m ≠ 0) (c : Nat) :
    apart (inUnits u m e) (codeUnits f u (roundCode f 0 false m e)) ≤ apart (inUnits u m e) (codeUnits f u c) := by
  have hexp := minExp_add_roundShift f m e
  have hround : u ≤ roundExp f m e := Int.le_trans hu (minExp_le_roundExp f m e)
  have hnear := roundUnits_nearest false m he hround
  rw [roundCode, codeUnits_pack hu (le_roundUnits_roundExp 0 false hm) (roundUnits_roundExp_le f 0 false m e), hexp]
  rcases Nat.lt_or_ge (codeShift f c) (roundShift f m e) with hk | hk
  · have hbelow : codeUnits f u c ≤ inUnits u (2 ^ f.fb) (roundExp f m e) := by
      refine Nat.le_trans (Nat.le_of_lt (inUnits_lt_iff.mpr (codeMant_lt f c))) ?_
      rw [inUnits_two_pow, inUnits_two_pow]
      exact Nat.pow_le_pow_right Nat.two_pos (by omega)
    have habove := roundExp_le_inUnits hu hm (Nat.ne_zero_of_lt hk)
    refine Nat.le_trans (hnear (2 ^ f.fb)) ?_
    unfold apart
    omega
  · rw [codeUnits, inUnits_refine (codeMant f c) hround (by omega)]
    exact hnear _

/-- A finite code's value, as floatValue gives it, in units no coarser than its own. -/
theorem floatValue_units {f : FFmt} {c n : Nat} {d : Int} (hsign : f.maxCode < f.sign) (hc : c ≤ f.maxCode)
    (hval : floatValue f c = .fin false n d) : f.minExp ≤ d ∧ ∀ u, inUnits u n d = codeUnits f u c := by
  obtain ⟨-, rfl, rfl⟩ := FVal.fin.inj ((floatValue_withSign false hsign hc).symm.trans hval)
  exact ⟨by omega, fun _ => rfl⟩

/-! ### The statement -/

theorem maxCode_lt_sign {f : FFmt} (hf : f ∈ [fp32, fp16, bf16, e4m3, e5m2]) : f.maxCode < f.sign := by
  revert f
  decide

/-- Settles O14: a code's own value is packed into it, and mode 0 packs a code that no other is nearer than. -/
theorem rounding : Obligations.Rounding := by
  refine ⟨fun f rm c sat neg hf hc => toFloat_floatValue rm sat neg (maxCode_lt_sign hf) hc, ?_⟩
  intro f m e c n d hf hm hround hc hval c' n' d' hc' hval' q x
  have hcode : c = roundCode f 0 false m e := hround ▸ roundCode_of_toFloat_le hm (hround ▸ hc)
  obtain ⟨hd, hunits⟩ := floatValue_units (maxCode_lt_sign hf) hc hval
  obtain ⟨hd', hunits'⟩ := floatValue_units (maxCode_lt_sign hf) hc' hval'
  have hnear := roundCode_nearest (Int.min_le_left e f.minExp) (Int.min_le_right e f.minExp) hm c'
  have huq : min e f.minExp ≤ q := by omega
  rw [← hcode, ← hunits, ← hunits', inUnits_refine m huq (by omega), inUnits_refine n huq (by omega),
    inUnits_refine n' huq (by omega), apart_inUnits_le_iff] at hnear
  exact_mod_cast hnear

end Sys2Proof.Machine
end
